-- ==== Sys2Proof/Word.lean ====
section
/-! DEFINITION. The words of the machine (R5, R52) and the shape of sparse tables. -/
namespace Sys2Proof

/-- A class-S value: 64 bits (R52). -/
abbrev Word := BitVec 64

/-- One lane of a class-V value (R52). -/
abbrev Lane := BitVec 32

abbrev Byte := BitVec 8

/-- A class-V value: 64 lanes of 32 bits, lane i at index i (R52). -/
abbrev Vec := List Lane

/-- A sparse table: keys strictly rising, and no entry equal to what an unlisted key reads as. -/
abbrev NMap (α : Type) := List (Nat × α)

/-- All bits 1. -/
abbrev Word.ones : Word := BitVec.allOnes 64

end Sys2Proof
end

