-- ==== Sys2Proof/Config.lean ====
section
/-! DEFINITION. What the part's description leaves open, as constants with no body, and the figures of R2.

Every `opaque` below is a free value: nothing in the model evaluates it, and a claim holds whatever
it is.  Each is applied to a plain counter of the state, or to the operands it depends on. -/
namespace Sys2Proof.Config

/-- An undefined class-S or class-P value (R8). -/
opaque freeWord : Nat → Word

/-- An undefined lane (R8). -/
opaque freeLane : Nat → Lane

/-- An undefined byte (R8). -/
opaque freeByte : Nat → Byte

/-- Which of several steps that no rule orders comes next (R101, R340). -/
opaque choice : Nat → Nat

/-- Whether an open yes-or-no choice of the device goes one way: a stream's cached frame used or
looked up afresh (R121). -/
opaque coin : Nat → Bool

/-- The TLB entry that a fill displaces when all 64 are in use (R203 gives no policy). -/
opaque tlbVictim : Nat → Nat

/-- The set of an L2 slice that a line falls into (R2 and R195 give the ways and no index). -/
opaque l2Set : Nat → Nat

/-- The capacity that a CXL device reports: devices 0 and 1 of port p at 2p and 2p + 1 (R194, R318). -/
opaque cxlCapacity : Nat → Nat

/-- The SM3 digest of the firmware (R337). -/
opaque fwHash : BitVec 256

/-- The SM3 digest of the configuration (R337). -/
opaque cfgHash : BitVec 256

/-- The device's public key, of 64 bytes (R337). -/
opaque devKey : BitVec 512

/-- The SM3 digest of 64 bytes (R337 names the function and the spec does not give it). -/
opaque sm3 : BitVec 512 → BitVec 256

/-- Bytes 0 to 15 of the SM3 digest of the device's public key (R337). -/
abbrev devId : BitVec 128 := (sm3 devKey).truncate 128

/-- The SM2 signature under the device key of the report bytes 0 to 95 (R337). -/
opaque sm2Sign : BitVec 768 → BitVec 512

/-- Which way round the die ring a transfer between opposite dies goes (R318 names the ring and no route). -/
opaque ringRoute : Nat → Bool

/-- The die that the Hasp link is attached to (R2 and R318 name the link and no die). -/
opaque haspDie : Nat

/-- The slot table of an image (R34, R315), whose layout the spec does not give: the clock of a revolution in which the
first slot of an ordered pair of cores begins, and whether another begins in a given clock. -/
opaque pairSlot : Nat → Nat → Nat → Nat
opaque moreSlots : Nat → Nat → Nat → Nat → Bool

/-- The clock of a revolution in which the multicast slot of a core begins (R315). -/
opaque mcastSlot : Nat → Nat → Nat

/-- The slots between a core and a slice of its die: image, core, and twice the slice, with 1 added from the slice; as for a
pair of cores (R315). -/
opaque sliceSlot : Nat → Nat → Nat → Nat
opaque moreSliceSlots : Nat → Nat → Nat → Nat → Bool

/-- How many clocks later than the shortest way a transfer between a core and a slice lands: image, core, twice the slice (with
1 added from the slice) and clock of the revolution (R315). -/
opaque sliceTransit : Nat → Nat → Nat → Nat → Nat

/-- How many clocks later than the shortest way a transfer lands that departs in a slot: image, source, target (its
source for a multicast) and clock of the revolution (R231, R315). -/
opaque transit : Nat → Nat → Nat → Nat → Nat

/-- Cores of a die, and of the package (R9). -/
abbrev coresPerDie : Nat := 128
abbrev cores : Nat := 512
/-- Load-queue and store-queue entries (R96). -/
abbrev queueEntries : Nat := 64
/-- Entries of the handler's load queue (R100). -/
abbrev handlerEntries : Nat := 8
/-- Count-queue entries (R77). -/
abbrev countEntries : Nat := 32
/-- Loop-stack entries (R87). -/
abbrev loopEntries : Nat := 6
/-- Bytes of one bank of the unified array (R190). -/
abbrev bankBytes : Nat := 10240
/-- TLB entries of a sequencer (R203). -/
abbrev tlbEntries : Nat := 64
/-- Sets of an L2 slice: 1 MiB in 16 ways of 256-byte lines (R2). -/
abbrev l2Sets : Nat := 256
/-- Records that the digest cache of a slice holds (R2). -/
abbrev digestRecords : Nat := 4096
/-- Record-cache entries of a core (R115). -/
abbrev recordEntries : Nat := 32
/-- Signature-store entries of a slice (R216). -/
abbrev sigEntries : Nat := 256
/-- Barrier handles of a die (R2, R223). -/
abbrev barriers : Nat := 4096
/-- Clocks of one mesh revolution (R315). -/
abbrev revolution : Nat := 512
/-- Clocks of one microsecond at 2.25 GHz (R2, R4). -/
abbrev clocksPerUs : Nat := 2250
/-- The bundle and the clock budget of a CANCEL or PREEMPT handler (R36). -/
abbrev handlerBundles : Nat := 4096
abbrev handlerClocks : Nat := 65536
/-- The blocked clocks before an enlargement (R42). -/
abbrev blockedClocks : Nat := 1024
/-- The shared pool of a die for enlargements, in steps of 4 KiB (R42). -/
abbrev poolSteps : Nat := 128
/-- Bay contexts of a die's shadow storage (R261). -/
abbrev shadowContexts : Nat := 16

end Sys2Proof.Config
end

