-- ==== Sys2Proof/Syntax.lean ====
section
/-! DEFINITION. The instruction syntax: one constructor for each row of spec/opcode_table.json.

Rows with an encoding are SLOT WORDS (R44 to R51, R59, R84): their fields are the fields of the
slot word, in the widths the spec gives.  Rows without an encoding are the part's other steps
(spec/95_what_each_step_holds.md): completions, scheduler and engine actions, host actions.  Their
arguments name the unit the step happens at, and what the outside world brings to it. -/
namespace Sys2Proof

/-- The result ports (R56) whose visibility R68 to R70 govern. -/
inductive ResPort where
  | ia0r | ia1r | imr | imh | plr | vxr | vxm | vxs | crr
  deriving DecidableEq, Repr

/-- The levels of work (R27). -/
inductive Level where
  | unit | launch | graph | phase | job
  deriving DecidableEq, Repr

/-- Hasp-side registers the host writes that have no row of their own (R252, R295, R334). -/
inductive HostReg where
  | tthr | ttab | tlog | ctxbase
  | queuePriority (die queue : Nat)
  | drainLimit (die : Nat)
  | killThreshold (die : Nat)
  deriving DecidableEq, Repr

/-- Hasp-side registers and counters that the host reads (R205, R252, R295, R319, R334, R336, R337). -/
inductive HaspRead where
  | written (reg : HostReg)
  | tcfg | tver | tres | featOff | featAcc | publicKey
  | corrected (die : Nat)
  | linkErrors (link : Nat)
  deriving DecidableEq, Repr

/-- A host access through the Hasp link: a load or a store of memory (R209, R318), or a read of a register, to which
no address belongs. -/
inductive HostAccess where
  | load (size : Nat)
  | store (bytes : List Byte)
  | register (reg : HaspRead)
  deriving DecidableEq, Repr

/-- Where a soft error arises (R205). -/
inductive ErrSite where
  | cacheBank (core bank frame sector : Nat)
  | scratchpad (core offset : Nat)
  /-- A word of 4 bytes of a resident tile. -/
  | operandBank (core tile word : Nat)
  | l2 (pa : Nat)
  /-- A sector of a line in a die's remote-line ways. -/
  | remoteWay (die line sector : Nat)
  | digestRecord (line : Nat)
  | hbm (pa : Nat)
  | meshFlit (core : Nat)
  | vectorDatapath (core : Nat)
  | matrixDatapath (core : Nat)
  | engineDatapath (pa : Nat)
  deriving DecidableEq, Repr

/-- The instructions and steps of the part, one constructor per row of the opcode table. -/
inductive Instr where
  /-- MOVE (R46): Plain move: reads the source and writes the destination, subject to the guard; a trigger-port destination starts that unit. -/
  | move (g : BitVec 7) (d : BitVec 11) (s : BitVec 12)
  /-- WIDE_IMMEDIATE_MOVE (R48): Unguarded move of a 19-bit sign-extended immediate to a destination. -/
  | wideImmediateMove (d : BitVec 11) (imm : BitVec 19)
  /-- HEADER (R49): Slot-0 header that sets the no-merge flag and extends the immediates of slots 1 to 3. -/
  | header (nm : BitVec 1) (e1 : BitVec 1) (e2 : BitVec 1) (e3 : BitVec 1) (x1 : BitVec 8) (x2 : BitVec 8) (x3 : BitVec 8)
  /-- LQ_POP (R98): Move whose source is lq.pop: removes and delivers the head load-queue entry, or traps EARLY_POP or QUEUE_EMPTY or the cause of a mark, or freezes until the data arrives. -/
  | lqPop (g : BitVec 7) (d : BitVec 11)
  /-- CX_POP (R229): Move whose source is cx.pop: removes the head vector of the circuit receive queue, freezes on an empty queue, or traps LINK on poison. -/
  | cxPop (g : BitVec 7) (d : BitVec 11)
  /-- CQ_POP (R77): Move whose source is cq.pop: removes the head of the count queue, or traps QUEUE_EMPTY. -/
  | cqPop (g : BitVec 7) (d : BitVec 11)
  /-- CQ_PUSH (R77): Move to cq.push: pushes a 64-bit entry onto the count queue, or traps LOOP_OVERFLOW at a 33rd entry. -/
  | cqPush (g : BitVec 7) (s : BitVec 12)
  /-- IA_ADD (R72): Integer add o + t on ia0 or ia1, L = 1. -/
  | iaAdd (g : BitVec 7) (u : BitVec 1) (s : BitVec 12)
  /-- IA_SUB (R72): Integer subtract o − t. -/
  | iaSub (g : BitVec 7) (u : BitVec 1) (s : BitVec 12)
  /-- IA_AND (R72): Bitwise and of o and t. -/
  | iaAnd (g : BitVec 7) (u : BitVec 1) (s : BitVec 12)
  /-- IA_OR (R72): Bitwise or of o and t. -/
  | iaOr (g : BitVec 7) (u : BitVec 1) (s : BitVec 12)
  /-- IA_XOR (R72): Bitwise exclusive or of o and t. -/
  | iaXor (g : BitVec 7) (u : BitVec 1) (s : BitVec 12)
  /-- IA_ANDN (R72): o and not t. -/
  | iaAndn (g : BitVec 7) (u : BitVec 1) (s : BitVec 12)
  /-- IA_SHL (R72): Shift o left by t, 0 when t ≥ 64. -/
  | iaShl (g : BitVec 7) (u : BitVec 1) (s : BitVec 12)
  /-- IA_SHR (R72): Logical shift right of o by t. -/
  | iaShr (g : BitVec 7) (u : BitVec 1) (s : BitVec 12)
  /-- IA_SAR (R72): Arithmetic shift right of o by t. -/
  | iaSar (g : BitVec 7) (u : BitVec 1) (s : BitVec 12)
  /-- IA_ROTR (R72): Rotate o right by t mod 64. -/
  | iaRotr (g : BitVec 7) (u : BitVec 1) (s : BitVec 12)
  /-- IA_MIN (R72): Signed minimum of o and t. -/
  | iaMin (g : BitVec 7) (u : BitVec 1) (s : BitVec 12)
  /-- IA_MAX (R72): Signed maximum of o and t. -/
  | iaMax (g : BitVec 7) (u : BitVec 1) (s : BitVec 12)
  /-- IA_MINN (R72): Unsigned minimum of o and t. -/
  | iaMinn (g : BitVec 7) (u : BitVec 1) (s : BitVec 12)
  /-- IA_MAXN (R72): Unsigned maximum of o and t. -/
  | iaMaxn (g : BitVec 7) (u : BitVec 1) (s : BitVec 12)
  /-- IA_CMPEQ (R72): All ones when o = t, else 0. -/
  | iaCmpeq (g : BitVec 7) (u : BitVec 1) (s : BitVec 12)
  /-- IA_CMPNE (R72): All ones when o ≠ t, else 0. -/
  | iaCmpne (g : BitVec 7) (u : BitVec 1) (s : BitVec 12)
  /-- IA_CMPLT (R72): All ones when o < t as i64. -/
  | iaCmplt (g : BitVec 7) (u : BitVec 1) (s : BitVec 12)
  /-- IA_CMPLE (R72): All ones when o ≤ t as i64. -/
  | iaCmple (g : BitVec 7) (u : BitVec 1) (s : BitVec 12)
  /-- IA_CMPLTN (R72): All ones when o < t as n64. -/
  | iaCmpltn (g : BitVec 7) (u : BitVec 1) (s : BitVec 12)
  /-- IA_CMPLEN (R72): All ones when o ≤ t as n64. -/
  | iaCmplen (g : BitVec 7) (u : BitVec 1) (s : BitVec 12)
  /-- IA_CLZ (R72): Count of leading zero bits of t. -/
  | iaClz (g : BitVec 7) (u : BitVec 1) (s : BitVec 12)
  /-- IA_CTZ (R72): Count of trailing zero bits of t. -/
  | iaCtz (g : BitVec 7) (u : BitVec 1) (s : BitVec 12)
  /-- IA_POPC (R72): Count of one bits of t. -/
  | iaPopc (g : BitVec 7) (u : BitVec 1) (s : BitVec 12)
  /-- IA_SEXT (R72): Sign-extends o from bit t − 1. -/
  | iaSext (g : BitVec 7) (u : BitVec 1) (s : BitVec 12)
  /-- IA_ZEXT (R72): Zero-extends o above bit t − 1. -/
  | iaZext (g : BitVec 7) (u : BitVec 1) (s : BitVec 12)
  /-- IM_MUL (R73): Low 64 bits of o × t into im.r, L = 3. -/
  | imMul (g : BitVec 7) (s : BitVec 12)
  /-- IM_MULHI (R73): High 64 bits of the signed product. -/
  | imMulhi (g : BitVec 7) (s : BitVec 12)
  /-- IM_MULHN (R73): High 64 bits of the unsigned product. -/
  | imMulhn (g : BitVec 7) (s : BitVec 12)
  /-- IM_DIV (R74): Signed divide: quotient to im.r, remainder to im.h, L = 24. -/
  | imDiv (g : BitVec 7) (s : BitVec 12)
  /-- IM_DIVN (R74): Unsigned divide: quotient to im.r, remainder to im.h. -/
  | imDivn (g : BitVec 7) (s : BitVec 12)
  /-- IM_REM (R74): Signed remainder to im.r, quotient to im.h. -/
  | imRem (g : BitVec 7) (s : BitVec 12)
  /-- IM_REMN (R74): Unsigned remainder to im.r, quotient to im.h. -/
  | imRemn (g : BitVec 7) (s : BitVec 12)
  /-- IM_MAD (R73): Low 64 bits of o × t + im.p. -/
  | imMad (g : BitVec 7) (s : BitVec 12)
  /-- PL_PAND (R75): Predicate and of o and t. -/
  | plPand (g : BitVec 7) (s : BitVec 12)
  /-- PL_POR (R75): Predicate or of o and t. -/
  | plPor (g : BitVec 7) (s : BitVec 12)
  /-- PL_PXOR (R75): Predicate exclusive or. -/
  | plPxor (g : BitVec 7) (s : BitVec 12)
  /-- PL_PANDN (R75): Predicate o and not t. -/
  | plPandn (g : BitVec 7) (s : BitVec 12)
  /-- PL_PNOT (R75): Predicate complement of t. -/
  | plPnot (g : BitVec 7) (s : BitVec 12)
  /-- PL_PALL (R75): All ones when every bit set in o is set in t. -/
  | plPall (g : BitVec 7) (s : BitVec 12)
  /-- PL_PANY (R75): All ones when o and t share a set bit. -/
  | plPany (g : BitVec 7) (s : BitVec 12)
  /-- PL_PCNT (R75): Count of bits set in o and t. -/
  | plPcnt (g : BitVec 7) (s : BitVec 12)
  /-- PL_PFIRST (R75): Lowest bit set in o and t. -/
  | plPfirst (g : BitVec 7) (s : BitVec 12)
  /-- PL_PLT (R75): Bits of o below index t. -/
  | plPlt (g : BitVec 7) (s : BitVec 12)
  /-- LQ_LDB (R104): Load one byte zero-extended into the load queue. -/
  | lqLdb (g : BitVec 7) (s : BitVec 12)
  /-- LQ_LDBS (R104): Load one byte sign-extended. -/
  | lqLdbs (g : BitVec 7) (s : BitVec 12)
  /-- LQ_LDH (R104): Load 16 bits zero-extended. -/
  | lqLdh (g : BitVec 7) (s : BitVec 12)
  /-- LQ_LDHS (R104): Load 16 bits sign-extended. -/
  | lqLdhs (g : BitVec 7) (s : BitVec 12)
  /-- LQ_LDW (R104): Load 32 bits zero-extended. -/
  | lqLdw (g : BitVec 7) (s : BitVec 12)
  /-- LQ_LDWS (R104): Load 32 bits sign-extended. -/
  | lqLdws (g : BitVec 7) (s : BitVec 12)
  /-- LQ_LDD (R104): Load 64 bits. -/
  | lqLdd (g : BitVec 7) (s : BitVec 12)
  /-- LQ_VLD (R105): Vector load of 256 aligned bytes as one class-V entry. -/
  | lqVld (g : BitVec 7) (s : BitVec 12)
  /-- LQ_VLDBF (R105): Vector load of 64 bf16 values widened to f32. -/
  | lqVldbf (g : BitVec 7) (s : BitVec 12)
  /-- LQ_VLDHF (R105): Vector load of 64 f16 values widened to f32. -/
  | lqVldhf (g : BitVec 7) (s : BitVec 12)
  /-- LQ_VLDB (R105): Vector load of 64 bytes zero-extended per lane. -/
  | lqVldb (g : BitVec 7) (s : BitVec 12)
  /-- LQ_GTH (R106): Gather of 32-bit words at lq.b plus per-lane offsets. -/
  | lqGth (g : BitVec 7) (s : BitVec 12)
  /-- SQ_STB (R107): Store 8 bits at sq.o. -/
  | sqStb (g : BitVec 7) (s : BitVec 12)
  /-- SQ_STH (R107): Store 16 bits at sq.o. -/
  | sqSth (g : BitVec 7) (s : BitVec 12)
  /-- SQ_STW (R107): Store 32 bits at sq.o. -/
  | sqStw (g : BitVec 7) (s : BitVec 12)
  /-- SQ_STD (R107): Store 64 bits at sq.o. -/
  | sqStd (g : BitVec 7) (s : BitVec 12)
  /-- SQ_VST (R107): Vector store of 256 bytes, guarded-off lanes unwritten. -/
  | sqVst (g : BitVec 7) (s : BitVec 12)
  /-- SQ_VSTBF (R108): Vector store rounded to bf16, setting FPCTL flags. -/
  | sqVstbf (g : BitVec 7) (s : BitVec 12)
  /-- SQ_VSTHF (R108): Vector store rounded to f16, setting FPCTL flags. -/
  | sqVsthf (g : BitVec 7) (s : BitVec 12)
  /-- SQ_SCT (R109): Scatter of up to 32 offset and word pairs as one store-queue entry. -/
  | sqSct (g : BitVec 7) (s : BitVec 12)
  /-- LQ_MARK (R102): Places a marker in both queues ordering earlier accesses before later ones. -/
  | lqMark (g : BitVec 7) (s : BitVec 12)
  /-- AG_SLD (R120): Stream load of the current row of a stream register, optionally advancing POS. -/
  | agSld (g : BitVec 7) (s : BitVec 12)
  /-- AG_SST (R122): Computes and checks a stream row address and writes it to sq.o, with KV frame checks in mode 1. -/
  | agSst (g : BitVec 7) (s : BitVec 12)
  /-- AG_SRLD (R117): Loads a stream register from a shape record, holding as a flag-wait until the record is read. -/
  | agSrld (g : BitVec 7) (s : BitVec 12)
  /-- AG_SSET (R118): Writes one field of a stream register from ag.o. -/
  | agSset (g : BitVec 7) (s : BitVec 12)
  /-- AG_SADV (R119): Advances a stream's POS by ag.o. -/
  | agSadv (g : BitVec 7) (s : BitVec 12)
  /-- AG_RFENCE (R123): Places a marker and arranges for the core's record cache to be emptied. -/
  | agRfence (g : BitVec 7) (s : BitVec 12)
  /-- VX_VADD (R145): Lane-wise integer add. -/
  | vxVadd (g : BitVec 7) (s : BitVec 12)
  /-- VX_VSUB (R145): Lane-wise integer subtract. -/
  | vxVsub (g : BitVec 7) (s : BitVec 12)
  /-- VX_VMUL (R145): Lane-wise low 32 bits of the product. -/
  | vxVmul (g : BitVec 7) (s : BitVec 12)
  /-- VX_VMULHI (R145): Lane-wise high 32 bits of the signed product. -/
  | vxVmulhi (g : BitVec 7) (s : BitVec 12)
  /-- VX_VMULHN (R145): Lane-wise high 32 bits of the unsigned product. -/
  | vxVmulhn (g : BitVec 7) (s : BitVec 12)
  /-- VX_VMIN (R145): Lane-wise signed minimum. -/
  | vxVmin (g : BitVec 7) (s : BitVec 12)
  /-- VX_VMAX (R145): Lane-wise signed maximum. -/
  | vxVmax (g : BitVec 7) (s : BitVec 12)
  /-- VX_VMINN (R145): Lane-wise unsigned minimum. -/
  | vxVminn (g : BitVec 7) (s : BitVec 12)
  /-- VX_VMAXN (R145): Lane-wise unsigned maximum. -/
  | vxVmaxn (g : BitVec 7) (s : BitVec 12)
  /-- VX_VAND (R145): Lane-wise and. -/
  | vxVand (g : BitVec 7) (s : BitVec 12)
  /-- VX_VOR (R145): Lane-wise or. -/
  | vxVor (g : BitVec 7) (s : BitVec 12)
  /-- VX_VXOR (R145): Lane-wise exclusive or. -/
  | vxVxor (g : BitVec 7) (s : BitVec 12)
  /-- VX_VANDN (R145): Lane-wise and not. -/
  | vxVandn (g : BitVec 7) (s : BitVec 12)
  /-- VX_VSHL (R145): Lane-wise shift left. -/
  | vxVshl (g : BitVec 7) (s : BitVec 12)
  /-- VX_VSHR (R145): Lane-wise logical shift right. -/
  | vxVshr (g : BitVec 7) (s : BitVec 12)
  /-- VX_VSAR (R145): Lane-wise arithmetic shift right. -/
  | vxVsar (g : BitVec 7) (s : BitVec 12)
  /-- VX_VABS (R145): Lane-wise integer absolute value. -/
  | vxVabs (g : BitVec 7) (s : BitVec 12)
  /-- VX_VNEG (R145): Lane-wise integer negate. -/
  | vxVneg (g : BitVec 7) (s : BitVec 12)
  /-- VX_VCLZ (R145): Lane-wise count of leading zeros. -/
  | vxVclz (g : BitVec 7) (s : BitVec 12)
  /-- VX_VPOPC (R145): Lane-wise count of ones. -/
  | vxVpopc (g : BitVec 7) (s : BitVec 12)
  /-- VX_VCMPEQ (R146): Lane-wise integer equal compare into vx.r and vx.m. -/
  | vxVcmpeq (g : BitVec 7) (s : BitVec 12)
  /-- VX_VCMPNE (R146): Lane-wise integer not-equal compare. -/
  | vxVcmpne (g : BitVec 7) (s : BitVec 12)
  /-- VX_VCMPLT (R146): Lane-wise signed less compare. -/
  | vxVcmplt (g : BitVec 7) (s : BitVec 12)
  /-- VX_VCMPLE (R146): Lane-wise signed less-or-equal compare. -/
  | vxVcmple (g : BitVec 7) (s : BitVec 12)
  /-- VX_VCMPLTN (R146): Lane-wise unsigned less compare. -/
  | vxVcmpltn (g : BitVec 7) (s : BitVec 12)
  /-- VX_VCMPLEN (R146): Lane-wise unsigned less-or-equal compare. -/
  | vxVcmplen (g : BitVec 7) (s : BitVec 12)
  /-- VX_VFADD (R147): Lane-wise f32 add, L = 4. -/
  | vxVfadd (g : BitVec 7) (s : BitVec 12)
  /-- VX_VFSUB (R147): Lane-wise f32 subtract. -/
  | vxVfsub (g : BitVec 7) (s : BitVec 12)
  /-- VX_VFMUL (R147): Lane-wise f32 multiply. -/
  | vxVfmul (g : BitVec 7) (s : BitVec 12)
  /-- VX_VFMA (R147): Lane-wise fused multiply-add with vx.p as addend. -/
  | vxVfma (g : BitVec 7) (s : BitVec 12)
  /-- VX_VFMIN (R148): Lane-wise f32 minimum. -/
  | vxVfmin (g : BitVec 7) (s : BitVec 12)
  /-- VX_VFMAX (R148): Lane-wise f32 maximum. -/
  | vxVfmax (g : BitVec 7) (s : BitVec 12)
  /-- VX_VFABS (R147): Lane-wise f32 absolute value. -/
  | vxVfabs (g : BitVec 7) (s : BitVec 12)
  /-- VX_VFNEG (R147): Lane-wise f32 negate. -/
  | vxVfneg (g : BitVec 7) (s : BitVec 12)
  /-- VX_VFRCP (R150): Lane-wise correctly rounded reciprocal, L = 8. -/
  | vxVfrcp (g : BitVec 7) (s : BitVec 12)
  /-- VX_VFRSQRT (R150): Lane-wise reciprocal square root. -/
  | vxVfrsqrt (g : BitVec 7) (s : BitVec 12)
  /-- VX_VFSQRT (R150): Lane-wise square root. -/
  | vxVfsqrt (g : BitVec 7) (s : BitVec 12)
  /-- VX_VFEXP2 (R150): Lane-wise power of two. -/
  | vxVfexp2 (g : BitVec 7) (s : BitVec 12)
  /-- VX_VFLOG2 (R150): Lane-wise base-2 logarithm. -/
  | vxVflog2 (g : BitVec 7) (s : BitVec 12)
  /-- VX_VFCMPEQ (R149): Lane-wise float equal compare. -/
  | vxVfcmpeq (g : BitVec 7) (s : BitVec 12)
  /-- VX_VFCMPLT (R149): Lane-wise float less compare. -/
  | vxVfcmplt (g : BitVec 7) (s : BitVec 12)
  /-- VX_VFCMPLE (R149): Lane-wise float less-or-equal compare. -/
  | vxVfcmple (g : BitVec 7) (s : BitVec 12)
  /-- VX_VFCMPUN (R149): Lane-wise unordered compare. -/
  | vxVfcmpun (g : BitVec 7) (s : BitVec 12)
  /-- VX_VCVTIF (R151): Lane-wise i32 to f32 conversion. -/
  | vxVcvtif (g : BitVec 7) (s : BitVec 12)
  /-- VX_VCVTFI (R151): Lane-wise f32 to i32 saturating conversion. -/
  | vxVcvtfi (g : BitVec 7) (s : BitVec 12)
  /-- VX_VCVTFBF (R151): Lane-wise f32 to bf16 conversion. -/
  | vxVcvtfbf (g : BitVec 7) (s : BitVec 12)
  /-- VX_VCVTBFF (R151): Lane-wise bf16 to f32 conversion. -/
  | vxVcvtbff (g : BitVec 7) (s : BitVec 12)
  /-- VX_VCVTFH (R151): Lane-wise f32 to f16 conversion. -/
  | vxVcvtfh (g : BitVec 7) (s : BitVec 12)
  /-- VX_VCVTHF (R151): Lane-wise f16 to f32 conversion. -/
  | vxVcvthf (g : BitVec 7) (s : BitVec 12)
  /-- VX_VQNT2 (R152): Quantises 64 lanes into four HX2 blocks. -/
  | vxVqnt2 (g : BitVec 7) (s : BitVec 12)
  /-- VX_VQNT4 (R152): Quantises 64 lanes into four HX4 blocks. -/
  | vxVqnt4 (g : BitVec 7) (s : BitVec 12)
  /-- VX_VQNT7 (R152): Quantises 64 lanes into four HX7 blocks. -/
  | vxVqnt7 (g : BitVec 7) (s : BitVec 12)
  /-- VX_VDEQ2 (R153): Dequantises four HX2 blocks to f32. -/
  | vxVdeq2 (g : BitVec 7) (s : BitVec 12)
  /-- VX_VDEQ4 (R153): Dequantises four HX4 blocks to f32. -/
  | vxVdeq4 (g : BitVec 7) (s : BitVec 12)
  /-- VX_VDEQ7 (R153): Dequantises four HX7 blocks to f32. -/
  | vxVdeq7 (g : BitVec 7) (s : BitVec 12)
  /-- VX_VPERM (R154): Permutes lanes of vx.o by per-lane indices. -/
  | vxVperm (g : BitVec 7) (s : BitVec 12)
  /-- VX_VBCAST (R154): Broadcasts one lane of vx.o. -/
  | vxVbcast (g : BitVec 7) (s : BitVec 12)
  /-- VX_VSLIDE (R154): Slides lanes of vx.o by d. -/
  | vxVslide (g : BitVec 7) (s : BitVec 12)
  /-- VX_VGET (R154): Extracts one lane of vx.o into vx.s. -/
  | vxVget (g : BitVec 7) (s : BitVec 12)
  /-- VX_VREDADD (R155): Integer sum reduction into vx.r and vx.s. -/
  | vxVredadd (g : BitVec 7) (s : BitVec 12)
  /-- VX_VREDMIN (R155): Integer minimum reduction. -/
  | vxVredmin (g : BitVec 7) (s : BitVec 12)
  /-- VX_VREDMAX (R155): Integer maximum reduction. -/
  | vxVredmax (g : BitVec 7) (s : BitVec 12)
  /-- VX_VFREDADD (R155): Float sum reduction over the pairwise tree. -/
  | vxVfredadd (g : BitVec 7) (s : BitVec 12)
  /-- VX_VFREDMIN (R155): Float minimum reduction. -/
  | vxVfredmin (g : BitVec 7) (s : BitVec 12)
  /-- VX_VFREDMAX (R155): Float maximum reduction. -/
  | vxVfredmax (g : BitVec 7) (s : BitVec 12)
  /-- VX_VSCAN (R156): Integer prefix sum across lanes. -/
  | vxVscan (g : BitVec 7) (s : BitVec 12)
  /-- VX_VFSCAN (R156): Float prefix sum across lanes. -/
  | vxVfscan (g : BitVec 7) (s : BitVec 12)
  /-- VX_VTOPK (R158): Ranks lanes by order key and returns the top k indices, mask and count. -/
  | vxVtopk (g : BitVec 7) (s : BitVec 12)
  /-- VX_STOPK (R161): Starts an asynchronous top-k over keys in the scratchpad, completed behind a ready tag. -/
  | vxStopk (g : BitVec 7) (s : BitVec 12)
  /-- MX_MMA (R179): Matrix product of up to four tile pairs into D, classical or recombined order. -/
  | mxMma (g : BitVec 7) (s : BitVec 12)
  /-- MX_MMAS (R185): 2:4 sparse matrix product with a metadata tile. -/
  | mxMmas (g : BitVec 7) (s : BitVec 12)
  /-- MX_MMAG (R186): Grouped matrix product with row offsets from mx.o. -/
  | mxMmag (g : BitVec 7) (s : BitVec 12)
  /-- MX_MZERO (R187): Makes a tile resident with a given shape and every element +0. -/
  | mxMzero (g : BitVec 7) (s : BitVec 12)
  /-- MX_MDRAIN (R187): Copies a tile into the drain buffer for row-by-row presentation on mx.row. -/
  | mxMdrain (g : BitVec 7) (s : BitVec 12)
  /-- TF_TLD (R171): Loads a tile from the source a shape record describes, with optional conversion and zero-pack expansion. -/
  | tfTld (g : BitVec 7) (s : BitVec 12)
  /-- TF_TBIND (R173): Binds a tile to pinned L2 lines of its source. -/
  | tfTbind (g : BitVec 7) (s : BitVec 12)
  /-- TF_TST (R175): Stores a resident tile as one store-queue entry. -/
  | tfTst (g : BitVec 7) (s : BitVec 12)
  /-- TF_TREL (R177): Makes a tile empty, unpinning or freeing its storage. -/
  | tfTrel (g : BitVec 7) (s : BitVec 12)
  /-- TF_TCVT (R176): Converts a resident tile to another format. -/
  | tfTcvt (g : BitVec 7) (s : BitVec 12)
  /-- DG_DQ (R245): Queries the digest record of one line. -/
  | dgDq (g : BitVec 7) (s : BitVec 12)
  /-- DG_DQR (R246): Ranks a run of lines by their digest records. -/
  | dgDqr (g : BitVec 7) (s : BitVec 12)
  /-- DG_DQZ (R245): Returns the empty-zero-map or valid-record predicate of a run of lines. -/
  | dgDqz (g : BitVec 7) (s : BitVec 12)
  /-- DG_DFENCE (R247): Orders earlier store-class operations before later digest queries. -/
  | dgDfence (g : BitVec 7) (s : BitVec 12)
  /-- DG_DREBUILD (R248): Enqueues a rebuild of every record of a region. -/
  | dgDrebuild (g : BitVec 7) (s : BitVec 12)
  /-- DG_DREGION (R249): Registers, replaces or removes a digest region, in the system context only. -/
  | dgDregion (g : BitVec 7) (s : BitVec 12)
  /-- SY_AADD (R220): Atomic add returning the old value. -/
  | syAadd (g : BitVec 7) (s : BitVec 12)
  /-- SY_AMIN (R220): Atomic signed minimum. -/
  | syAmin (g : BitVec 7) (s : BitVec 12)
  /-- SY_AMAX (R220): Atomic signed maximum. -/
  | syAmax (g : BitVec 7) (s : BitVec 12)
  /-- SY_AMINN (R220): Atomic unsigned minimum. -/
  | syAminn (g : BitVec 7) (s : BitVec 12)
  /-- SY_AMAXN (R220): Atomic unsigned maximum. -/
  | syAmaxn (g : BitVec 7) (s : BitVec 12)
  /-- SY_AAND (R220): Atomic and. -/
  | syAand (g : BitVec 7) (s : BitVec 12)
  /-- SY_AOR (R220): Atomic or. -/
  | syAor (g : BitVec 7) (s : BitVec 12)
  /-- SY_AXOR (R220): Atomic exclusive or. -/
  | syAxor (g : BitVec 7) (s : BitVec 12)
  /-- SY_ASWP (R220): Atomic swap. -/
  | syAswp (g : BitVec 7) (s : BitVec 12)
  /-- SY_ACAS (R220): Atomic compare and swap. -/
  | syAcas (g : BitVec 7) (s : BitVec 12)
  /-- SY_AINCB (R220): Atomic bounded increment. -/
  | syAincb (g : BitVec 7) (s : BitVec 12)
  /-- SY_REL (R217): Release: marker, signature snapshot and a store of the release word. -/
  | syRel (g : BitVec 7) (s : BitVec 12)
  /-- SY_ACQ (R218): Acquire: reads a word at home and drops lines named by its signature. -/
  | syAcq (g : BitVec 7) (s : BitVec 12)
  /-- SY_BGET (R224): Takes a barrier entry and returns a live handle. -/
  | syBget (g : BitVec 7) (s : BitVec 12)
  /-- SY_BARV (R225): Arrives at a barrier, carrying the signature. -/
  | syBarv (g : BitVec 7) (s : BitVec 12)
  /-- SY_BWAIT (R226): Timed barrier wait returning 0 on completion or 1 on timeout. -/
  | syBwait (g : BitVec 7) (s : BitVec 12)
  /-- SY_BFREE (R227): Frees a barrier entry. -/
  | syBfree (g : BitVec 7) (s : BitVec 12)
  /-- SY_SSTEP (R228): Ends the unit's computation step and holds until the communication step ends. -/
  | sySstep (g : BitVec 7) (s : BitVec 12)
  /-- SY_SPAWN (R232): Hands a start vector to the scheduler as a child launch. -/
  | sySpawn (g : BitVec 7) (s : BitVec 12)
  /-- CX_SEND (R230): Sends a vector to another core's circuit receive queue. -/
  | cxSend (g : BitVec 7) (s : BitVec 12)
  /-- CX_MCST (R231): Multicast store of a vector into the scratchpads of a range of cores. -/
  | cxMcst (g : BitVec 7) (s : BitVec 12)
  /-- KV_FORK (R284): Gives a destination sequence a copy of a source's page list. -/
  | kvFork (g : BitVec 7) (s : BitVec 12)
  /-- KV_FREE (R286): Frees a sequence, decrementing frame counts and pushing frames at 0. -/
  | kvFree (g : BitVec 7) (s : BitVec 12)
  /-- KV_PERM (R287): Reorders a beam group's page lists by parent indices. -/
  | kvPerm (g : BitVec 7) (s : BitVec 12)
  /-- KV_APP (R285): Appends tokens to a sequence, taking frames from the free stack. -/
  | kvApp (g : BitVec 7) (s : BitVec 12)
  /-- KV_MAP (R288): Returns the address of a token through the load queue. -/
  | kvMap (g : BitVec 7) (s : BitVec 12)
  /-- EP_HIST (R294): Counts routed choices, pushes loop counts and sends counts to Trestle. -/
  | epHist (g : BitVec 7) (s : BitVec 12)
  /-- EP_REP (R299): Looks up or checks a replica slot at Trestle. -/
  | epRep (g : BitVec 7) (s : BitVec 12)
  /-- EP_DONE (R301): Ends one dispatched row, optionally testing and setting its tag bit. -/
  | epDone (g : BitVec 7) (s : BitVec 12)
  /-- EP_GRAD (R304): Enqueues a merge of replica gradients into the master. -/
  | epGrad (g : BitVec 7) (s : BitVec 12)
  /-- XK_KICK (R309): Kicks a transform ring after checking its descriptor. -/
  | xkKick (g : BitVec 7) (s : BitVec 12)
  /-- CR_RD (R80): Reads a control register into cr.r. -/
  | crRd (g : BitVec 7) (s : BitVec 12)
  /-- CR_WR (R80): Writes the writable fields of a control register with no row of its own and returns the old value. -/
  | crWr (g : BitVec 7) (s : BitVec 12)
  /-- CR_TLBINV (R81): Invalidates translations of the current ASID, locally or across the package. -/
  | crTlbinv (g : BitVec 7) (s : BitVec 12)
  /-- CR_CINV (R82): Writes back and invalidates cache-bank lines named by a byte range. -/
  | crCinv (g : BitVec 7) (s : BitVec 12)
  /-- CR_TRACE (R83): Records a marker, starts or stops the trace. -/
  | crTrace (g : BitVec 7) (s : BitVec 12)
  /-- REMWAYS_WRITE (R199): Write of REMWAYS that changes the die's remote-line ways and drops unpinned lines of ways leaving the role. -/
  | remwaysWrite (die : Nat) (v : BitVec 64)
  /-- DIGBASE_WRITE (R233): Write of DIGBASE that enables digests or, clearing EN, removes every region. -/
  | digbaseWrite (v : BitVec 64)
  /-- NOP (R45): Control no-operation; an empty slot. -/
  | nop (cond : BitVec 6) (inv : BitVec 1) (rest : BitVec 18)
  /-- BR (R86): Conditional relative branch, optionally popping the innermost loop. -/
  | br (cond : BitVec 6) (inv : BitVec 1) (pop : BitVec 1) (off : BitVec 17)
  /-- BRX (R86): Conditional branch to an address in a scalar register. -/
  | brx (cond : BitVec 6) (inv : BitVec 1) (pop : BitVec 1) (reg : BitVec 6)
  /-- CALL (R86): Conditional relative call writing the return address to s63. -/
  | call (cond : BitVec 6) (inv : BitVec 1) (off : BitVec 18)
  /-- RET (R86): Conditional return to the address in s63. -/
  | ret (cond : BitVec 6) (inv : BitVec 1)
  /-- LOOP (R87): Pushes a hardware loop with its count from a scalar register. -/
  | loop (reg : BitVec 6) (fin : BitVec 12)
  /-- LOOPQ (R87): Pushes a hardware loop with its count popped from the count queue. -/
  | loopq (fin : BitVec 12)
  /-- HALT (R90): Ends the unit, discarding or handing over in-flight results and passing leases. -/
  | halt (cond : BitVec 6) (inv : BitVec 1)
  /-- TRAP (R91): Raises TRAP_INSTR, resuming after the bundle. -/
  | trap (cond : BitVec 6) (inv : BitVec 1) (code : BitVec 16)
  /-- RFT (R272): Returns from a handler, restoring the shadow bank and reissuing from the resume slot. -/
  | rft
  /-- WAKE (R33): Starts the other sequencer as a new unit of the launch. -/
  | wake (cond : BitVec 6) (inv : BitVec 1) (off : BitVec 18)
  /-- CEDE (R19): Hands the named leased units to the other sequencer. -/
  | cede (mask : BitVec 7)
  /-- WAIT (R94): Holds until named tiles are ready, stores performed or load data landed. -/
  | wait (ld : BitVec 1) (st : BitVec 1) (tiles : BitVec 16)
  /-- BRK (R91): Raises BREAKPOINT, resuming after the bundle. -/
  | brk (cond : BitVec 6) (inv : BitVec 1) (code : BitVec 16)
  /-- BUNDLE_ISSUE (R65): Issue of one bundle: decode checks, slot reads and in-order commits, completing one sequencer cycle. -/
  | bundleIssue (core q : Nat)
  /-- FIXED_LATENCY_RESULT (R70): A fixed-latency result is presented on its result port at its visibility cycle. -/
  | fixedLatencyResult (core q : Nat) (port : ResPort)
  /-- LOAD_PERFORMED (R101): A load-class operation reads its data at the place where it is performed. -/
  | loadPerformed (core q : Nat)
  /-- LOAD_DATA_ARRIVAL (R97): Data of a load-queue entry arrives in the landing buffer. -/
  | loadDataArrival (core q idx : Nat)
  /-- FREEZE_END (R41): A frozen bundle issues in the clock after its awaited data or room arrives. -/
  | freezeEnd (core q : Nat)
  /-- FLAG_WAIT_END (R41): A flag-wait ends in the clock after its awaited tag or condition is set. -/
  | flagWaitEnd (core q : Nat)
  /-- TLB_WALK (R203): A table walk completes after a TLB miss, filling the TLB or failing. -/
  | tlbWalk (core q : Nat)
  /-- MERGE (R239): A store, atomic write, release, host or engine write merges at the home slice and updates the digest record. -/
  | merge (core q : Nat)
  /-- RECORD_READ (R115): A shape record is read through the record cache, filling it on a miss. -/
  | recordRead (core q : Nat)
  /-- RECORD_CACHE_EMPTY (R123): Once every access ahead of an ag.rfence is performed, the core's record cache is emptied. -/
  | recordCacheEmpty (core q : Nat)
  /-- TILE_OP_COMPLETE (R167): An asynchronous tile operation completes, setting ready tags, dropping read claims and ORing flags. -/
  | tileOpComplete (core : Nat) (tf : Bool)
  /-- TBIND_PINNED (R173): A bind has pinned its last line, setting the ready tag and delivering its status. -/
  | tbindPinned (core q : Nat)
  /-- STOPK_COMPLETE (R161): stopk writes its output records and sets its ready tag. -/
  | stopkComplete (core : Nat)
  /-- MDRAIN_ROW (R187): One drained row becomes visible on mx.row in its cycle. -/
  | mdrainRow (core : Nat)
  /-- RELEASE_PERFORM (R217): A release writes its signature and value at the home slice. -/
  | releasePerform (core q : Nat)
  /-- ACQUIRE_PERFORM (R218): An acquire reads the word and signature at home and drops matching lines. -/
  | acquirePerform (core q : Nat)
  /-- ATOMIC_APPLY (R221): An atomic reads and writes its word indivisibly at its place. -/
  | atomicApply (core q : Nat)
  /-- REMOTE_ATOMIC_BATCH (R222): In the last clock of a revolution, a bank applies its batch of remote atomics in slot order. -/
  | remoteAtomicBatch (core : Nat)
  /-- BARRIER_ARRIVAL (R225): An arrival is counted at the barrier table, or refused for a stale handle. -/
  | barrierArrival (core q : Nat)
  /-- BWAIT_LIMIT_EXPIRY (R226): A barrier wait's clock limit expires and the wait returns 1. -/
  | bwaitLimitExpiry (core q : Nat)
  /-- COMMUNICATION_STEP_BEGIN (R228): At a revolution boundary with every group member waiting or complete, the communication step begins. -/
  | communicationStepBegin (launch : Nat)
  /-- COMPUTATION_STEP_BEGIN (R228): When all sends and accesses of the step have landed, every member's wait ends together. -/
  | computationStepBegin (launch : Nat)
  /-- CX_SEND_DEPART (R230): A buffered vector departs in its pair's slot or is held for the next revolution. -/
  | cxSendDepart (core : Nat)
  /-- CX_VECTOR_ARRIVE (R230): A vector enters the target's circuit receive queue. -/
  | cxVectorArrive (core : Nat)
  /-- CX_MCST_LAND (R231): A multicast store lands in every target scratchpad. -/
  | cxMcstLand (core : Nat)
  /-- CIRCUIT_QUEUE_ENLARGE (R42): After 1,024 blocked clocks, the smallest full receive queue is enlarged from the pool. -/
  | circuitQueueEnlarge (launch : Nat)
  /-- TRAP_ENTRY (R269): A trap moves the sequencer into handler mode, shadowing per-sequencer units. -/
  | trapEntry (core q : Nat) (cause : BitVec 6) (slot : Nat) (faddr : BitVec 64)
  /-- DEFERRED_TRAP (R268): A pending deferred cause is taken at the sequencer's next boundary. -/
  | deferredTrap (core q : Nat)
  /-- CANCEL (R36): A level is cancelled: unstarted launches removed and CANCEL delivered to running units. -/
  | cancel (level : Level) (id : Nat)
  /-- HANDLER_BUDGET_EXPIRY (R36): A CANCEL or PREEMPT handler exhausts its bundle or clock budget and the unit is stopped. -/
  | handlerBudgetExpiry (core q : Nat)
  /-- UNIT_COMPLETE (R28): A halted or stopped unit completes once its stores are performed and tags set. -/
  | unitComplete (core q : Nat)
  /-- PHASE_RECORD_POST (R264): Once the checkpoint release is performed, the phase completion record is posted. -/
  | phaseRecordPost (phase : Nat)
  /-- START_VECTOR (R251): The host writes a start vector, which is accepted into a queue or rejected with a launch error. -/
  | startVector (v : BitVec 512)
  /-- CHILD_LAUNCH_ACCEPT (R232): The scheduler accepts or rejects a spawned child start vector. -/
  | childLaunchAccept (core q : Nat)
  /-- SCHEDULER_SELECT (R254): The scheduler serves the candidate of highest priority and places it when bays are free. -/
  | schedulerSelect (die : Nat)
  /-- TOKEN_ACCRUAL (R255): A waiting candidate gains one token every 65,536 clocks. -/
  | tokenAccrual (die : Nat)
  /-- DRAIN_REDECISION (R258): A drained victim still running after D µs is decided again. -/
  | drainRedecision (launch : Nat)
  /-- SAFE_POINT_STOP (R260): Under a checkpoint request, a unit stops before issuing a safe-point bundle. -/
  | safePointStop (core q : Nat)
  /-- CHECKPOINT_WITHDRAW (R260): A checkpoint request not met within 2 × D µs is withdrawn. -/
  | checkpointWithdraw (launch : Nat)
  /-- CHECKPOINT_SAVE (R261): With every unit stopped, in-flight work finishes and bay contexts are saved. -/
  | checkpointSave (launch : Nat)
  /-- LAUNCH_RESTORE (R263): A saved launch is restored on bays of its die and resumes at its saved cycles. -/
  | launchRestore (launch : Nat)
  /-- XFORM_REQUEST (R310): A transform engine runs one request of a kicked ring. -/
  | xformRequest (asid ring : Nat)
  /-- XFORM_COMPLETION (R313): The engine writes a request's completion record, releases SEQ and advances HEAD. -/
  | xformCompletion (asid ring : Nat)
  /-- HIST_COUNT_ARRIVE (R294): Counts sent by ep.hist are added to Trestle's load counters. -/
  | histCountArrive
  /-- TRESTLE_WINDOW_END (R297): At the end of a window Trestle snapshots counts and forms a plan or discards it. -/
  | trestleWindowEnd
  /-- TRESTLE_PUBLISH (R298): When all copies and verifies of a plan end, Trestle publishes it or abandons it. -/
  | trestlePublish
  /-- EP_REP_SERVE (R299): An ep.rep is served at Trestle, dispatching, checking or redirecting a row. -/
  | epRepServe (core q : Nat)
  /-- SLOT_RETIRE (R303): A retiring slot becomes absent when its in-flight count reaches 0. -/
  | slotRetire (pair slot : Nat)
  /-- EP_GRAD_MERGE (R304): With every in-flight count 0, replica gradients are merged into the master. -/
  | epGradMerge (core q : Nat)
  /-- DREBUILD_PERFORM (R248): Each line of a region is rebuilt from home, setting VALID. -/
  | drebuildPerform (core q : Nat)
  /-- LINK_ROW_RECEIVE (R319): A link receiver accepts, discards or asks for resend of a row. -/
  | linkRowReceive (link : Nat) (row : Nat) (crcOk : Bool)
  /-- LINK_DOWN (R319): Retries are spent and the link goes down, poisoning loads and raising LINK. -/
  | linkDown (link : Nat)
  /-- ROUTER_DRAIN (R317): Every 65,536 clocks in large configurations, routers shift buffered packets one hop. -/
  | routerDrain
  /-- THROTTLE_STEP_DOWN (R338): Over power or temperature, a die's clock steps down by 0.25 GHz. -/
  | throttleStepDown (die : Nat)
  /-- THROTTLE_STEP_UP (R338): After the cause has cleared for 1 ms, the clock steps back up. -/
  | throttleStepUp (die : Nat)
  /-- THERMAL_STOP (R338): A die at 115 °C stops its units as a warm reset does and reports it. -/
  | thermalStop (die : Nat)
  /-- COLD_RESET (R335): Power-good starts the boot sequence with signature verification. -/
  | coldReset (verified : Bool) (offer : BitVec 256)
  /-- WARM_RESET (R335): A host-written reset stops every unit, fails every launch and reboots. -/
  | warmReset (verified : Bool) (offer : BitVec 256)
  /-- ATTESTATION_REQUEST (R337): A nonce request returns a signed 160-byte report. -/
  | attestationRequest (nonce : BitVec 128)
  /-- FEATACC_WRITE (R336): The driver's first feature choice after reset binds. -/
  | feataccWrite (v : BitVec 256)
  /-- IMAGE_LOAD (R330): The host loads a Grenium image into an address space and receives a handle. -/
  | imageLoad (handle asid : Nat) (va : BitVec 64) (bytes : List Byte)
  /-- IMAGE_UNLOAD (R333): The host unloads an image that has no queued or running launch. -/
  | imageUnload (handle : Nat)
  /-- HOST_WRITE (R209): A host load or store through the Hasp link. -/
  | hostWrite (asid : Nat) (va : BitVec 64) (acc : HostAccess)
  /-- HOST_RELEASE (R219): A host release at system scope with an all-ones signature. -/
  | hostRelease (asid : Nat) (va : BitVec 64) (v : BitVec 64)
  /-- HOST_TLB_INVALIDATE (R204): The host invalidates translations in matching sequencers. -/
  | hostTlbInvalidate (asid : Nat) (all : Bool) (va : BitVec 64)
  /-- TCFG_WRITE (R295): Host write of TCFG; setting EN starts the first window. -/
  | tcfgWrite (v : BitVec 64)
  /-- TRES_WRITE (R295): Host write of the residency-way counts, each field checked against REMWAYS. -/
  | tresWrite (v : BitVec 64)
  /-- HOST_REGISTER_WRITE (R295): Host write of a Hasp-side register with no row of its own. -/
  | hostRegisterWrite (reg : HostReg) (v : BitVec 64)
  /-- SCRATCHPAD_STORE_PERFORMED (R101): A store to the scratchpad is performed when it writes its bank, in trigger order among the bank's own accesses. -/
  | scratchpadStorePerformed (core q : Nat)
  /-- BARRIER_ENTRY_FREE (R227): A sy.bfree is performed at the die's barrier table, freeing the entry and making its pending waits return 1. -/
  | barrierEntryFree (core q : Nat)
  /-- SOFT_ERROR (R205): A correctable or uncorrectable error arises of itself in a cache bank, scratchpad, L2, digest cache, HBM or datapath, leading to correction, refetch, poison or a wrong value. -/
  | softError (site : ErrSite) (correctable : Bool)
  deriving DecidableEq, Repr

end Sys2Proof
end

