-- ==== Sys2Proof/WellFormed.lean ====
section
/-! DEFINITION. Well-formed instructions: a plain move is none of the moves that have a row of their own,
and a step names units that the part has (R9, R13). -/
namespace Sys2Proof

/-- The destination addresses that start a unit (R59). -/
def isTrigger (d : Nat) : Bool :=
  (0x100 ≤ d && d ≤ 0x118) ||
  (0x140 ≤ d && d ≤ 0x158) ||
  (0x180 ≤ d && d ≤ 0x187) ||
  (0x1A0 ≤ d && d ≤ 0x1A9) ||
  (0x1C0 ≤ d && d ≤ 0x1DA) ||
  (0x200 ≤ d && d ≤ 0x244) ||
  (0x300 ≤ d && d ≤ 0x309) ||
  (0x340 ≤ d && d ≤ 0x345) ||
  (0x360 ≤ d && d ≤ 0x374) ||
  (0x3A0 ≤ d && d ≤ 0x3A9) ||
  (0x3C0 ≤ d && d ≤ 0x3C4)

/-- The sources that pop a queue (R56). -/
def isPop (s : BitVec 12) : Bool := s == 0x0A9 || s == 0x0AA || s == 0x0AC

/-- A destination of a plain move: no trigger, and not the count queue. -/
def plainDest (d : BitVec 11) : Bool := !isTrigger d.toNat && d != 0x0B4

/-- A core of the package, and a sequencer of it (R9, R11). -/
def coreOk (c : Nat) : Bool := decide (c < Config.cores)
def seqOk (c q : Nat) : Bool := coreOk c && decide (q < 2)
def dieOk (d : Nat) : Bool := decide (d < 4)
def asidOk (a : Nat) : Bool := decide (a < 65536)

/-- Well-formed. -/
def Instr.wf : Instr → Bool
  | .move _ d s => plainDest d && !isPop s
  | .lqPop _ d => plainDest d
  | .cxPop _ d => plainDest d
  | .cqPop _ d => plainDest d
  | .wideImmediateMove _ _ => true
  | .header _ _ _ _ _ _ _ => true
  | .cqPush _ _ => true
  | .iaAdd _ _ _ => true
  | .iaSub _ _ _ => true
  | .iaAnd _ _ _ => true
  | .iaOr _ _ _ => true
  | .iaXor _ _ _ => true
  | .iaAndn _ _ _ => true
  | .iaShl _ _ _ => true
  | .iaShr _ _ _ => true
  | .iaSar _ _ _ => true
  | .iaRotr _ _ _ => true
  | .iaMin _ _ _ => true
  | .iaMax _ _ _ => true
  | .iaMinn _ _ _ => true
  | .iaMaxn _ _ _ => true
  | .iaCmpeq _ _ _ => true
  | .iaCmpne _ _ _ => true
  | .iaCmplt _ _ _ => true
  | .iaCmple _ _ _ => true
  | .iaCmpltn _ _ _ => true
  | .iaCmplen _ _ _ => true
  | .iaClz _ _ _ => true
  | .iaCtz _ _ _ => true
  | .iaPopc _ _ _ => true
  | .iaSext _ _ _ => true
  | .iaZext _ _ _ => true
  | .imMul _ _ => true
  | .imMulhi _ _ => true
  | .imMulhn _ _ => true
  | .imDiv _ _ => true
  | .imDivn _ _ => true
  | .imRem _ _ => true
  | .imRemn _ _ => true
  | .imMad _ _ => true
  | .plPand _ _ => true
  | .plPor _ _ => true
  | .plPxor _ _ => true
  | .plPandn _ _ => true
  | .plPnot _ _ => true
  | .plPall _ _ => true
  | .plPany _ _ => true
  | .plPcnt _ _ => true
  | .plPfirst _ _ => true
  | .plPlt _ _ => true
  | .lqLdb _ _ => true
  | .lqLdbs _ _ => true
  | .lqLdh _ _ => true
  | .lqLdhs _ _ => true
  | .lqLdw _ _ => true
  | .lqLdws _ _ => true
  | .lqLdd _ _ => true
  | .lqVld _ _ => true
  | .lqVldbf _ _ => true
  | .lqVldhf _ _ => true
  | .lqVldb _ _ => true
  | .lqGth _ _ => true
  | .sqStb _ _ => true
  | .sqSth _ _ => true
  | .sqStw _ _ => true
  | .sqStd _ _ => true
  | .sqVst _ _ => true
  | .sqVstbf _ _ => true
  | .sqVsthf _ _ => true
  | .sqSct _ _ => true
  | .lqMark _ _ => true
  | .agSld _ _ => true
  | .agSst _ _ => true
  | .agSrld _ _ => true
  | .agSset _ _ => true
  | .agSadv _ _ => true
  | .agRfence _ _ => true
  | .vxVadd _ _ => true
  | .vxVsub _ _ => true
  | .vxVmul _ _ => true
  | .vxVmulhi _ _ => true
  | .vxVmulhn _ _ => true
  | .vxVmin _ _ => true
  | .vxVmax _ _ => true
  | .vxVminn _ _ => true
  | .vxVmaxn _ _ => true
  | .vxVand _ _ => true
  | .vxVor _ _ => true
  | .vxVxor _ _ => true
  | .vxVandn _ _ => true
  | .vxVshl _ _ => true
  | .vxVshr _ _ => true
  | .vxVsar _ _ => true
  | .vxVabs _ _ => true
  | .vxVneg _ _ => true
  | .vxVclz _ _ => true
  | .vxVpopc _ _ => true
  | .vxVcmpeq _ _ => true
  | .vxVcmpne _ _ => true
  | .vxVcmplt _ _ => true
  | .vxVcmple _ _ => true
  | .vxVcmpltn _ _ => true
  | .vxVcmplen _ _ => true
  | .vxVfadd _ _ => true
  | .vxVfsub _ _ => true
  | .vxVfmul _ _ => true
  | .vxVfma _ _ => true
  | .vxVfmin _ _ => true
  | .vxVfmax _ _ => true
  | .vxVfabs _ _ => true
  | .vxVfneg _ _ => true
  | .vxVfrcp _ _ => true
  | .vxVfrsqrt _ _ => true
  | .vxVfsqrt _ _ => true
  | .vxVfexp2 _ _ => true
  | .vxVflog2 _ _ => true
  | .vxVfcmpeq _ _ => true
  | .vxVfcmplt _ _ => true
  | .vxVfcmple _ _ => true
  | .vxVfcmpun _ _ => true
  | .vxVcvtif _ _ => true
  | .vxVcvtfi _ _ => true
  | .vxVcvtfbf _ _ => true
  | .vxVcvtbff _ _ => true
  | .vxVcvtfh _ _ => true
  | .vxVcvthf _ _ => true
  | .vxVqnt2 _ _ => true
  | .vxVqnt4 _ _ => true
  | .vxVqnt7 _ _ => true
  | .vxVdeq2 _ _ => true
  | .vxVdeq4 _ _ => true
  | .vxVdeq7 _ _ => true
  | .vxVperm _ _ => true
  | .vxVbcast _ _ => true
  | .vxVslide _ _ => true
  | .vxVget _ _ => true
  | .vxVredadd _ _ => true
  | .vxVredmin _ _ => true
  | .vxVredmax _ _ => true
  | .vxVfredadd _ _ => true
  | .vxVfredmin _ _ => true
  | .vxVfredmax _ _ => true
  | .vxVscan _ _ => true
  | .vxVfscan _ _ => true
  | .vxVtopk _ _ => true
  | .vxStopk _ _ => true
  | .mxMma _ _ => true
  | .mxMmas _ _ => true
  | .mxMmag _ _ => true
  | .mxMzero _ _ => true
  | .mxMdrain _ _ => true
  | .tfTld _ _ => true
  | .tfTbind _ _ => true
  | .tfTst _ _ => true
  | .tfTrel _ _ => true
  | .tfTcvt _ _ => true
  | .dgDq _ _ => true
  | .dgDqr _ _ => true
  | .dgDqz _ _ => true
  | .dgDfence _ _ => true
  | .dgDrebuild _ _ => true
  | .dgDregion _ _ => true
  | .syAadd _ _ => true
  | .syAmin _ _ => true
  | .syAmax _ _ => true
  | .syAminn _ _ => true
  | .syAmaxn _ _ => true
  | .syAand _ _ => true
  | .syAor _ _ => true
  | .syAxor _ _ => true
  | .syAswp _ _ => true
  | .syAcas _ _ => true
  | .syAincb _ _ => true
  | .syRel _ _ => true
  | .syAcq _ _ => true
  | .syBget _ _ => true
  | .syBarv _ _ => true
  | .syBwait _ _ => true
  | .syBfree _ _ => true
  | .sySstep _ _ => true
  | .sySpawn _ _ => true
  | .cxSend _ _ => true
  | .cxMcst _ _ => true
  | .kvFork _ _ => true
  | .kvFree _ _ => true
  | .kvPerm _ _ => true
  | .kvApp _ _ => true
  | .kvMap _ _ => true
  | .epHist _ _ => true
  | .epRep _ _ => true
  | .epDone _ _ => true
  | .epGrad _ _ => true
  | .xkKick _ _ => true
  | .crRd _ _ => true
  | .crWr _ _ => true
  | .crTlbinv _ _ => true
  | .crCinv _ _ => true
  | .crTrace _ _ => true
  | .remwaysWrite die _ => dieOk die
  | .digbaseWrite _ => true
  | .nop _ _ _ => true
  | .br _ _ _ _ => true
  | .brx _ _ _ _ => true
  | .call _ _ _ => true
  | .ret _ _ => true
  | .loop _ _ => true
  | .loopq _ => true
  | .halt _ _ => true
  | .trap _ _ _ => true
  | .rft => true
  | .wake _ _ _ => true
  | .cede _ => true
  | .wait _ _ _ => true
  | .brk _ _ _ => true
  | .bundleIssue core q => seqOk core q
  | .fixedLatencyResult core q _ => seqOk core q
  | .loadPerformed core q => seqOk core q
  | .loadDataArrival core q _ => seqOk core q
  | .freezeEnd core q => seqOk core q
  | .flagWaitEnd core q => seqOk core q
  | .tlbWalk core q => seqOk core q
  | .merge core q => seqOk core q
  | .recordRead core q => seqOk core q
  | .recordCacheEmpty core q => seqOk core q
  | .tileOpComplete core _ => coreOk core
  | .tbindPinned core q => seqOk core q
  | .stopkComplete core => coreOk core
  | .mdrainRow core => coreOk core
  | .releasePerform core q => seqOk core q
  | .acquirePerform core q => seqOk core q
  | .atomicApply core q => seqOk core q
  | .remoteAtomicBatch core => coreOk core
  | .barrierArrival core q => seqOk core q
  | .bwaitLimitExpiry core q => seqOk core q
  | .communicationStepBegin _ => true
  | .computationStepBegin _ => true
  | .cxSendDepart core => coreOk core
  | .cxVectorArrive core => coreOk core
  | .cxMcstLand core => coreOk core
  | .circuitQueueEnlarge _ => true
  | .trapEntry core q _ slot _ => seqOk core q && decide (slot < 4)
  | .deferredTrap core q => seqOk core q
  | .cancel _ _ => true
  | .handlerBudgetExpiry core q => seqOk core q
  | .unitComplete core q => seqOk core q
  | .phaseRecordPost _ => true
  | .startVector _ => true
  | .childLaunchAccept core q => seqOk core q
  | .schedulerSelect die => dieOk die
  | .tokenAccrual die => dieOk die
  | .drainRedecision _ => true
  | .safePointStop core q => seqOk core q
  | .checkpointWithdraw _ => true
  | .checkpointSave _ => true
  | .launchRestore _ => true
  | .xformRequest asid ring => asidOk asid && decide (ring < 16)
  | .xformCompletion asid ring => asidOk asid && decide (ring < 16)
  | .histCountArrive => true
  | .trestleWindowEnd => true
  | .trestlePublish => true
  | .epRepServe core q => seqOk core q
  | .slotRetire _ _ => true
  | .epGradMerge core q => seqOk core q
  | .drebuildPerform core q => seqOk core q
  | .linkRowReceive _ _ _ => true
  | .linkDown _ => true
  | .routerDrain => true
  | .throttleStepDown die => dieOk die
  | .throttleStepUp die => dieOk die
  | .thermalStop die => dieOk die
  | .coldReset _ _ => true
  | .warmReset _ _ => true
  | .attestationRequest _ => true
  | .feataccWrite _ => true
  | .imageLoad _ asid _ _ => asidOk asid
  | .imageUnload _ => true
  | .hostWrite asid _ _ => decide (asid ≤ 65536)
  | .hostRelease asid _ _ => decide (asid ≤ 65536)
  | .hostTlbInvalidate asid _ _ => asidOk asid
  | .tcfgWrite _ => true
  | .tresWrite _ => true
  | .hostRegisterWrite _ _ => true
  | .scratchpadStorePerformed core q => seqOk core q
  | .barrierEntryFree core q => seqOk core q
  | .softError _ _ => true

end Sys2Proof
end

