-- ==== Sys2Proof/Decode.lean ====
section
/-! DEFINITION. The decoder of slot words (R43 to R51, R59, R84), total on every word, and the encoder.

A trigger-port destination decides first, then `cq.push`, then a pop source (R46, R56 to R59).  Fields
that R84 leaves unlisted are ignored. -/
namespace Sys2Proof

/-- A word that is no instruction of its slot, and why (R44, R49, R51). -/
inductive DecodeError where
  /-- Format 10 (R44). -/
  | format10
  /-- Format 11 in slot 1 or 2 (R44). -/
  | format11
  /-- A header whose bits [25:24] are not 00 (R49). -/
  | headerBits
  /-- A control code from 14 to 31 (R51). -/
  | controlCode
  deriving DecidableEq, Repr

/-! ### Triggers (R59) -/

/-- The operations of ia0 and ia1 by the low six bits of the trigger address (R59). -/
def iaOf (g : BitVec 7) (u : BitVec 1) (s : BitVec 12) (op : Nat) : Option Instr :=
  match op with
  | 0 => some (.iaAdd g u s)
  | 1 => some (.iaSub g u s)
  | 2 => some (.iaAnd g u s)
  | 3 => some (.iaOr g u s)
  | 4 => some (.iaXor g u s)
  | 5 => some (.iaAndn g u s)
  | 6 => some (.iaShl g u s)
  | 7 => some (.iaShr g u s)
  | 8 => some (.iaSar g u s)
  | 9 => some (.iaRotr g u s)
  | 10 => some (.iaMin g u s)
  | 11 => some (.iaMax g u s)
  | 12 => some (.iaMinn g u s)
  | 13 => some (.iaMaxn g u s)
  | 14 => some (.iaCmpeq g u s)
  | 15 => some (.iaCmpne g u s)
  | 16 => some (.iaCmplt g u s)
  | 17 => some (.iaCmple g u s)
  | 18 => some (.iaCmpltn g u s)
  | 19 => some (.iaCmplen g u s)
  | 20 => some (.iaClz g u s)
  | 21 => some (.iaCtz g u s)
  | 22 => some (.iaPopc g u s)
  | 23 => some (.iaSext g u s)
  | 24 => some (.iaZext g u s)
  | _ => none

/-- The triggers 0x180 to 0x19F (R59). -/
def triggers180 (g : BitVec 7) (s : BitVec 12) (d : Nat) : Option Instr :=
  match d with
  | 0x180 => some (.imMul g s)
  | 0x181 => some (.imMulhi g s)
  | 0x182 => some (.imMulhn g s)
  | 0x183 => some (.imDiv g s)
  | 0x184 => some (.imDivn g s)
  | 0x185 => some (.imRem g s)
  | 0x186 => some (.imRemn g s)
  | 0x187 => some (.imMad g s)
  | _ => none

/-- The triggers 0x1A0 to 0x1BF (R59). -/
def triggers1A0 (g : BitVec 7) (s : BitVec 12) (d : Nat) : Option Instr :=
  match d with
  | 0x1A0 => some (.plPand g s)
  | 0x1A1 => some (.plPor g s)
  | 0x1A2 => some (.plPxor g s)
  | 0x1A3 => some (.plPandn g s)
  | 0x1A4 => some (.plPnot g s)
  | 0x1A5 => some (.plPall g s)
  | 0x1A6 => some (.plPany g s)
  | 0x1A7 => some (.plPcnt g s)
  | 0x1A8 => some (.plPfirst g s)
  | 0x1A9 => some (.plPlt g s)
  | _ => none

/-- The triggers 0x1C0 to 0x1DF (R59). -/
def triggers1C0 (g : BitVec 7) (s : BitVec 12) (d : Nat) : Option Instr :=
  match d with
  | 0x1C0 => some (.lqLdb g s)
  | 0x1C1 => some (.lqLdbs g s)
  | 0x1C2 => some (.lqLdh g s)
  | 0x1C3 => some (.lqLdhs g s)
  | 0x1C4 => some (.lqLdw g s)
  | 0x1C5 => some (.lqLdws g s)
  | 0x1C6 => some (.lqLdd g s)
  | 0x1C7 => some (.lqVld g s)
  | 0x1C8 => some (.lqVldbf g s)
  | 0x1C9 => some (.lqVldhf g s)
  | 0x1CA => some (.lqVldb g s)
  | 0x1CB => some (.lqGth g s)
  | 0x1CC => some (.sqStb g s)
  | 0x1CD => some (.sqSth g s)
  | 0x1CE => some (.sqStw g s)
  | 0x1CF => some (.sqStd g s)
  | 0x1D0 => some (.sqVst g s)
  | 0x1D1 => some (.sqVstbf g s)
  | 0x1D2 => some (.sqVsthf g s)
  | 0x1D3 => some (.sqSct g s)
  | 0x1D4 => some (.lqMark g s)
  | 0x1D5 => some (.agSld g s)
  | 0x1D6 => some (.agSst g s)
  | 0x1D7 => some (.agSrld g s)
  | 0x1D8 => some (.agSset g s)
  | 0x1D9 => some (.agSadv g s)
  | 0x1DA => some (.agRfence g s)
  | _ => none

/-- The triggers 0x200 to 0x21F (R59). -/
def triggers200 (g : BitVec 7) (s : BitVec 12) (d : Nat) : Option Instr :=
  match d with
  | 0x200 => some (.vxVadd g s)
  | 0x201 => some (.vxVsub g s)
  | 0x202 => some (.vxVmul g s)
  | 0x203 => some (.vxVmulhi g s)
  | 0x204 => some (.vxVmulhn g s)
  | 0x205 => some (.vxVmin g s)
  | 0x206 => some (.vxVmax g s)
  | 0x207 => some (.vxVminn g s)
  | 0x208 => some (.vxVmaxn g s)
  | 0x209 => some (.vxVand g s)
  | 0x20A => some (.vxVor g s)
  | 0x20B => some (.vxVxor g s)
  | 0x20C => some (.vxVandn g s)
  | 0x20D => some (.vxVshl g s)
  | 0x20E => some (.vxVshr g s)
  | 0x20F => some (.vxVsar g s)
  | 0x210 => some (.vxVabs g s)
  | 0x211 => some (.vxVneg g s)
  | 0x212 => some (.vxVclz g s)
  | 0x213 => some (.vxVpopc g s)
  | 0x214 => some (.vxVcmpeq g s)
  | 0x215 => some (.vxVcmpne g s)
  | 0x216 => some (.vxVcmplt g s)
  | 0x217 => some (.vxVcmple g s)
  | 0x218 => some (.vxVcmpltn g s)
  | 0x219 => some (.vxVcmplen g s)
  | 0x21A => some (.vxVfadd g s)
  | 0x21B => some (.vxVfsub g s)
  | 0x21C => some (.vxVfmul g s)
  | 0x21D => some (.vxVfma g s)
  | 0x21E => some (.vxVfmin g s)
  | 0x21F => some (.vxVfmax g s)
  | _ => none

/-- The triggers 0x220 to 0x23F (R59). -/
def triggers220 (g : BitVec 7) (s : BitVec 12) (d : Nat) : Option Instr :=
  match d with
  | 0x220 => some (.vxVfabs g s)
  | 0x221 => some (.vxVfneg g s)
  | 0x222 => some (.vxVfrcp g s)
  | 0x223 => some (.vxVfrsqrt g s)
  | 0x224 => some (.vxVfsqrt g s)
  | 0x225 => some (.vxVfexp2 g s)
  | 0x226 => some (.vxVflog2 g s)
  | 0x227 => some (.vxVfcmpeq g s)
  | 0x228 => some (.vxVfcmplt g s)
  | 0x229 => some (.vxVfcmple g s)
  | 0x22A => some (.vxVfcmpun g s)
  | 0x22B => some (.vxVcvtif g s)
  | 0x22C => some (.vxVcvtfi g s)
  | 0x22D => some (.vxVcvtfbf g s)
  | 0x22E => some (.vxVcvtbff g s)
  | 0x22F => some (.vxVcvtfh g s)
  | 0x230 => some (.vxVcvthf g s)
  | 0x231 => some (.vxVqnt2 g s)
  | 0x232 => some (.vxVqnt4 g s)
  | 0x233 => some (.vxVqnt7 g s)
  | 0x234 => some (.vxVdeq2 g s)
  | 0x235 => some (.vxVdeq4 g s)
  | 0x236 => some (.vxVdeq7 g s)
  | 0x237 => some (.vxVperm g s)
  | 0x238 => some (.vxVbcast g s)
  | 0x239 => some (.vxVslide g s)
  | 0x23A => some (.vxVget g s)
  | 0x23B => some (.vxVredadd g s)
  | 0x23C => some (.vxVredmin g s)
  | 0x23D => some (.vxVredmax g s)
  | 0x23E => some (.vxVfredadd g s)
  | 0x23F => some (.vxVfredmin g s)
  | _ => none

/-- The triggers 0x240 to 0x25F (R59). -/
def triggers240 (g : BitVec 7) (s : BitVec 12) (d : Nat) : Option Instr :=
  match d with
  | 0x240 => some (.vxVfredmax g s)
  | 0x241 => some (.vxVscan g s)
  | 0x242 => some (.vxVfscan g s)
  | 0x243 => some (.vxVtopk g s)
  | 0x244 => some (.vxStopk g s)
  | _ => none

/-- The triggers 0x300 to 0x31F (R59). -/
def triggers300 (g : BitVec 7) (s : BitVec 12) (d : Nat) : Option Instr :=
  match d with
  | 0x300 => some (.mxMma g s)
  | 0x301 => some (.mxMmas g s)
  | 0x302 => some (.mxMmag g s)
  | 0x303 => some (.mxMzero g s)
  | 0x304 => some (.mxMdrain g s)
  | 0x305 => some (.tfTld g s)
  | 0x306 => some (.tfTbind g s)
  | 0x307 => some (.tfTst g s)
  | 0x308 => some (.tfTrel g s)
  | 0x309 => some (.tfTcvt g s)
  | _ => none

/-- The triggers 0x340 to 0x35F (R59). -/
def triggers340 (g : BitVec 7) (s : BitVec 12) (d : Nat) : Option Instr :=
  match d with
  | 0x340 => some (.dgDq g s)
  | 0x341 => some (.dgDqr g s)
  | 0x342 => some (.dgDqz g s)
  | 0x343 => some (.dgDfence g s)
  | 0x344 => some (.dgDrebuild g s)
  | 0x345 => some (.dgDregion g s)
  | _ => none

/-- The triggers 0x360 to 0x37F (R59). -/
def triggers360 (g : BitVec 7) (s : BitVec 12) (d : Nat) : Option Instr :=
  match d with
  | 0x360 => some (.syAadd g s)
  | 0x361 => some (.syAmin g s)
  | 0x362 => some (.syAmax g s)
  | 0x363 => some (.syAminn g s)
  | 0x364 => some (.syAmaxn g s)
  | 0x365 => some (.syAand g s)
  | 0x366 => some (.syAor g s)
  | 0x367 => some (.syAxor g s)
  | 0x368 => some (.syAswp g s)
  | 0x369 => some (.syAcas g s)
  | 0x36A => some (.syAincb g s)
  | 0x36B => some (.syRel g s)
  | 0x36C => some (.syAcq g s)
  | 0x36D => some (.syBget g s)
  | 0x36E => some (.syBarv g s)
  | 0x36F => some (.syBwait g s)
  | 0x370 => some (.syBfree g s)
  | 0x371 => some (.sySstep g s)
  | 0x372 => some (.sySpawn g s)
  | 0x373 => some (.cxSend g s)
  | 0x374 => some (.cxMcst g s)
  | _ => none

/-- The triggers 0x3A0 to 0x3BF (R59). -/
def triggers3A0 (g : BitVec 7) (s : BitVec 12) (d : Nat) : Option Instr :=
  match d with
  | 0x3A0 => some (.kvFork g s)
  | 0x3A1 => some (.kvFree g s)
  | 0x3A2 => some (.kvPerm g s)
  | 0x3A3 => some (.kvApp g s)
  | 0x3A4 => some (.kvMap g s)
  | 0x3A5 => some (.epHist g s)
  | 0x3A6 => some (.epRep g s)
  | 0x3A7 => some (.epDone g s)
  | 0x3A8 => some (.epGrad g s)
  | 0x3A9 => some (.xkKick g s)
  | _ => none

/-- The triggers 0x3C0 to 0x3DF (R59). -/
def triggers3C0 (g : BitVec 7) (s : BitVec 12) (d : Nat) : Option Instr :=
  match d with
  | 0x3C0 => some (.crRd g s)
  | 0x3C1 => some (.crWr g s)
  | 0x3C2 => some (.crTlbinv g s)
  | 0x3C3 => some (.crCinv g s)
  | 0x3C4 => some (.crTrace g s)
  | _ => none

/-- The operation that a trigger address starts (R59). -/
def triggerOf (g : BitVec 7) (d : Nat) (s : BitVec 12) : Option Instr :=
  match d / 32 with
  | 8 | 9 => iaOf g 0 s (d % 64)
  | 10 | 11 => iaOf g 1 s (d % 64)
  | 12 => triggers180 g s d
  | 13 => triggers1A0 g s d
  | 14 => triggers1C0 g s d
  | 16 => triggers200 g s d
  | 17 => triggers220 g s d
  | 18 => triggers240 g s d
  | 24 => triggers300 g s d
  | 26 => triggers340 g s d
  | 27 => triggers360 g s d
  | 29 => triggers3A0 g s d
  | 30 => triggers3C0 g s d
  | _ => none

/-! ### Moves (R46, R48) -/

/-- What a move is: its destination decides, then a pop source. -/
def moveOf (g : BitVec 7) (d : BitVec 11) (s : BitVec 12) : Instr :=
  match triggerOf g d.toNat s with
  | some i => i
  | none =>
    if d = 0x0B4 then .cqPush g s
    else if s = 0x0A9 then .lqPop g d
    else if s = 0x0AA then .cxPop g d
    else if s = 0x0AC then .cqPop g d
    else .move g d s

/-! ### Fields of a slot word -/

def fieldOf (w : BitVec 32) (lo n : Nat) : BitVec n := w.extractLsb' lo n

def decodeMove (w : BitVec 32) : Instr := moveOf (fieldOf w 23 7) (fieldOf w 12 11) (fieldOf w 0 12)

def decodeWide (w : BitVec 32) : Instr := .wideImmediateMove (fieldOf w 19 11) (fieldOf w 0 19)

/-- The header (R49). -/
def decodeHeader (w : BitVec 32) : Except DecodeError Instr :=
  if fieldOf w 24 2 = 0 then
    .ok (.header (fieldOf w 29 1) (fieldOf w 28 1) (fieldOf w 27 1) (fieldOf w 26 1) (fieldOf w 16 8) (fieldOf w 8 8) (fieldOf w 0 8))
  else .error .headerBits

/-- The control word (R51, R84). -/
def decodeControl (w : BitVec 32) : Except DecodeError Instr :=
  let c := fieldOf w 19 6
  let i := fieldOf w 18 1
  match (fieldOf w 25 5).toNat with
  | 0 => .ok (.nop c i (fieldOf w 0 18))
  | 1 => .ok (.br c i (fieldOf w 17 1) (fieldOf w 0 17))
  | 2 => .ok (.brx c i (fieldOf w 17 1) (fieldOf w 0 6))
  | 3 => .ok (.call c i (fieldOf w 0 18))
  | 4 => .ok (.ret c i)
  | 5 => .ok (.loop (fieldOf w 12 6) (fieldOf w 0 12))
  | 6 => .ok (.loopq (fieldOf w 0 12))
  | 7 => .ok (.halt c i)
  | 8 => .ok (.trap c i (fieldOf w 0 16))
  | 9 => .ok .rft
  | 10 => .ok (.wake c i (fieldOf w 0 18))
  | 11 => .ok (.cede (fieldOf w 0 7))
  | 12 => .ok (.wait (fieldOf w 17 1) (fieldOf w 16 1) (fieldOf w 0 16))
  | 13 => .ok (.brk c i (fieldOf w 0 16))
  | _ => .error .controlCode

/-- Decode the word of slot `k` of a bundle (R44). -/
def decodeSlot (k : Nat) (w : BitVec 32) : Except DecodeError Instr :=
  match (fieldOf w 30 2).toNat with
  | 0 => .ok (decodeMove w)
  | 1 => .ok (decodeWide w)
  | 2 => .error .format10
  | _ => if k = 0 then decodeHeader w else if k = 3 then decodeControl w else .error .format11

/-- The word of slot `k` of a bundle (R43). -/
def slotWord (b : BitVec 128) (k : Nat) : BitVec 32 := b.extractLsb' (32 * k) 32

/-- The slot that a word of the opcode table stands in: format 11 is a control word when its operation
code is one of 1 to 13, or the whole of `nop`, and else a header. -/
def tableSlot (w : BitVec 32) : Nat :=
  if fieldOf w 30 2 = 3 then
    let op := (fieldOf w 25 5).toNat
    if (1 ≤ op && op ≤ 13) || (op = 0 && fieldOf w 0 25 = 0) then 3 else 0
  else 0

/-- The instruction that the decoder reads from a word of the opcode table. -/
def decodeTableWord (nbits w : Nat) : Option Instr :=
  if nbits = 32 then
    let x := BitVec.ofNat 32 w
    match decodeSlot (tableSlot x) x with
    | .ok i => some i
    | .error _ => none
  else none

/-! ### The encoder (R46 to R51, R59, R84) -/

def moveWord (g : BitVec 7) (d : BitVec 11) (s : BitVec 12) : BitVec 32 := 0#2 ++ g ++ d ++ s

/-- A control word: code, condition, invert, operand (R51). -/
def controlWord (op : BitVec 5) (c : BitVec 6) (i : BitVec 1) (x : BitVec 18) : BitVec 32 := 3#2 ++ op ++ c ++ i ++ x

/-- The trigger address of an operation of ia0 or ia1 (R59). -/
def iaAddr (u : BitVec 1) (op : BitVec 6) : BitVec 11 := 2#4 ++ u ++ op

/-- The slot word of a slot instruction; the other steps have none. -/
def encode : Instr → Option (BitVec 32)
  | .move g d s => some (moveWord g d s)
  | .wideImmediateMove d imm => some (1#2 ++ d ++ imm)
  | .header nm e1 e2 e3 x1 x2 x3 => some (3#2 ++ nm ++ e1 ++ e2 ++ e3 ++ 0#2 ++ x1 ++ x2 ++ x3)
  | .lqPop g d => some (moveWord g d 0x0A9)
  | .cxPop g d => some (moveWord g d 0x0AA)
  | .cqPop g d => some (moveWord g d 0x0AC)
  | .cqPush g s => some (moveWord g 0x0B4 s)
  | .iaAdd g u s => some (moveWord g (iaAddr u 0) s)
  | .iaSub g u s => some (moveWord g (iaAddr u 1) s)
  | .iaAnd g u s => some (moveWord g (iaAddr u 2) s)
  | .iaOr g u s => some (moveWord g (iaAddr u 3) s)
  | .iaXor g u s => some (moveWord g (iaAddr u 4) s)
  | .iaAndn g u s => some (moveWord g (iaAddr u 5) s)
  | .iaShl g u s => some (moveWord g (iaAddr u 6) s)
  | .iaShr g u s => some (moveWord g (iaAddr u 7) s)
  | .iaSar g u s => some (moveWord g (iaAddr u 8) s)
  | .iaRotr g u s => some (moveWord g (iaAddr u 9) s)
  | .iaMin g u s => some (moveWord g (iaAddr u 10) s)
  | .iaMax g u s => some (moveWord g (iaAddr u 11) s)
  | .iaMinn g u s => some (moveWord g (iaAddr u 12) s)
  | .iaMaxn g u s => some (moveWord g (iaAddr u 13) s)
  | .iaCmpeq g u s => some (moveWord g (iaAddr u 14) s)
  | .iaCmpne g u s => some (moveWord g (iaAddr u 15) s)
  | .iaCmplt g u s => some (moveWord g (iaAddr u 16) s)
  | .iaCmple g u s => some (moveWord g (iaAddr u 17) s)
  | .iaCmpltn g u s => some (moveWord g (iaAddr u 18) s)
  | .iaCmplen g u s => some (moveWord g (iaAddr u 19) s)
  | .iaClz g u s => some (moveWord g (iaAddr u 20) s)
  | .iaCtz g u s => some (moveWord g (iaAddr u 21) s)
  | .iaPopc g u s => some (moveWord g (iaAddr u 22) s)
  | .iaSext g u s => some (moveWord g (iaAddr u 23) s)
  | .iaZext g u s => some (moveWord g (iaAddr u 24) s)
  | .imMul g s => some (moveWord g 0x180 s)
  | .imMulhi g s => some (moveWord g 0x181 s)
  | .imMulhn g s => some (moveWord g 0x182 s)
  | .imDiv g s => some (moveWord g 0x183 s)
  | .imDivn g s => some (moveWord g 0x184 s)
  | .imRem g s => some (moveWord g 0x185 s)
  | .imRemn g s => some (moveWord g 0x186 s)
  | .imMad g s => some (moveWord g 0x187 s)
  | .plPand g s => some (moveWord g 0x1A0 s)
  | .plPor g s => some (moveWord g 0x1A1 s)
  | .plPxor g s => some (moveWord g 0x1A2 s)
  | .plPandn g s => some (moveWord g 0x1A3 s)
  | .plPnot g s => some (moveWord g 0x1A4 s)
  | .plPall g s => some (moveWord g 0x1A5 s)
  | .plPany g s => some (moveWord g 0x1A6 s)
  | .plPcnt g s => some (moveWord g 0x1A7 s)
  | .plPfirst g s => some (moveWord g 0x1A8 s)
  | .plPlt g s => some (moveWord g 0x1A9 s)
  | .lqLdb g s => some (moveWord g 0x1C0 s)
  | .lqLdbs g s => some (moveWord g 0x1C1 s)
  | .lqLdh g s => some (moveWord g 0x1C2 s)
  | .lqLdhs g s => some (moveWord g 0x1C3 s)
  | .lqLdw g s => some (moveWord g 0x1C4 s)
  | .lqLdws g s => some (moveWord g 0x1C5 s)
  | .lqLdd g s => some (moveWord g 0x1C6 s)
  | .lqVld g s => some (moveWord g 0x1C7 s)
  | .lqVldbf g s => some (moveWord g 0x1C8 s)
  | .lqVldhf g s => some (moveWord g 0x1C9 s)
  | .lqVldb g s => some (moveWord g 0x1CA s)
  | .lqGth g s => some (moveWord g 0x1CB s)
  | .sqStb g s => some (moveWord g 0x1CC s)
  | .sqSth g s => some (moveWord g 0x1CD s)
  | .sqStw g s => some (moveWord g 0x1CE s)
  | .sqStd g s => some (moveWord g 0x1CF s)
  | .sqVst g s => some (moveWord g 0x1D0 s)
  | .sqVstbf g s => some (moveWord g 0x1D1 s)
  | .sqVsthf g s => some (moveWord g 0x1D2 s)
  | .sqSct g s => some (moveWord g 0x1D3 s)
  | .lqMark g s => some (moveWord g 0x1D4 s)
  | .agSld g s => some (moveWord g 0x1D5 s)
  | .agSst g s => some (moveWord g 0x1D6 s)
  | .agSrld g s => some (moveWord g 0x1D7 s)
  | .agSset g s => some (moveWord g 0x1D8 s)
  | .agSadv g s => some (moveWord g 0x1D9 s)
  | .agRfence g s => some (moveWord g 0x1DA s)
  | .vxVadd g s => some (moveWord g 0x200 s)
  | .vxVsub g s => some (moveWord g 0x201 s)
  | .vxVmul g s => some (moveWord g 0x202 s)
  | .vxVmulhi g s => some (moveWord g 0x203 s)
  | .vxVmulhn g s => some (moveWord g 0x204 s)
  | .vxVmin g s => some (moveWord g 0x205 s)
  | .vxVmax g s => some (moveWord g 0x206 s)
  | .vxVminn g s => some (moveWord g 0x207 s)
  | .vxVmaxn g s => some (moveWord g 0x208 s)
  | .vxVand g s => some (moveWord g 0x209 s)
  | .vxVor g s => some (moveWord g 0x20A s)
  | .vxVxor g s => some (moveWord g 0x20B s)
  | .vxVandn g s => some (moveWord g 0x20C s)
  | .vxVshl g s => some (moveWord g 0x20D s)
  | .vxVshr g s => some (moveWord g 0x20E s)
  | .vxVsar g s => some (moveWord g 0x20F s)
  | .vxVabs g s => some (moveWord g 0x210 s)
  | .vxVneg g s => some (moveWord g 0x211 s)
  | .vxVclz g s => some (moveWord g 0x212 s)
  | .vxVpopc g s => some (moveWord g 0x213 s)
  | .vxVcmpeq g s => some (moveWord g 0x214 s)
  | .vxVcmpne g s => some (moveWord g 0x215 s)
  | .vxVcmplt g s => some (moveWord g 0x216 s)
  | .vxVcmple g s => some (moveWord g 0x217 s)
  | .vxVcmpltn g s => some (moveWord g 0x218 s)
  | .vxVcmplen g s => some (moveWord g 0x219 s)
  | .vxVfadd g s => some (moveWord g 0x21A s)
  | .vxVfsub g s => some (moveWord g 0x21B s)
  | .vxVfmul g s => some (moveWord g 0x21C s)
  | .vxVfma g s => some (moveWord g 0x21D s)
  | .vxVfmin g s => some (moveWord g 0x21E s)
  | .vxVfmax g s => some (moveWord g 0x21F s)
  | .vxVfabs g s => some (moveWord g 0x220 s)
  | .vxVfneg g s => some (moveWord g 0x221 s)
  | .vxVfrcp g s => some (moveWord g 0x222 s)
  | .vxVfrsqrt g s => some (moveWord g 0x223 s)
  | .vxVfsqrt g s => some (moveWord g 0x224 s)
  | .vxVfexp2 g s => some (moveWord g 0x225 s)
  | .vxVflog2 g s => some (moveWord g 0x226 s)
  | .vxVfcmpeq g s => some (moveWord g 0x227 s)
  | .vxVfcmplt g s => some (moveWord g 0x228 s)
  | .vxVfcmple g s => some (moveWord g 0x229 s)
  | .vxVfcmpun g s => some (moveWord g 0x22A s)
  | .vxVcvtif g s => some (moveWord g 0x22B s)
  | .vxVcvtfi g s => some (moveWord g 0x22C s)
  | .vxVcvtfbf g s => some (moveWord g 0x22D s)
  | .vxVcvtbff g s => some (moveWord g 0x22E s)
  | .vxVcvtfh g s => some (moveWord g 0x22F s)
  | .vxVcvthf g s => some (moveWord g 0x230 s)
  | .vxVqnt2 g s => some (moveWord g 0x231 s)
  | .vxVqnt4 g s => some (moveWord g 0x232 s)
  | .vxVqnt7 g s => some (moveWord g 0x233 s)
  | .vxVdeq2 g s => some (moveWord g 0x234 s)
  | .vxVdeq4 g s => some (moveWord g 0x235 s)
  | .vxVdeq7 g s => some (moveWord g 0x236 s)
  | .vxVperm g s => some (moveWord g 0x237 s)
  | .vxVbcast g s => some (moveWord g 0x238 s)
  | .vxVslide g s => some (moveWord g 0x239 s)
  | .vxVget g s => some (moveWord g 0x23A s)
  | .vxVredadd g s => some (moveWord g 0x23B s)
  | .vxVredmin g s => some (moveWord g 0x23C s)
  | .vxVredmax g s => some (moveWord g 0x23D s)
  | .vxVfredadd g s => some (moveWord g 0x23E s)
  | .vxVfredmin g s => some (moveWord g 0x23F s)
  | .vxVfredmax g s => some (moveWord g 0x240 s)
  | .vxVscan g s => some (moveWord g 0x241 s)
  | .vxVfscan g s => some (moveWord g 0x242 s)
  | .vxVtopk g s => some (moveWord g 0x243 s)
  | .vxStopk g s => some (moveWord g 0x244 s)
  | .mxMma g s => some (moveWord g 0x300 s)
  | .mxMmas g s => some (moveWord g 0x301 s)
  | .mxMmag g s => some (moveWord g 0x302 s)
  | .mxMzero g s => some (moveWord g 0x303 s)
  | .mxMdrain g s => some (moveWord g 0x304 s)
  | .tfTld g s => some (moveWord g 0x305 s)
  | .tfTbind g s => some (moveWord g 0x306 s)
  | .tfTst g s => some (moveWord g 0x307 s)
  | .tfTrel g s => some (moveWord g 0x308 s)
  | .tfTcvt g s => some (moveWord g 0x309 s)
  | .dgDq g s => some (moveWord g 0x340 s)
  | .dgDqr g s => some (moveWord g 0x341 s)
  | .dgDqz g s => some (moveWord g 0x342 s)
  | .dgDfence g s => some (moveWord g 0x343 s)
  | .dgDrebuild g s => some (moveWord g 0x344 s)
  | .dgDregion g s => some (moveWord g 0x345 s)
  | .syAadd g s => some (moveWord g 0x360 s)
  | .syAmin g s => some (moveWord g 0x361 s)
  | .syAmax g s => some (moveWord g 0x362 s)
  | .syAminn g s => some (moveWord g 0x363 s)
  | .syAmaxn g s => some (moveWord g 0x364 s)
  | .syAand g s => some (moveWord g 0x365 s)
  | .syAor g s => some (moveWord g 0x366 s)
  | .syAxor g s => some (moveWord g 0x367 s)
  | .syAswp g s => some (moveWord g 0x368 s)
  | .syAcas g s => some (moveWord g 0x369 s)
  | .syAincb g s => some (moveWord g 0x36A s)
  | .syRel g s => some (moveWord g 0x36B s)
  | .syAcq g s => some (moveWord g 0x36C s)
  | .syBget g s => some (moveWord g 0x36D s)
  | .syBarv g s => some (moveWord g 0x36E s)
  | .syBwait g s => some (moveWord g 0x36F s)
  | .syBfree g s => some (moveWord g 0x370 s)
  | .sySstep g s => some (moveWord g 0x371 s)
  | .sySpawn g s => some (moveWord g 0x372 s)
  | .cxSend g s => some (moveWord g 0x373 s)
  | .cxMcst g s => some (moveWord g 0x374 s)
  | .kvFork g s => some (moveWord g 0x3A0 s)
  | .kvFree g s => some (moveWord g 0x3A1 s)
  | .kvPerm g s => some (moveWord g 0x3A2 s)
  | .kvApp g s => some (moveWord g 0x3A3 s)
  | .kvMap g s => some (moveWord g 0x3A4 s)
  | .epHist g s => some (moveWord g 0x3A5 s)
  | .epRep g s => some (moveWord g 0x3A6 s)
  | .epDone g s => some (moveWord g 0x3A7 s)
  | .epGrad g s => some (moveWord g 0x3A8 s)
  | .xkKick g s => some (moveWord g 0x3A9 s)
  | .crRd g s => some (moveWord g 0x3C0 s)
  | .crWr g s => some (moveWord g 0x3C1 s)
  | .crTlbinv g s => some (moveWord g 0x3C2 s)
  | .crCinv g s => some (moveWord g 0x3C3 s)
  | .crTrace g s => some (moveWord g 0x3C4 s)
  | .nop c i z => some (controlWord 0 c i z)
  | .br c i p x => some (controlWord 1 c i (p ++ x))
  | .brx c i p r => some (controlWord 2 c i (p ++ 0#11 ++ r))
  | .call c i x => some (controlWord 3 c i x)
  | .ret c i => some (controlWord 4 c i 0)
  | .loop r e => some (controlWord 5 0 0 (r ++ e))
  | .loopq e => some (controlWord 6 0 0 (0#6 ++ e))
  | .halt c i => some (controlWord 7 c i 0)
  | .trap c i k => some (controlWord 8 c i (0#2 ++ k))
  | .rft => some (controlWord 9 0 0 0)
  | .wake c i x => some (controlWord 10 c i x)
  | .cede m => some (controlWord 11 0 0 (0#11 ++ m))
  | .wait l s t => some (controlWord 12 0 0 (l ++ s ++ t))
  | .brk c i k => some (controlWord 13 c i (0#2 ++ k))
  | .remwaysWrite _ _ => none
  | .digbaseWrite _ => none
  | .bundleIssue _ _ => none
  | .fixedLatencyResult _ _ _ => none
  | .loadPerformed _ _ => none
  | .loadDataArrival _ _ _ => none
  | .freezeEnd _ _ => none
  | .flagWaitEnd _ _ => none
  | .tlbWalk _ _ => none
  | .merge _ _ => none
  | .recordRead _ _ => none
  | .recordCacheEmpty _ _ => none
  | .tileOpComplete _ _ => none
  | .tbindPinned _ _ => none
  | .stopkComplete _ => none
  | .mdrainRow _ => none
  | .releasePerform _ _ => none
  | .acquirePerform _ _ => none
  | .atomicApply _ _ => none
  | .remoteAtomicBatch _ => none
  | .barrierArrival _ _ => none
  | .bwaitLimitExpiry _ _ => none
  | .communicationStepBegin _ => none
  | .computationStepBegin _ => none
  | .cxSendDepart _ => none
  | .cxVectorArrive _ => none
  | .cxMcstLand _ => none
  | .circuitQueueEnlarge _ => none
  | .trapEntry _ _ _ _ _ => none
  | .deferredTrap _ _ => none
  | .cancel _ _ => none
  | .handlerBudgetExpiry _ _ => none
  | .unitComplete _ _ => none
  | .phaseRecordPost _ => none
  | .startVector _ => none
  | .childLaunchAccept _ _ => none
  | .schedulerSelect _ => none
  | .tokenAccrual _ => none
  | .drainRedecision _ => none
  | .safePointStop _ _ => none
  | .checkpointWithdraw _ => none
  | .checkpointSave _ => none
  | .launchRestore _ => none
  | .xformRequest _ _ => none
  | .xformCompletion _ _ => none
  | .histCountArrive => none
  | .trestleWindowEnd => none
  | .trestlePublish => none
  | .epRepServe _ _ => none
  | .slotRetire _ _ => none
  | .epGradMerge _ _ => none
  | .drebuildPerform _ _ => none
  | .linkRowReceive _ _ _ => none
  | .linkDown _ => none
  | .routerDrain => none
  | .throttleStepDown _ => none
  | .throttleStepUp _ => none
  | .thermalStop _ => none
  | .coldReset _ _ => none
  | .warmReset _ _ => none
  | .attestationRequest _ => none
  | .feataccWrite _ => none
  | .imageLoad _ _ _ _ => none
  | .imageUnload _ => none
  | .hostWrite _ _ _ => none
  | .hostRelease _ _ _ => none
  | .hostTlbInvalidate _ _ _ => none
  | .tcfgWrite _ => none
  | .tresWrite _ => none
  | .hostRegisterWrite _ _ => none
  | .scratchpadStorePerformed _ _ => none
  | .barrierEntryFree _ _ => none
  | .softError _ _ => none

end Sys2Proof
end

