-- ==== Sys2Proof/Machine/Map.lean ====
section
/-! DEFINITION. Sparse tables: one canonical form for memory, register files and every other table the
state holds by key. -/
namespace Sys2Proof.Machine

/-- What key `k` reads as; an unlisted key reads as `d`. -/
def mapGet {α : Type} (d : α) : NMap α → Nat → α
  | [], _ => d
  | (j, v) :: m, k => if k = j then v else mapGet d m k

/-- Put an entry in its place among rising keys. -/
def mapInsert {α : Type} (k : Nat) (v : α) : NMap α → NMap α
  | [] => [(k, v)]
  | (j, w) :: m =>
    if k < j then (k, v) :: (j, w) :: m
    else if k = j then (k, v) :: m
    else (j, w) :: mapInsert k v m

/-- Take every entry of a key out. -/
def mapErase {α : Type} (k : Nat) : NMap α → NMap α
  | [] => []
  | (j, w) :: m => if k = j then mapErase k m else (j, w) :: mapErase k m

/-- Write key `k`: writing what an unlisted key reads as takes the entry out. -/
def mapSet {α : Type} [DecidableEq α] (d : α) (m : NMap α) (k : Nat) (v : α) : NMap α :=
  if v = d then mapErase k m else mapInsert k v m

/-- Every key of the table is above `lo`, keys rise strictly, and no entry equals `d`. -/
def mapWfAbove {α : Type} [DecidableEq α] (d : α) : Option Nat → NMap α → Bool
  | _, [] => true
  | lo, (j, v) :: m => (lo.all (· < j)) && decide (v ≠ d) && mapWfAbove d (some j) m

/-- The canonical form of a table. -/
def mapWf {α : Type} [DecidableEq α] (d : α) (m : NMap α) : Bool := mapWfAbove d none m

end Sys2Proof.Machine
end

