-- ==== Sys2Proof/Machine/State.lean ====
section
/-! DEFINITION. The state of the part as plain data (R9 to R42 and the chapters they name), and the
state right after reset.

One package: a memory, four dies, 512 cores in a sparse table, the host side.  Each core holds two
sequencers.  Two fields are the model's own: `choices` and `free`, the counters that the free values
of `Config` are applied to. -/
namespace Sys2Proof.Machine

/-- Why the machine stops.  Nothing: every step of the part answers a next state. -/
inductive Fault where
  deriving DecidableEq, Repr

/-- Why an instruction has no meaning. -/
inductive Refusal where
  /-- Raised only by an arm of `exec` whose instruction has no meaning yet; safe: the run stops. -/
  | notModelled (mnemonic : String)
  deriving DecidableEq, Repr

/-- The trap causes (R267). -/
inductive Cause where
  | illegalBundle | reservedPort | unitNotOwned | nonuniformBranch | earlyPop | queueEmpty
  | loopOverflow | misaligned | translation | protection | kvCow | kvBounds | sparseMeta
  | groupOffsets | shapeRecord | tileShape | barrierGeneration | digestRegion | eccUncorrectable
  | link | privilege | breakpoint | singleStep | preempt | watchdog | cancel | trapInstr
  | xformRing | scratchBounds
  /-- A code that no trap bears, as a handler may write it into SQS (R266). -/
  | other (code : BitVec 6)
  deriving DecidableEq, Repr

/-- A value of one of the three classes (R52). -/
inductive Value where
  | s (w : Word)
  | v (x : Vec)
  | p (w : Word)
  deriving DecidableEq, Repr

/-- A place that an access reaches: a physical byte, or a byte of a core's scratchpad (R193). -/
inductive Loc where
  | mem (pa : Nat)
  | spad (core off : Nat)
  deriving DecidableEq, Repr

/-- A result with the cycle it was triggered in and its visibility cycle (R68). -/
structure Res where
  trig : Nat
  vis : Nat
  val : Value
  deriving DecidableEq, Repr

/-- A result port: its current result, and the presentation queue in trigger order (R69, R70). -/
structure Port where
  cur : Res
  queue : List Res
  deriving DecidableEq, Repr

/-- One hardware loop (R87). -/
structure LoopEntry where
  start : Word
  stop : Word
  remaining : Word
  passes : Word
  deriving DecidableEq, Repr

/-- A page translation: the first virtual byte, the size, the first physical byte, the rights. -/
structure Page where
  asid : Nat
  va : Nat
  size : Nat
  pa : Nat
  w : Bool
  x : Bool
  deriving DecidableEq, Repr

/-- A walk made for a frozen bundle: the page it found for a 64 KiB granule, or none when it failed (R202, R203). -/
structure Walk where
  asid : Nat
  granule : Nat
  found : Option Page
  deriving DecidableEq, Repr

/-- A walk under way: the granule that missed, the level and the table to be read next, level 0 for the context table; the
sequencers that have dropped translations since it started, which it does not serve (R203, R204). -/
structure Walker where
  asid : Nat
  granule : Nat
  level : Nat
  table : Nat
  barred : List (Nat × Nat)
  deriving DecidableEq, Repr

/-- A stream register (R112), with what it caches (R121). -/
structure Stream where
  base : BitVec 56
  fmt : BitVec 8
  mode : BitVec 8
  rows : BitVec 16
  cols : BitVec 8
  rstride : Word
  sstride : Word
  kvseq : BitVec 16
  pos : BitVec 32
  page : Option Page
  /-- Page index of the sequence, and its frame. -/
  frame : Option (Nat × Nat)
  deriving DecidableEq, Repr

/-- A stamp check asked for with a load (R110). -/
structure StampCheck where
  stamp : BitVec 16
  pred : BitVec 6
  deriving DecidableEq, Repr

/-- The atomics (R220). -/
inductive AtomicOp where
  | aadd | amin | amax | aminn | amaxn | aand | aor | axor | aswp | acas | aincb
  deriving DecidableEq, Repr

/-- How a vector load forms its lanes (R105). -/
inductive VectorForm where
  | words | bf16 | f16 | bytes
  deriving DecidableEq, Repr

/-- What a load-class operation is (R96). -/
inductive LoadKind where
  | scalar (size : Nat) (signed : Bool)
  | vector (form : VectorForm)
  | gather (lanes : List Nat)
  | row (fmt cols : Nat)
  /-- The `ag.rfence`s that were pending at its trigger: it is read after what they wait for, and the record cache is
  passed by (R123, R339). -/
  | record (fences : List (Nat × Nat))
  | tileLoad
  | bind
  | acquire (scope : Nat)
  | atomic (op : AtomicOp) (a b : Word)
  | bget (parties : Nat)
  | bwait (handle : Word) (limit : Nat) (deadline : Nat) (scope : Nat) (awaited : Option Nat)
  | dq
  | dqr (n : Nat) (qsk : BitVec 96) (etype kind : Nat)
  | dqz (n : Nat) (vmap : Bool)
  /-- `turn`: its place among the kv operations of the core (R283). -/
  | kvMap (kseq pos rstride : Nat) (base : Word) (turn : Nat)
  | epRep (t : Word)
  | epDone (t : Word)
  deriving DecidableEq, Repr

/-- The classes of an entry's value. -/
inductive Cls where
  | s | v | p
  deriving DecidableEq, Repr

/-- A run of bytes of one line, or the digest record of a line under one registration of its region (R210, R240,
R245). -/
inductive Part where
  | bytes (loc : Loc) (n : Nat)
  | record (line serial : Nat)
  deriving DecidableEq, Repr

/-- Stores that are ordered before something (R212; log entry 99), by the core that made them and the sector: for each byte
of the sector the number of the last one's merge, 0 for none. -/
structure Past where
  stores : NMap (List Nat) := []
  deriving DecidableEq, Repr

/-- What a release or an arrival hands on (R212, R213; log entry 99). -/
structure Release where
  /-- The sequencer that made it; none for the host, an engine, Trestle or the scheduler. -/
  party : Option (Nat × Nat)
  scope : Nat
  /-- The stores that are ordered before it. -/
  chain : Past
  deriving DecidableEq, Repr

/-- A load-queue entry (R96, R97). -/
structure LoadEntry where
  order : Nat
  epoch : Nat
  landing : Nat
  cls : Cls
  kind : LoadKind
  check : Option StampCheck
  /-- Store-class operations triggered before this order number are performed first (R247). -/
  fence : Nat
  /-- What is still to be read, in the order of the entry's bytes. -/
  parts : List Part
  got : List Byte
  /-- Parts further on that were read with a part of their line before them, by the number of parts from there to the end. -/
  ahead : List (Nat × (List Byte × Bool)) := []
  poisoned : Bool
  performed : Bool
  arrived : Bool
  /-- The clock in which the reply of a remote atomic lands; 0 for every other entry (R222). -/
  landsAt : Nat := 0
  /-- The clock in which the last of its fills from a slice of the die has landed; 0 for none (R315). -/
  fillAt : Nat := 0
  /-- The clock of its trigger (R222). -/
  since : Nat := 0
  /-- The stores that its sequencer has taken over before it (R212; log entry 99). -/
  chain : Past := {}
  /-- The table words that a `kv.map` has read, and the walks that it has waited for (R203, R288). -/
  words : List ((Nat × Nat) × Nat) := []
  walks : List Walk := []
  value : Value
  mark : Option Cause
  markAddr : Word
  stampOk : Bool
  /-- Leaves nothing to pop: a record read, or the rest of an operation of a halted unit. -/
  silent : Bool
  deriving DecidableEq, Repr

/-- A store to one place: the bytes written, `none` where a byte is left unwritten (R107). -/
structure StorePart where
  loc : Loc
  bytes : List (Option Byte)
  /-- Places among the bytes that carry poison to where they are written (R205, R206). -/
  bad : List Nat := []
  /-- Sectors that the operation has written whole once this part is written (R206, R210). -/
  fills : List Nat := []
  /-- The clock in which it reaches the slice of its die that homes its line (R315). -/
  landsAt : Nat := 0
  /-- It has updated a sector of a copy in the core's banks, which is dirty until it is performed (R198). -/
  dirty : Bool := false
  deriving DecidableEq, Repr

/-- What a store-class operation is (R96). -/
inductive StoreKind where
  | plain
  | tile (t : Nat)
  | release (pa : Nat) (v : Word) (sig : BitVec 1024) (scope : Nat)
  /-- The store-queue half of an atomic (R96). -/
  | atomic
  | arrival (handle : Word) (carried : BitVec 1024) (scope : Nat)
  | bfree (handle : Word)
  | spawn (carried : BitVec 1024)
  /-- The region as registered, and the next line of it. -/
  | rebuild (key serial line : Nat)
  /-- The next line of the buffers, and the flags so far (R304). -/
  | grad (pair goff rm line : Nat) (flags : BitVec 7)
  | kick (asid ring rm : Nat)
  deriving DecidableEq, Repr

/-- A store-queue entry (R96). -/
structure StoreEntry where
  order : Nat
  epoch : Nat
  kind : StoreKind
  parts : List StorePart
  /-- How many of the parts have left the core for their home slices (R198). -/
  left : Nat := 0
  /-- The clock of its trigger (R222). -/
  since : Nat := 0
  /-- The stores that its sequencer has taken over before it (R212; log entry 99). -/
  chain : Past := {}
  deriving DecidableEq, Repr

/-- A kv operation that its bundle waits for, with its trigger value and operands (R282, R283). -/
inductive KvOp where
  | fork (t : Word)
  | free (t : Word)
  | app (t : Word)
  | perm (m : Word) (t : Vec) (kvo : Word)
  deriving DecidableEq, Repr

/-- One update of the key-cache tables (R281, R284 to R287). -/
inductive KvAct where
  /-- A word of `n` bytes is written. -/
  | put (va n v : Nat)
  /-- COUNT of a frame entry is raised. -/
  | up (entry : Nat)
  /-- COUNT is lowered, and at 0 the frame pushed onto the free stack. -/
  | down (entry free frame : Nat)
  /-- A frame is pushed: FREE is read, and LINK written. -/
  | push (entry free frame : Nat)
  /-- The exchange of a push, against FREE as it was read; after a mismatch the push begins again. -/
  | give (entry free frame h : Nat)
  deriving DecidableEq, Repr

/-- Why a sequencer holds a bundle (R98, R103, R268). -/
inductive Hold where
  /-- Freezes. -/
  | popData | circuitPop | storeRoom | sendRoom
  | walk (asid va : Nat)
  /-- Flag-waits before the operation starts. -/
  | tiles (w r : List Nat) (tf : Bool)
  | stopk (tag : Nat)
  /-- The issuing sequencer's accesses, and the stores to dirty lines that `cr.cinv` names (R82, R198). -/
  | cinv (lines : List Nat)
  | sstep
  | cede (mask : BitVec 7)
  | wake
  | wait (mask : BitVec 18)
  | port (cycles : Nat)
  | rftDrain
  /-- Flag-waits for an operation already started. -/
  | record | region | kick
  | kv (op : KvOp)
  /-- Other sequencers, the listed ones, still hold translations that `cr.tlbinv` drops: all, or those of an address
  (R204). -/
  | invalidate (all : Bool) (va : Nat) (left : List (Nat × Nat))
  deriving DecidableEq, Repr

/-- The operand ports of the per-sequencer units (R58). -/
structure OpPorts where
  ia0o : Word
  ia1o : Word
  imo : Word
  imp : Word
  plo : Word
  lqa : Word
  lqb : Word
  sqo : Word
  ago : Word
  dgo : Vec
  syo : Word
  syp : Word
  cro : Word
  deriving DecidableEq, Repr

/-- The result ports of the per-sequencer units (R56). -/
structure ResPorts where
  ia0r : Port
  ia1r : Port
  imr : Port
  imh : Port
  plr : Port
  crr : Port
  deriving DecidableEq, Repr

/-- What a sequencer is doing. -/
inductive Run where
  /-- Never started, or its last unit complete. -/
  | idle
  | running
  /-- Stopped at a safe point for a checkpoint (R260). -/
  | parked
  /-- Halted or stopped; its last unit is not complete (R28). -/
  | ending
  deriving DecidableEq, Repr

/-- Which queue's marked or poisoned head a trapping pop met (R273). -/
inductive HeadRecord where
  | load | circuit
  deriving DecidableEq, Repr

/-- The trace of a sequencer: records being formed (R276). -/
structure Trace where
  outcomes : BitVec 54
  count : Nat
  stallFrom : Option (Nat × Nat)
  deriving DecidableEq, Repr

/-- What falls due at the end of a cycle: a control-register write (R80), or translations to drop (R81). -/
inductive Late where
  | creg (a : Nat) (v : Word)
  | drop (all : Bool) (va : Nat)
  deriving DecidableEq, Repr

/-- A sequencer (R11, R12). -/
structure Seq where
  run : Run
  sregs : NMap Word
  vregs : NMap Vec
  pregs : NMap Word
  streams : NMap Stream
  countQueue : List Word
  loads : List LoadEntry
  stores : List StoreEntry
  loops : List LoopEntry
  pc : Word
  /-- The first uncommitted slot of the bundle at `pc`. -/
  slot : Nat
  hold : Option Hold
  /-- The record read for the holding slot: its bytes, or none when it was poisoned (R117). -/
  recordBuf : Option (Option (List Byte))
  /-- The clock in which that record's fill has landed (R315). -/
  recordAt : Nat := 0
  /-- The walks that the bundle at `pc` has waited for (R203). -/
  walks : List Walk
  /-- Whether the holding slot's operation has been performed (R268 second kind). -/
  done : Bool
  /-- What a kv operation that has made its checks has still to write (R283). -/
  kvLeft : Option (List KvAct)
  /-- The table words that a waiting kv operation has read, by address and bytes, in the order of its reads (R283). -/
  kvRead : List ((Nat × Nat) × Nat)
  /-- Where the words stand that a kv operation may still write, by address, as its checks have found (R283). -/
  kvPlaces : List (Nat × Loc)
  /-- The order number of the last fault record among the stores: the handler waits for it (R289). -/
  faultOrder : Option Nat
  /-- While a slot waits: the predicates and the queues' order number at the start of its cycle (R65). -/
  start : Option (NMap Word × Nat)
  cycle : Nat
  ports : OpPorts
  results : ResPorts
  /-- Control-register writes and flags due at the end of the cycle (R80, R131). -/
  late : List Late
  lateFlags : BitVec 7
  /-- The flags that asynchronous operations have set in FPCTL, and the clock they did it in (R131). -/
  clockFlags : Nat × BitVec 7
  /-- The trap shadow bank (R269), and what the trapped bundle's cycle still owes. -/
  shadow : Option (OpPorts × ResPorts)
  shadowLate : List Late
  shadowFlags : BitVec 7
  /-- Handler mode (SQS.HMODE, R266). -/
  handler : Bool
  handlerLoads : List LoadEntry
  handlerLoops : List LoopEntry
  /-- Bundles that the handler has issued: the cycles its own results count (R271). -/
  handlerCycle : Nat
  /-- SQS fields (R266). -/
  cause : Cause
  rslot : BitVec 2
  step : Bool
  defer : Bool
  clrHead : Bool
  fpage : BitVec 40
  headRecord : Option HeadRecord
  xpc : Word
  fpctl : Word
  trapvec : Word
  remtime : Word
  tracectl : Word
  asid : Nat
  trace : Trace
  /-- The program issues one bundle and then traps (R274). -/
  stepping : Bool
  /-- Pending deferred causes (R268). -/
  pending : List Cause
  /-- The running handler was entered for CANCEL or PREEMPT: bundles issued, and the clock of delivery (R36). -/
  budget : Option (Nat × Nat)
  /-- The running signature (R215). -/
  rsig : BitVec 1024
  /-- The stores that the sequencer has taken over: they are ordered before what it triggers next (R212; log entry
  99). -/
  chain : Past
  arrival : Option (Word × Nat)
  lastVersion : Option Nat
  /-- Trigger-order counter and marker epoch of the queues (R101, R102). -/
  order : Nat
  epoch : Nat
  /-- The marker epoch of the last `cr.tlbinv`: no walk starts while a store from before it is left (R204). -/
  invEpoch : Nat
  /-- Order number of the last `dg.dfence` (R247). -/
  dfence : Nat
  tlb : List Page
  /-- Entry bundle of the unit, for a restart (R39). -/
  entry : Word
  /-- Whether the unit waits in `sy.sstep` and its step has ended. -/
  stepDone : Bool
  /-- The unit joins its step group at the next computation step (R228). -/
  stepJoin : Bool
  /-- The stopped unit starts again once what it left behind is done (R39). -/
  restart : Bool
  unitFailed : Bool
  unitAbsorbed : Bool
  unitRetries : Nat
  deriving DecidableEq, Repr

/-- The three states of a tile register (R164). -/
inductive TileState where
  | empty | resident | bound
  deriving DecidableEq, Repr

/-- A tile register (R164).  A resident tile holds its bytes in element or block order; a bound tile
names the place of each byte, and holds its lines as they were last read: a line of another die as it was pinned, one of
its own die as it stood at the pin or later (R174). -/
structure Tile where
  state : TileState
  fmt : Nat
  rows : Nat
  cols : Nat
  bdir : Bool
  data : List Byte
  src : List Nat
  lines : List Nat
  /-- The bytes of each line and its poisoned sectors. -/
  copies : List (Nat × (List Byte × List Nat))
  /-- Lines of another die that are still to be pinned again after a restore (R166). -/
  waiting : List Nat := []
  granules : Nat
  /-- Places of the poisoned bytes, in element or block order (R205, R206). -/
  bad : List Nat
  deriving DecidableEq, Repr

/-- The description of a source or destination in memory, read from a shape record (R113, R168). -/
structure Shape where
  base : Nat
  fmt : Nat
  mode : Nat
  rows : Nat
  cols : Nat
  rstride : Word
  sstride : Word
  kvseq : Nat
  pos : Nat
  trans : Bool
  zpack : Bool
  deriving DecidableEq, Repr

/-- An asynchronous operation of tf or mx (R167). -/
inductive TileKind where
  | load (t cf : Nat) (shape : Shape)
  | bind (t : Nat) (shape : Shape) (src lines : List Nat)
  | store (t : Nat)
  | convert (d s cf : Nat) (bcol : Bool)
  | product (d a b n : Nat) (acc classical : Bool)
  | sparse (d a b n m : Nat) (acc : Bool)
  | grouped (d a b g : Nat) (acc : Bool) (offsets : List Nat)
  | zero (d rows cols fmt : Nat)
  deriving DecidableEq, Repr

structure TileOp where
  kind : TileKind
  q : Nat
  rm : Nat
  /-- Tiles it writes, and tiles it holds a claim on, once for each operand. -/
  writes : List Nat
  reads : List Nat
  /-- The order number of its queue entry, and what the entry has read. -/
  order : Nat
  got : List Byte
  ready : Bool
  poisoned : Bool
  /-- The bound tiles that a product reads, as they stood at its trigger, with their lines as it has read them (R174,
  R178). -/
  bound : List (Nat × Tile) := []
  /-- The lines that a bind has pinned, with what it has read of each (R173, R210). -/
  pinned : List (Nat × (List Byte × List Nat)) := []
  deriving DecidableEq, Repr

/-- A running `stopk` (R161). -/
structure Stopk where
  q : Nat
  koff : Nat
  n : Nat
  k : Nat
  ooff : Nat
  ktype : Nat
  tag : Nat
  epoch : Nat
  order : Nat
  /-- A store reached the key range while it ran (R163). -/
  spoiled : Bool
  /-- Its output once every key is read, and the records of it that are written. -/
  out : Option (List Byte) := none
  written : List Nat := []
  deriving DecidableEq, Repr

/-- The drain buffer of mx (R187). -/
structure Drain where
  cycle : Nat
  rows : List Vec
  /-- The row of an earlier drain that is on the port in the trigger cycle. -/
  prev : Option Vec
  deriving DecidableEq, Repr

/-- A line held in a cache bank: its frame, its sectors with their poison, when it was last used
(R198, R206, R207). -/
structure CacheLine where
  bank : Nat
  frame : Nat
  line : Nat
  sectors : List (Option (List Byte × Bool))
  used : Nat
  /-- How many stores had merged when its bytes were read at home (R211; log entry 99). -/
  asOf : Nat := 0
  deriving DecidableEq, Repr

/-- A vector in a circuit receive queue (R229). -/
structure CircuitVec where
  src : Nat
  val : Vec
  poisoned : Bool
  /-- The stores that are ordered before the send (R212; log entry 99). -/
  chain : Past := {}
  deriving DecidableEq, Repr

/-- What an entry of a send buffer sends (R230, R231). -/
inductive Send where
  | vector (target : Nat) (val : Vec) (clock : Nat)
  | multicast (off first count : Nat) (mask : Word) (val : Vec) (clock : Nat)
  deriving DecidableEq, Repr

/-- An entry of a send buffer, with the sequencer that sent it and its place in that sequencer's trigger order
(R212). -/
structure SendEntry where
  send : Send
  q : Nat
  order : Nat
  chain : Past := {}
  /-- `chain` has the sequencer's own stores before it: a later one has merged. -/
  sealed : Bool := false
  deriving DecidableEq, Repr

/-- A vector on its way to a receive queue. -/
structure Flight where
  src : Nat
  target : Nat
  val : Vec
  /-- The clock it departed in, and the one it lands in. -/
  left : Nat
  clock : Nat
  poisoned : Bool
  chain : Past := {}
  deriving DecidableEq, Repr

/-- A multicast store on its way: the clock at whose end it lands (R231). -/
structure McstFlight where
  src : Nat
  targets : List Nat
  off : Nat
  mask : Word
  val : Vec
  /-- The clock it departed in. -/
  left : Nat
  clock : Nat
  poisoned : Bool
  deriving DecidableEq, Repr

/-- A remote atomic waiting at its target's bank for the end of the revolution (R222). -/
structure RemoteAtomic where
  src : Nat
  q : Nat
  order : Nat
  off : Nat
  op : AtomicOp
  a : Word
  b : Word
  /-- It was delivered poisoned (R205). -/
  bad : Bool := false
  /-- Position of its departure slot in the slot table. -/
  slot : Nat
  /-- The last clock of the revolution it departed in. -/
  closes : Nat
  deriving DecidableEq, Repr

/-- A core (R9, R13, R15). -/
structure Core where
  seqs : NMap Seq
  /-- LEASE (R16): q1 holds the unit; some sequencer holds it; the launch claims it. -/
  hold : BitVec 7
  held : BitVec 7
  claim : BitVec 7
  /-- What `hold` and `held` become at the end of the clock (R19, R25). -/
  nextHold : BitVec 7
  nextHeld : BitVec 7
  vxo : Vec
  vxp : Vec
  mxo : Word
  tfo : Word
  cxo : Word
  kvo : Word
  /-- kv operations triggered on this core so far (R283). -/
  kvTurn : Nat
  epo : Word
  vxr : Port
  vxm : Port
  vxs : Port
  drain : Option Drain
  tiles : NMap Tile
  /-- Tiles whose ready tag is clear, and read claims (R167). -/
  notReady : NMap Bool
  claims : NMap Nat
  mxOps : List TileOp
  tfOps : List TileOp
  stopk : Option Stopk
  /-- Scratchpad and operand banks of the launch (R191). -/
  scratchBanks : Nat
  operandBanks : Nat
  spad : NMap Byte
  spadPoison : NMap Bool
  cache : List CacheLine
  useCount : Nat
  records : List (Nat × List Byte)
  /-- Order of the `ag.rfence` waiting for the accesses ahead of it: sequencer, epoch. -/
  rfences : List (Nat × Nat)
  /-- The fences that the read which filled a record's entry came after (R123). -/
  refills : NMap (List (Nat × Nat))
  circuit : List CircuitVec
  circuitCap : Nat
  sends : List SendEntry
  atomics : List RemoteAtomic
  lost : Nat
  /-- The sequencers granted issue in this clock (R23). -/
  grants : List Nat
  /-- In a clock, the slots to and from slices of the die that have carried a transfer (R315), and what has been applied at
  the core's own banks, with sequencer, clock of trigger and order number (R222). -/
  slotsUsed : Nat × List Nat := (0, [])
  applied : Nat × List (Nat × Nat × Nat × Nat) := (0, [])
  launch : Option Nat
  /-- The launch that ran here last, whose leavings the core holds (R278). -/
  former : Option Nat := none
  position : Nat
  deriving DecidableEq, Repr

/-- A line in a die's remote-line ways (R197). -/
structure RemoteLine where
  line : Nat
  way : Nat
  data : List Byte
  poisoned : List Nat
  pins : Nat
  used : Nat
  /-- How many stores had merged when its bytes were read at home (R211; log entry 99). -/
  asOf : Nat := 0
  deriving DecidableEq, Repr

/-- A line in a residency way of the slice that homes it: the pair whose weights it holds, and when it was last used (R305). -/
structure Resident where
  line : Nat
  way : Nat
  pair : Nat
  used : Nat
  deriving DecidableEq, Repr

/-- An entry of a die's barrier table (R223). -/
structure Barrier where
  gen : Nat
  taken : Bool
  parties : Nat
  count : Nat
  phase : Nat
  sig : BitVec 1024
  /-- The signature of each completed phase, by phase (R226). -/
  doneSigs : NMap (BitVec 1024)
  /-- What the arrivals so far hand on, and as it stood when each phase completed (R212, R226). -/
  arrivals : List Release
  doneArrivals : NMap (List Release)
  job : Option Nat
  deriving DecidableEq, Repr

/-- A die (R9, R252). -/
structure Die where
  queues : NMap (List Nat)
  priority : NMap Nat
  drainUs : Nat
  killK : Nat
  lastQueue : Nat
  remways : Nat
  remote : List RemoteLine
  /-- Lines homed on the die that its residency ways hold, and lines that were used in this clock (R305). -/
  residents : List Resident
  homeUses : List Nat
  /-- The walks of the die that are under way (R203). -/
  walkers : List Walker
  /-- Signature stores, by slice, most recently used first (R216). -/
  sigs : NMap (List (Nat × BitVec 1024))
  barriers : NMap Barrier
  pool : Nat
  /-- The clock of the last accrual of tokens (R255). -/
  accrued : Nat
  clockMHz : Nat
  /-- When the clock was last stepped: the time that had passed by then, in parts of a microsecond (Die.timeAt),
  and the clock (R4, R338). -/
  timeBase : Nat
  steppedAt : Nat
  corrected : Nat
  deriving DecidableEq, Repr

/-- A page captured by a digest region (R235): region key, first record address. -/
structure Captured where
  region : Nat
  dbase : Nat
  deriving DecidableEq, Repr

/-- A registered digest region (R234, R249), keyed by ASID × 256 + index. -/
structure Region where
  /-- The number of its registration. -/
  serial : Nat
  base : Nat
  length : Nat
  etype : Nat
  kind : Nat
  seed : BitVec 32
  dbase : Nat
  /-- The physical page of each 64 KiB of the region. -/
  pages : List Nat
  deriving DecidableEq, Repr

/-- A digest record (R236). -/
structure DigestRec where
  payload : BitVec 96
  stamp : BitVec 16
  valid : Bool
  kind : BitVec 4
  poisoned : Bool
  deriving DecidableEq, Repr

/-- A start vector (R250). -/
structure StartVec where
  image : Nat
  header : Nat
  queue : Nat
  dies : Nat
  arg : Word
  graph : Nat
  lnum : Nat
  gsize : Nat
  deps : Nat
  succ : List Nat
  policy : Nat
  phase : Nat
  pgraphs : Nat
  jphases : Nat
  job : Nat
  ckpt : Nat
  reserved : Bool
  deriving DecidableEq, Repr

/-- A launch header (R331). -/
structure Header where
  cores : Nat
  opbanks : Nat
  claim : BitVec 7
  scratch : Nat
  remtime : Nat
  killable : Bool
  idempotent : Bool
  unitPolicy : Nat
  launchPolicy : Nat
  entries : List Nat
  reserved : Bool
  entriesOk : Bool
  deriving DecidableEq, Repr

/-- The status a level completes with (R29). -/
inductive Status where
  | ok | absorbed | failed
  deriving DecidableEq, Repr

/-- The first failure of a level: its cause, core and sequencer (R29). -/
structure Failure where
  cause : Cause
  core : Nat
  q : Nat
  deriving DecidableEq, Repr

/-- What a completion record reports as its cause (R29, R208, R251). -/
inductive EndCause where
  | none
  | trap (c : Cause)
  | launchVector
  | launchBanks
  deriving DecidableEq, Repr

/-- A completion record posted to the host (R29). -/
structure Record where
  level : Level
  id : Nat
  status : Status
  cause : EndCause
  core : Nat
  q : Nat
  kills : Nat
  deriving DecidableEq, Repr

inductive LaunchState where
  | queued | running | saved | restoring | complete
  deriving DecidableEq, Repr

/-- The context of one core in a bay checkpoint (R262). -/
structure SavedCore where
  position : Nat
  core : Core
  deriving DecidableEq, Repr

/-- What becomes of a launch when its last unit completes: completion, a restart on the same bays
(R39), the head of its queue after a kill (R259), or its queue's end for a restarted graph, phase or
job (R39); or nothing, for a child whose parent a restarted level starts again (R39, R232). -/
inductive OnEmpty where
  | complete | restart | requeueHead | requeueTail | discard
  deriving DecidableEq, Repr

/-- A launch (R27, R250 to R263). -/
structure Launch where
  vec : StartVec
  hdr : Header
  asid : Nat
  /-- Where the image's code stands (R330). -/
  codeVa : Nat
  state : LaunchState
  die : Nat
  bays : List Nat
  /-- Core of each position. -/
  cores : List Nat
  counter : Nat
  tokens : Nat
  kills : Nat
  retries : Nat
  started : Nat
  failure : Option Failure
  isFailed : Bool
  isAbsorbed : Bool
  cancelled : Bool
  /-- The failure was absorbed by the parent under its ignore policy (R29). -/
  excused : Bool
  /-- What happens when the last unit has completed. -/
  onEmpty : OnEmpty
  /-- A checkpoint request and the time of its die it was made at (R260). -/
  ckpt : Option Nat
  /-- A drain decided for a candidate, and the time of its die at the decision (R258). -/
  drain : Option Nat
  /-- A checkpoint for this candidate was withdrawn; the decision waits for its next token (R260). -/
  holdOff : Bool
  /-- The candidate that this victim makes room for. -/
  forLaunch : Option Nat
  saved : List SavedCore
  spilled : Nat
  /-- Bays that its victims have left for it (R258, R261). -/
  keptBays : List Nat := []
  /-- Why the vector was rejected, for a launch that counts all the same (R208, R232). -/
  error : EndCause
  /-- A communication step is in progress, from a clock on (R228). -/
  stepping : Option Nat
  usedCircuits : Bool
  blockedFrom : Option Nat
  enlarged : Nat
  /-- For a child, the lines that it starts with as acquired from its parent, hashed (R232). -/
  parentSig : Option (BitVec 1024)
  /-- For a child, the stores that are ordered before its start (R212, R232; log entry 99). -/
  parentPast : Past := {}
  deriving DecidableEq, Repr

/-- A graph, phase or job (R27, R251). -/
structure LevelRec where
  counter : Nat
  size : Nat
  policy : Nat
  parent : Nat
  retries : Nat
  failure : Option Failure
  isFailed : Bool
  isAbsorbed : Bool
  cancelled : Bool
  excused : Bool
  complete : Bool
  /-- Graph: decrements received, and launch numbers whose predecessor failed (R253). -/
  decs : NMap Nat
  broken : NMap Bool
  /-- Graph: phase, phase size, job, job size, checkpoint word, policies, as its vectors give them (R251). -/
  vec : Option StartVec
  /-- The number of the launch that opened this instance of the level. -/
  first : Nat
  /-- Address space of its image, for the checkpoint word (R264). -/
  asid : Nat
  /-- Phase: the checkpoint release is performed and the record is due (R264). -/
  posting : Bool
  /-- Phase: the stores that its units follow (R264). -/
  past : Past := {}
  deriving DecidableEq, Repr

/-- A loaded image (R330, R333). -/
structure Image where
  asid : Nat
  va : Nat
  bytes : List Byte
  deriving DecidableEq, Repr

/-- The states of a replica slot (R296). -/
inductive SlotState where
  | absent | live | retiring | copying
  deriving DecidableEq, Repr

/-- A replica slot as Trestle holds it (R296). -/
structure Slot where
  state : SlotState
  redir : Nat
  inflight : Nat
  dispatched : Nat
  deriving DecidableEq, Repr

/-- Where a plan stands (R298): a line of a copy to be written, or read back; a record to be mirrored; the release; the
switch. -/
inductive PlanStep where
  | copy (i line : Nat)
  | verify (i line : Nat)
  | mirror (i : Nat)
  | release
  | switch
  deriving DecidableEq, Repr

/-- A plan of Trestle (R297): slots to copy, slots to retire with their redirections; where it stands, and the slots
whose copy has failed with the kind of the event (R295, R298). -/
structure Plan where
  copies : List (Nat × Nat)
  retires : List (Nat × Nat × Nat)
  step : PlanStep := .copy 0 0
  failed : List (Nat × Nat × Nat) := []
  deriving DecidableEq, Repr

/-- Trestle (R295). -/
structure Trestle where
  en : Bool
  tune : Bool
  win : Nat
  asid : Nat
  hi : Nat
  lo : Nat
  tbase : Nat
  version : Nat
  events : Nat
  res : List Nat
  logbase : Nat
  loads : NMap Nat
  slots : NMap Slot
  windowEnd : Nat
  plan : Option Plan
  /-- The stores that the release of the last publication follows (R298, R306). -/
  published : Past := {}
  /-- Counts sent by `ep.hist` and not yet arrived (R294). -/
  arriving : List (Nat × Nat)
  /-- Pairs with an `ep.grad` triggered and not merged (R304). -/
  grads : List Nat
  deriving DecidableEq, Repr

/-- What a request has read and made for its destination: the first address, and the bytes with their poison (R310). -/
structure EngineUnit where
  dst : Nat
  out : List (Byte × Bool)
  deriving DecidableEq, Repr

/-- A request under way (R310 to R314): its bytes and the rounding mode of its kick; what it has read and not written;
how far its reads and its writes have come. -/
structure EngineWork where
  index : Nat
  req : List Byte
  rm : Nat
  /-- Source and destination overlap otherwise than R310 allows: what it writes is undefined. -/
  clash : Bool
  /-- Units read, the source bytes of a stream of chunks, and the destination bytes they make. -/
  next : Nat
  pos : Nat
  made : Nat
  /-- Nothing more is read, and the status of that. -/
  ending : Option Nat
  units : List EngineUnit
  /-- The lines below this one are written. -/
  line : Nat
  bad : Bool
  src : Nat
  dst : Nat
  flags : BitVec 7
  deriving DecidableEq, Repr

/-- A ring of an address space as its engine holds it (R308, R309, R313). -/
structure Ring where
  running : Bool
  again : Bool
  rm : Nat
  nextRm : Nat
  die : Nat
  completed : Nat
  /-- TAIL as the current run has read it. -/
  tail : Option Nat
  work : Option EngineWork
  /-- A request that has run and whose completion record is due: bytes read, bytes written, status, flags. -/
  finished : Option (Nat × Nat × Nat × Nat)
  /-- How much of the completion is written: the record, then SEQ, then HEAD (R313). -/
  told : Nat := 0
  deriving DecidableEq, Repr

/-- A link, as its receiver and sender see it (R319). -/
structure Link where
  expected : Nat
  resends : Nat
  up : Bool
  errors : Nat
  deriving DecidableEq, Repr

/-- The bundle being issued: whose it is, and what waits for the end of its cycle (R65, R80, R131). -/
structure Issue where
  core : Nat
  q : Nat
  addr : Word
  slot : Nat
  /-- The header's extension of each slot (R49, R50). -/
  ext : List (Option (BitVec 8))
  /-- The predicate registers as they stood at the start of the cycle (R65, R111). -/
  preds : NMap Word
  /-- The order number of the queues at the start of the cycle (R65). -/
  order : Nat
  /-- The pop source that the current slot has read, and what it delivered; the pop stands once the slot
  commits (R57, R65). -/
  popped : Option (Nat × Value)
  /-- The stores that are ordered before the send of a popped vector (R212). -/
  taken : Past := {}
  /-- The order number of the queues at that pop. -/
  takenAt : Nat := 0
  /-- Where slot 3 sends the sequencer, when it sets the next bundle (R88). -/
  next : Option Word
  /-- The bundle goes on to its next slot. -/
  live : Bool
  deriving DecidableEq, Repr

/-- The package and its host side. -/
structure State where
  clock : Nat
  /-- What the outside world does, and from which clock on (the host interface of INVENTORY.md). -/
  inputs : List (Nat × Instr)
  choices : Nat
  free : Nat
  cur : Issue
  cores : NMap Core
  dies : NMap Die
  mem : NMap Byte
  /-- Poisoned sectors of memory, by sector index (R206). -/
  poison : NMap Bool
  /-- Sectors merged since the last cold reset, whose L2 copy may not have reached HBM (R195, R335). -/
  dirty : NMap Bool
  digbase : Word
  regions : NMap (Option Region)
  captured : NMap (Option Captured)
  /-- Registrations made so far. -/
  serial : Nat
  /-- Digest records, by the address of the line that each summarises (R236). -/
  digests : NMap DigestRec
  /-- Lines whose record has changed since it was last written to its backing store (R242). -/
  unsaved : NMap Bool
  /-- Places of records, by the number of their 16 bytes, that lie in a poisoned sector and have been written anew since
  (R206, R242). -/
  renewed : NMap Bool
  /-- Words whose latest store was a release, and what it hands on (R213, R219). -/
  released : NMap (Option Release)
  /-- What the atomics on each word so far hand on to a later one (R212; log entry 99). -/
  linked : NMap Past
  /-- Stores that have merged so far (R209, R211; log entry 99). -/
  merges : Nat
  /-- What each party hands on beside what it has taken over: a sequencer its own stores, and at the end of a superstep those
  of its group; the host, Trestle and each ring what they have written (R212, R219, R228; log entry 99). -/
  ownStores : NMap Past
  /-- Invalidations by the host: address space, all or one address, and the sequencers that have still to drop (R204). -/
  hostDrops : List (Nat × Bool × Nat × List (Nat × Nat))
  flights : List Flight
  mcasts : List McstFlight
  images : NMap (Option Image)
  nextLaunch : Nat
  launches : NMap (Option Launch)
  graphs : NMap (Option LevelRec)
  phases : NMap (Option LevelRec)
  jobs : NMap (Option LevelRec)
  posted : List Record
  /-- Launches reported saved (R261). -/
  savedReports : List Nat
  hostReads : List (List Byte)
  ctxbase : Word
  featOff : BitVec 256
  featAcc : BitVec 256
  featBound : Bool
  reports : List (BitVec 1280)
  trestle : Trestle
  rings : NMap (Option Ring)
  links : NMap Link
  /-- The signed configuration selects the periodic drain of R317. -/
  drainConfig : Bool
  thermalReports : List Nat
  deriving DecidableEq, Repr

/-! ### Reset -/

def Value.zero : Value := .s 0

def zeroVec : Vec := List.replicate 64 0

def Port.init (v : Value) : Port := { cur := { trig := 0, vis := 0, val := v }, queue := [] }

def OpPorts.init : OpPorts :=
  { ia0o := 0, ia1o := 0, imo := 0, imp := 0, plo := 0, lqa := 0, lqb := 0, sqo := 0, ago := 0,
    dgo := zeroVec, syo := 0, syp := 0, cro := 0 }

def ResPorts.init : ResPorts :=
  { ia0r := Port.init (.s 0), ia1r := Port.init (.s 0), imr := Port.init (.s 0),
    imh := Port.init (.s 0), plr := Port.init (.p 0), crr := Port.init (.s 0) }

def Stream.init : Stream :=
  { base := 0, fmt := 0, mode := 0, rows := 0, cols := 0, rstride := 0, sstride := 0, kvseq := 0,
    pos := 0, page := none, frame := none }

def Trace.init : Trace := { outcomes := 0, count := 0, stallFrom := none }

/-- A sequencer that has not been started: every register as R32 starts it. -/
def Seq.init : Seq :=
  { run := .idle, sregs := [], vregs := [], pregs := [], streams := [], countQueue := [],
    loads := [], stores := [], loops := [], pc := 0, slot := 0, hold := none, recordBuf := none,
    walks := [], done := false, kvLeft := none, kvRead := [], kvPlaces := [], faultOrder := none, start := none, cycle := 1, ports := OpPorts.init, results := ResPorts.init,
    late := [], lateFlags := 0, clockFlags := (0, 0), shadow := none, shadowLate := [], shadowFlags := 0, handler := false, handlerLoads := [], handlerLoops := [], handlerCycle := 0,
    cause := .other 0, rslot := 0, step := false, defer := false, clrHead := false, fpage := 0,
    headRecord := none, xpc := 0, fpctl := 0, trapvec := 0, remtime := 0, tracectl := 0, asid := 0,
    trace := Trace.init, stepping := false, pending := [], budget := none, rsig := 0, chain := {},
    arrival := none, lastVersion := none, order := 0, epoch := 0, invEpoch := 0, dfence := 0, tlb := [],
    entry := 0, stepDone := false, stepJoin := false, restart := false, unitFailed := false, unitAbsorbed := false,
    unitRetries := 0 }

def Tile.init : Tile :=
  { state := .empty, fmt := 0, rows := 0, cols := 0, bdir := false, data := [], src := [],
    lines := [], copies := [], granules := 0, bad := [] }

/-- A core that no launch has been placed on: the default bank roles (R191). -/
def Core.init : Core :=
  { seqs := [], hold := 0, held := 0, claim := 0, nextHold := 0, nextHeld := 0, vxo := zeroVec,
    vxp := zeroVec, mxo := 0, tfo := 0, cxo := 0, kvo := 0, kvTurn := 0, epo := 0,
    vxr := Port.init (.v zeroVec), vxm := Port.init (.p 0), vxs := Port.init (.s 0), drain := none,
    tiles := [], notReady := [], claims := [], mxOps := [], tfOps := [], stopk := none,
    scratchBanks := 0, operandBanks := 2, spad := [], spadPoison := [], cache := [], useCount := 0,
    records := [], rfences := [], refills := [], circuit := [], circuitCap := 16, sends := [], atomics := [],
    lost := 0, grants := [], launch := none, position := 0 }

def Barrier.init : Barrier :=
  { gen := 0, taken := false, parties := 0, count := 0, phase := 0, sig := 0, doneSigs := [], arrivals := [], doneArrivals := [], job := none }

def Die.init : Die :=
  { queues := [], priority := [], drainUs := 50, killK := 16, lastQueue := 63, remways := 0,
    remote := [], residents := [], homeUses := [], walkers := [], sigs := [], barriers := [], pool := Config.poolSteps, accrued := 0,
    clockMHz := 2250, timeBase := 0, steppedAt := 0, corrected := 0 }

def DigestRec.init : DigestRec := { payload := 0, stamp := 0, valid := false, kind := 0, poisoned := false }

def Slot.init : Slot := { state := .absent, redir := 0, inflight := 0, dispatched := 0 }

def Trestle.init : Trestle :=
  { en := false, tune := false, win := 16, asid := 0, hi := 0xFFFFFFFF, lo := 0, tbase := 0,
    version := 0, events := 0, res := [0, 0, 0, 0], logbase := 0, loads := [], slots := [],
    windowEnd := 0, plan := none, arriving := [], grads := [] }

def Link.init : Link := { expected := 0, resends := 0, up := true, errors := 0 }

def Issue.init : Issue :=
  { core := 0, q := 0, addr := 0, slot := 0, ext := [], preds := [], order := 0, popped := none, next := none, live := false }

/-- The package right after a reset whose boot succeeded (R335): nothing loaded, nothing running, the
feature vector not yet accepted. -/
def State.reset : State :=
  { clock := 0, inputs := [], choices := 0, free := 0, cur := Issue.init, cores := [], dies := [],
    mem := [], poison := [], dirty := [], digbase := 0, regions := [], captured := [], serial := 0,
    digests := [], unsaved := [], renewed := [], released := [], linked := [], merges := 0, ownStores := [], hostDrops := [], flights := [], mcasts := [], images := [], nextLaunch := 1, launches := [],
    graphs := [], phases := [], jobs := [], posted := [], savedReports := [], hostReads := [],
    ctxbase := 0, featOff := 0x7F, featAcc := 0, featBound := false,
    reports := [], trestle := Trestle.init, rings := [], links := [],
    drainConfig := false, thermalReports := [] }

end Sys2Proof.Machine
end

