-- ==== Sys2Proof/Machine/Access.lean ====
section
/-! DEFINITION. One way in and out of every table of the state: cores, sequencers, dies, registers,
launches and levels, and the free values. -/
namespace Sys2Proof.Machine

/-! ### Tables -/

def State.core (s : State) (c : Nat) : Core := mapGet Core.init s.cores c
def State.setCore (s : State) (c : Nat) (k : Core) : State := { s with cores := mapInsert c k s.cores }
def State.modCore (s : State) (c : Nat) (f : Core → Core) : State := s.setCore c (f (s.core c))

def Core.seq (k : Core) (q : Nat) : Seq := mapGet Seq.init k.seqs q
def Core.setSeq (k : Core) (q : Nat) (x : Seq) : Core := { k with seqs := mapInsert q x k.seqs }

def State.seq (s : State) (c q : Nat) : Seq := (s.core c).seq q
def State.setSeq (s : State) (c q : Nat) (x : Seq) : State := s.setCore c ((s.core c).setSeq q x)
def State.modSeq (s : State) (c q : Nat) (f : Seq → Seq) : State := s.setSeq c q (f (s.seq c q))

def State.die (s : State) (d : Nat) : Die := mapGet Die.init s.dies d
def State.modDie (s : State) (d : Nat) (f : Die → Die) : State :=
  { s with dies := mapInsert d (f (s.die d)) s.dies }

def State.launch (s : State) (id : Nat) : Option Launch := mapGet none s.launches id
def State.setLaunch (s : State) (id : Nat) (l : Launch) : State :=
  { s with launches := mapInsert id (some l) s.launches }
def State.modLaunch (s : State) (id : Nat) (f : Launch → Launch) : State :=
  match s.launch id with
  | some l => s.setLaunch id (f l)
  | none => s

/-- The table of a level above the launch; the others have none. -/
def State.levels (s : State) : Level → NMap (Option LevelRec)
  | .graph => s.graphs
  | .phase => s.phases
  | .job => s.jobs
  | .unit | .launch => []
def State.level (s : State) (v : Level) (id : Nat) : Option LevelRec := mapGet none (s.levels v) id
def State.setLevel (s : State) (v : Level) (id : Nat) (r : LevelRec) : State :=
  match v with
  | .graph => { s with graphs := mapInsert id (some r) s.graphs }
  | .phase => { s with phases := mapInsert id (some r) s.phases }
  | .job => { s with jobs := mapInsert id (some r) s.jobs }
  | .unit | .launch => s
def State.modLevel (s : State) (v : Level) (id : Nat) (f : LevelRec → LevelRec) : State :=
  match s.level v id with
  | some r => s.setLevel v id (f r)
  | none => s

/-- The cores that some launch has ever touched: the keys of the table. -/
def State.coreIds (s : State) : List Nat := s.cores.map (·.1)
def State.launchIds (s : State) : List Nat := s.launches.map (·.1)

/-- Parts of a microsecond: a clock at 250 × n MHz, for n from 4 to 9, is a whole number of them. -/
def microParts : Nat := 630000
/-- A number of microseconds. -/
def micros (us : Nat) : Nat := us * microParts
/-- The time that has passed on a die by a clock, in parts of a microsecond (R4, R338). -/
def Die.timeAt (d : Die) (clock : Nat) : Nat := d.timeBase + (clock - d.steppedAt) * (microParts / d.clockMHz)
/-- The die's arithmetic clock is stepped to a rate; the time that has passed stays as it is (R4, R338). -/
def Die.stepClock (d : Die) (clock mhz : Nat) : Die :=
  { d with clockMHz := mhz, timeBase := d.timeAt clock, steppedAt := clock }

/-- The die, and the bay of the package, of a core (R9). -/
def dieOf (c : Nat) : Nat := c / 128
def bayOf (c : Nat) : Nat := c / 16

/-! ### Free values -/

/-- A fresh undefined class-S or class-P value (R8). -/
def State.freshWord (s : State) : Word × State := (Config.freeWord s.free, { s with free := s.free + 1 })
/-- A fresh undefined vector: lane i from a counter of its own. -/
def State.freshVec (s : State) : Vec × State :=
  ((List.range 64).map fun i => Config.freeLane (s.free + i), { s with free := s.free + 64 })
def State.freshBytes (s : State) (n : Nat) : List Byte × State :=
  ((List.range n).map fun i => Config.freeByte (s.free + i), { s with free := s.free + n })
/-- The greater of two numbers at each place. -/
def maxEach : List Nat → List Nat → List Nat
  | [], b => b
  | a, [] => a
  | x :: a, y :: b => max x y :: maxEach a b

/-- Both of two tables, with the greater numbers where a key is in both; `fuel` for one step per entry. -/
def mapMax : Nat → NMap (List Nat) → NMap (List Nat) → NMap (List Nat)
  | 0, a, b => a ++ b
  | _ + 1, [], b => b
  | _ + 1, a, [] => a
  | fuel + 1, x :: a, y :: b =>
    if x.1 < y.1 then x :: mapMax fuel a (y :: b)
    else if y.1 < x.1 then y :: mapMax fuel (x :: a) b
    else (x.1, maxEach x.2 y.2) :: mapMax fuel a b

/-- The stores of both (R212; log entry 99). -/
def Past.join (a b : Past) : Past := { stores := mapMax (a.stores.length + b.stores.length) a.stores b.stores }

/-- The key of a sector that a core has stored to. -/
def storeKey (core sector : Nat) : Nat := sector * 1024 + core

/-- A store of a core with the number of its merge. -/
def pastOf (core n pa : Nat) (bs : List (Option Byte)) : Past :=
  { stores := ((List.range ((pa % 32 + bs.length + 31) / 32)).map (pa / 32 + ·)).filterMap fun k =>
      let marks := (List.range 32).map fun i => if pa ≤ 32 * k + i && (bs.getD (32 * k + i - pa) none).isSome then n else 0
      if marks.all (· == 0) then none else some (storeKey core k, marks) }

/-- The parties by number: sequencer `q` of core `c` is 2c + q; then the host, Trestle, and each ring by its key.  All but
sequencers store as one core that keeps no copies. -/
abbrev hostParty : Nat := 1024
abbrev trestleParty : Nat := 1025
def ringParty (key : Nat) : Nat := 2048 + key
abbrev agentCore : Nat := 1023

/-- What a party hands on of its own. -/
def State.ownPast (s : State) (party : Nat) : Past := mapGet {} s.ownStores party
def State.addOwn (s : State) (party : Nat) (g : Past) : State :=
  { s with ownStores := mapSet {} s.ownStores party ((s.ownPast party).join g) }

/-- The store that has merged last is one of the host, of Trestle or of a ring (R212; log entry 99). -/
def State.noteAgent (s : State) (party pa : Nat) (bs : List (Option Byte)) : State := s.addOwn party (pastOf agentCore s.merges pa bs)

/-- What a sequencer has written. -/
def State.writtenBy (s : State) (c q : Nat) : Past := s.ownPast (2 * c + q)

/-- What a sequencer hands on with what follows `g` in its order (R212; log entry 99). -/
def State.past (s : State) (c q : Nat) (g : Past) : Past := g.join (s.writtenBy c q)

/-- What a send's vector carries: the stores before it, when it departs or when a later one has merged. -/
def State.pastOfSend (s : State) (c : Nat) (e : SendEntry) : Past := if e.sealed then e.chain else s.past c e.q e.chain

/-- The place of a store of a sequencer in merge order is known: it is before what the sequencer hands on from now on,
and not before the sends that were triggered earlier (R212; log entry 99). -/
def State.noteStore (s : State) (c q order pa : Nat) (bs : List (Option Byte)) : State :=
  let close := fun (e : SendEntry) => if e.q = q && e.order < order && !e.sealed then { e with chain := s.past c q e.chain, sealed := true } else e
  let t := if (s.core c).sends.isEmpty then s else s.modCore c fun k => { k with sends := k.sends.map close }
  t.addOwn (2 * c + q) (pastOf c s.merges pa bs)

/-- The next open choice. -/
def State.nextChoice (s : State) : Nat × State := (Config.choice s.choices, { s with choices := s.choices + 1 })

/-! ### Registers (R11, R56, R58) -/

def Seq.sreg (x : Seq) (n : Nat) : Word := mapGet 0 x.sregs n
def Seq.setSreg (x : Seq) (n : Nat) (w : Word) : Seq := { x with sregs := mapSet 0 x.sregs n w }
def Seq.vreg (x : Seq) (n : Nat) : Vec := mapGet zeroVec x.vregs n
def Seq.setVreg (x : Seq) (n : Nat) (v : Vec) : Seq := { x with vregs := mapSet zeroVec x.vregs n v }
/-- A store of the sequencer may write a line: its bit in RSIG (R215). -/
def Seq.sign (x : Seq) (bit : BitVec 1024) : Seq := { x with rsig := x.rsig ||| bit }
/-- p0 reads as all ones (R11). -/
def pregIn (ps : NMap Word) (n : Nat) : Word := if n = 0 then Word.ones else mapGet 0 ps n
def Seq.preg (x : Seq) (n : Nat) : Word := pregIn x.pregs n
/-- Writes of p0 are discarded (R11, R58). -/
def Seq.setPreg (x : Seq) (n : Nat) (w : Word) : Seq :=
  if n = 0 then x else { x with pregs := mapSet 0 x.pregs n w }
def Seq.stream (x : Seq) (n : Nat) : Stream := mapGet Stream.init x.streams n
def Seq.setStream (x : Seq) (n : Nat) (d : Stream) : Seq := { x with streams := mapSet Stream.init x.streams n d }

/-- The loop stack in force: the handler's own in handler mode (R89). -/
def Seq.loopStack (x : Seq) : List LoopEntry := if x.handler then x.handlerLoops else x.loops
def Seq.setLoopStack (x : Seq) (l : List LoopEntry) : Seq :=
  if x.handler then { x with handlerLoops := l } else { x with loops := l }

/-- The cycle that visibility is counted in: the program's, or in handler mode the handler's bundles (R67, R271). -/
def Seq.now (x : Seq) : Nat := if x.handler then x.handlerCycle else x.cycle

/-- The load queue in force (R100). -/
def Seq.loadQueue (x : Seq) : List LoadEntry := if x.handler then x.handlerLoads else x.loads
def Seq.setLoadQueue (x : Seq) (l : List LoadEntry) : Seq :=
  if x.handler then { x with handlerLoads := l } else { x with loads := l }

/-! ### Lanes and bytes -/

def lane (v : Vec) (i : Nat) : Lane := v.getD i 0
def mkVec (f : Nat → Lane) : Vec := (List.range 64).map f

/-- Little-endian (R5). -/
def leNat : List Byte → Nat
  | [] => 0
  | b :: bs => b.toNat + 256 * leNat bs
def natBytes : Nat → Nat → List Byte
  | 0, _ => []
  | k + 1, n => BitVec.ofNat 8 n :: natBytes k (n / 256)
/-- Bits [hi:lo] of a number. -/
def bits (n hi lo : Nat) : Nat := n / 2 ^ lo % 2 ^ (hi + 1 - lo)
def bitAt (n i : Nat) : Bool := n / 2 ^ i % 2 == 1
/-- Bytes of a byte string as a number: `k` bytes from byte `i`. -/
def field (bs : List Byte) (i k : Nat) : Nat := leNat ((bs.drop i).take k)

/-! ### Leases (R16) -/

inductive UnitId where
  | ia0 | ia1 | im | pl | lq | sq | ag | dg | sy | cr | vx | mx | tf | cx | kv | ep | xk
  deriving DecidableEq, Repr

/-- The LEASE bit of a leasable unit (R13). -/
def UnitId.leaseBit : UnitId → Option Nat
  | .vx => some 0
  | .mx => some 1
  | .tf => some 2
  | .cx => some 3
  | .kv => some 4
  | .ep => some 5
  | .xk => some 6
  | _ => none

/-- Whether sequencer `q` holds the unit of a LEASE bit (R13, R17). -/
def Core.holds (k : Core) (q bit : Nat) : Bool :=
  k.claim.getLsbD bit && k.held.getLsbD bit && (k.hold.getLsbD bit == (q == 1))

/-- Sequencer `q` may reach the unit (R14, R270). -/
def Core.owns (k : Core) (q : Nat) (u : UnitId) : Bool :=
  match u.leaseBit with
  | none => true
  | some b => k.holds q b && !(k.seq q).handler

end Sys2Proof.Machine
end

