-- ==== Sys2Proof/Machine/Float.lean ====
section
/-! DEFINITION. The IEEE formats and rounding (R125 to R133, R150): exact dyadic values, rounded once. -/
namespace Sys2Proof.Machine

/-- The rounding modes (R128). -/
inductive RM where
  | rne | rtz | rup | rdn | rna
  deriving DecidableEq, Repr

def RM.ofCode : Nat → RM
  | 0 => .rne
  | 1 => .rtz
  | 2 => .rup
  | 3 => .rdn
  | _ => .rna

/-- FPCTL's sticky flags, in the order of its bits [10:4] (R129). -/
abbrev Flags := BitVec 7

namespace Flag
def nv : Flags := 1
def dz : Flags := 2
def of : Flags := 4
def uf : Flags := 8
def nx : Flags := 16
def sat : Flags := 32
def recomb : Flags := 64
end Flag

/-- A value of an IEEE or HX format: a NaN, an infinity, or (−1)^neg × m × 2^e. -/
inductive FVal where
  | nan (signalling : Bool)
  | inf (neg : Bool)
  | fin (neg : Bool) (m : Nat) (e : Int)
  deriving DecidableEq, Repr

/-- A value with the flags its making raised. -/
abbrev Flagged (α : Type) := α × Flags

/-- An IEEE format (R125). -/
structure Fmt where
  ebits : Nat
  mbits : Nat
  bias : Int
  deriving DecidableEq, Repr

def Fmt.f32 : Fmt := { ebits := 8, mbits := 23, bias := 127 }
def Fmt.f16 : Fmt := { ebits := 5, mbits := 10, bias := 15 }
def Fmt.bf16 : Fmt := { ebits := 8, mbits := 7, bias := 127 }

def Fmt.expMax (f : Fmt) : Nat := 2 ^ f.ebits - 1
def Fmt.infBits (f : Fmt) : Nat := f.expMax * 2 ^ f.mbits
def Fmt.signBit (f : Fmt) : Nat := 2 ^ (f.ebits + f.mbits)
/-- The canonical NaN (R125). -/
def Fmt.nanBits (f : Fmt) : Nat := f.infBits + 2 ^ (f.mbits - 1)
/-- The largest finite magnitude. -/
def Fmt.maxBits (f : Fmt) : Nat := f.infBits - 1

/-- Read a bit pattern (R125). -/
def Fmt.read (f : Fmt) (w : Nat) : FVal :=
  let neg := w / f.signBit % 2 == 1
  let ex := w / 2 ^ f.mbits % 2 ^ f.ebits
  let frac := w % 2 ^ f.mbits
  if ex = f.expMax then
    if frac = 0 then .inf neg else .nan (frac / 2 ^ (f.mbits - 1) == 0)
  else if ex = 0 then .fin neg frac (1 - f.bias - f.mbits)
  else .fin neg (2 ^ f.mbits + frac) ((ex : Int) - f.bias - f.mbits)

/-- The number of bits of `n`. -/
def bitLen (n : Nat) : Nat := if n = 0 then 0 else Nat.log2 n + 1

/-- Round a magnitude m / 2^k, with a further nonzero part below every bit of it when `sticky`, to an
integer in mode `rm`: the integer, and whether it differs from the exact value (R128). -/
def roundMag (rm : RM) (neg : Bool) (m k : Nat) (sticky : Bool) : Nat × Bool :=
  let q := m / 2 ^ k
  let r := m % 2 ^ k
  let inexact := r != 0 || sticky
  let aboveHalf := 2 * r > 2 ^ k || (2 * r == 2 ^ k && sticky)
  let isHalf := 2 * r == 2 ^ k && !sticky
  let up := match rm with
    | .rne => aboveHalf || (isHalf && q % 2 == 1)
    | .rna => aboveHalf || isHalf
    | .rtz => false
    | .rup => inexact && !neg
    | .rdn => inexact && neg
  (if up then q + 1 else q, inexact)

/-- Round m × 2^e to a multiple of 2^qe: the multiplier, and whether it is inexact. -/
def roundAt (rm : RM) (neg : Bool) (m : Nat) (e qe : Int) (sticky : Bool) : Nat × Bool :=
  if qe ≤ e then roundMag rm neg (m * 2 ^ (e - qe).toNat) 0 sticky
  else roundMag rm neg m (qe - e).toNat sticky

/-- The bits an overflow delivers (R132). -/
def Fmt.overflow (f : Fmt) (rm : RM) (neg : Bool) : Nat :=
  let mag := match rm, neg with
    | .rne, _ | .rna, _ => f.infBits
    | .rtz, _ => f.maxBits
    | .rup, false | .rdn, true => f.infBits
    | .rup, true | .rdn, false => f.maxBits
  mag + if neg then f.signBit else 0

/-- Round (−1)^neg × m × 2^e (and a nonzero part below it when `sticky`) to the format, with its
overflow, underflow and inexact flags; tininess is detected after rounding (R132). -/
def Fmt.round (f : Fmt) (rm : RM) (neg : Bool) (m : Nat) (e : Int) (sticky : Bool := false) : Flagged Nat :=
  let sgn := if neg then f.signBit else 0
  if m = 0 && !sticky then (sgn, 0)
  else
    let top : Int := e + bitLen m - 1
    let emin : Int := 1 - f.bias
    let ex := max top emin
    let (q, inexact) := roundAt rm neg m e (ex - f.mbits) sticky
    let mag := (ex + f.bias - 1).toNat * 2 ^ f.mbits + q
    if mag ≥ f.infBits then (f.overflow rm neg, Flag.of ||| Flag.nx)
    else
      let wide := roundAt rm neg m e (top - f.mbits) sticky
      let tiny := top < emin && !(top == emin - 1 && wide.1 == 2 ^ (f.mbits + 1))
      (sgn + mag, (if inexact then Flag.nx else 0) ||| (if inexact && tiny then Flag.uf else 0))

/-- A value rounded into the format; a NaN becomes the canonical NaN and raises nothing here (R127). -/
def Fmt.write (f : Fmt) (rm : RM) : FVal → Flagged Nat
  | .nan _ => (f.nanBits, 0)
  | .inf neg => (f.infBits + (if neg then f.signBit else 0), 0)
  | .fin neg m e => f.round rm neg m e

/-- Align two dyadics: their signed multipliers of 2^(the lower exponent). -/
def alignInts (na : Bool) (ma : Nat) (ea : Int) (nb : Bool) (mb : Nat) (eb : Int) : Int × Int × Int :=
  let e := min ea eb
  let a : Int := ma * 2 ^ (ea - e).toNat
  let b : Int := mb * 2 ^ (eb - e).toNat
  (if na then -a else a, if nb then -b else b, e)

/-- The sign of an exact zero sum of two terms (R147). -/
def zeroSumSign (rm : RM) (na nb : Bool) : Bool := if na == nb then na else rm == .rdn

/-- NV for a signalling NaN among the operands (R127). -/
def snanFlag (xs : List FVal) : Flags :=
  if xs.any (fun x => x == .nan true) then Flag.nv else 0

def FVal.isNan : FVal → Bool
  | .nan _ => true
  | _ => false

def FVal.negate : FVal → FVal
  | .nan s => .nan s
  | .inf n => .inf (!n)
  | .fin n m e => .fin (!n) m e

/-- The exact sum, its zero signed as IEEE 754 signs it in mode `rm`, and the flags of R127. -/
def fAdd (rm : RM) : FVal → FVal → Flagged FVal
  | .nan a, .nan b => (.nan false, if a || b then Flag.nv else 0)
  | .nan a, _ => (.nan false, if a then Flag.nv else 0)
  | _, .nan b => (.nan false, if b then Flag.nv else 0)
  | .inf a, .inf b => if a == b then (.inf a, 0) else (.nan false, Flag.nv)
  | .inf a, _ => (.inf a, 0)
  | _, .inf b => (.inf b, 0)
  | .fin na ma ea, .fin nb mb eb =>
    let (a, b, e) := alignInts na ma ea nb mb eb
    let s := a + b
    if s = 0 then (.fin (if ma = 0 && mb = 0 then zeroSumSign rm na nb else rm == .rdn) 0 0, 0)
    else (.fin (s < 0) s.natAbs e, 0)

/-- The exact product and the flags of R127. -/
def fMul : FVal → FVal → Flagged FVal
  | .nan a, .nan b => (.nan false, if a || b then Flag.nv else 0)
  | .nan a, _ => (.nan false, if a then Flag.nv else 0)
  | _, .nan b => (.nan false, if b then Flag.nv else 0)
  | .inf a, .inf b => (.inf (a != b), 0)
  | .inf a, .fin b m _ => if m = 0 then (.nan false, Flag.nv) else (.inf (a != b), 0)
  | .fin a m _, .inf b => if m = 0 then (.nan false, Flag.nv) else (.inf (a != b), 0)
  | .fin na ma ea, .fin nb mb eb => (.fin (na != nb) (ma * mb) (ea + eb), 0)

/-- Round an exact value with the flags gathered so far. -/
def Fmt.finish (f : Fmt) (rm : RM) (x : Flagged FVal) : Flagged Nat :=
  let r := f.write rm x.1
  (r.1, r.2 ||| x.2)

def f32Of (w : Lane) : FVal := Fmt.f32.read w.toNat
def toLane (x : Flagged Nat) : Flagged Lane := (BitVec.ofNat 32 x.1, x.2)
def f32Nan : Lane := 0x7FC00000

def f32Add (rm : RM) (a b : Lane) : Flagged Lane := toLane (Fmt.f32.finish rm (fAdd rm (f32Of a) (f32Of b)))
def f32Sub (rm : RM) (a b : Lane) : Flagged Lane :=
  toLane (Fmt.f32.finish rm (fAdd rm (f32Of a) (f32Of b).negate))
def f32Mul (rm : RM) (a b : Lane) : Flagged Lane := toLane (Fmt.f32.finish rm (fMul (f32Of a) (f32Of b)))

/-- a × b + c with one rounding; 0 × ∞ raises NV whatever c holds (R147). -/
def f32Fma (rm : RM) (a b c : Lane) : Flagged Lane :=
  let p := fMul (f32Of a) (f32Of b)
  let s := fAdd rm p.1 (f32Of c)
  toLane (Fmt.f32.finish rm (s.1, s.2 ||| p.2))

/-- Compare two values, neither a NaN; −0 = +0. -/
def fCompare : FVal → FVal → Ordering
  | .inf a, .inf b => if a == b then .eq else if a then .lt else .gt
  | .inf a, _ => if a then .lt else .gt
  | _, .inf b => if b then .gt else .lt
  | .fin na ma ea, .fin nb mb eb =>
    let (a, b, _) := alignInts na ma ea nb mb eb
    compare a b
  | _, _ => .eq

def fIsNeg : FVal → Bool
  | .inf n => n
  | .fin n _ _ => n
  | .nan _ => false

/-- The lesser or the greater of two f32 (R148): −0 below +0, a NaN gives the canonical NaN. -/
def f32MinMax (wantMax : Bool) (a b : Lane) : Flagged Lane :=
  let x := f32Of a
  let y := f32Of b
  if x.isNan || y.isNan then (f32Nan, snanFlag [x, y])
  else
    let aLess := match fCompare x y with
      | .lt => true
      | .gt => false
      | .eq => fIsNeg x && !fIsNeg y
    (if aLess != wantMax then a else if aLess then b else if wantMax then a else b, 0)

/-- The integer square root, bit by bit from `2^i` down. -/
def isqrtFrom (n : Nat) : Nat → Nat → Nat
  | 0, r => if (r + 1) * (r + 1) ≤ n then r + 1 else r
  | i + 1, r => isqrtFrom n i (if (r + 2 ^ (i + 1)) * (r + 2 ^ (i + 1)) ≤ n then r + 2 ^ (i + 1) else r)

def isqrt (n : Nat) : Nat := isqrtFrom n ((bitLen n + 1) / 2) 0

/-- 1 / b, rounded once (R150). -/
def f32Rcp (rm : RM) (b : Lane) : Flagged Lane :=
  match f32Of b with
  | .nan s => (f32Nan, if s then Flag.nv else 0)
  | .inf n => (if n then 0x80000000 else 0, 0)
  | .fin n m e =>
    if m = 0 then (if n then 0xFF800000 else 0x7F800000, Flag.dz)
    else
      let k := bitLen m + 64
      toLane (Fmt.f32.round rm n (2 ^ k / m) (-e - k) (2 ^ k % m != 0))

/-- √b, rounded once (R150). -/
def f32Sqrt (rm : RM) (b : Lane) : Flagged Lane :=
  match f32Of b with
  | .nan s => (f32Nan, if s then Flag.nv else 0)
  | .inf n => if n then (f32Nan, Flag.nv) else (b, 0)
  | .fin n m e =>
    if m = 0 then (b, 0)
    else if n then (f32Nan, Flag.nv)
    else
      let m2 := if e % 2 = 0 then m * 2 ^ 64 else m * 2 ^ 65
      let e2 := if e % 2 = 0 then e - 64 else e - 65
      let r := isqrt m2
      toLane (Fmt.f32.round rm false r (e2 / 2) (r * r != m2))

/-- 1 / √b, rounded once (R150). -/
def f32Rsqrt (rm : RM) (b : Lane) : Flagged Lane :=
  match f32Of b with
  | .nan s => (f32Nan, if s then Flag.nv else 0)
  | .inf n => if n then (f32Nan, Flag.nv) else (0, 0)
  | .fin n m e =>
    if m = 0 then (if n then 0xFF800000 else 0x7F800000, Flag.dz)
    else if n then (f32Nan, Flag.nv)
    else
      let m2 := if e % 2 = 0 then m else m * 2
      let e2 := if e % 2 = 0 then e else e - 1
      let k := bitLen m2 + 64
      let r := isqrt (2 ^ (2 * k) / m2)
      toLane (Fmt.f32.round rm false r (-(k : Int) - e2 / 2) (r * r * m2 != 2 ^ (2 * k)))

/-- Working precision of `exp2Frac` and `log2Frac`, in bits below the point. -/
def workBits : Nat := 320

/-- The product of c, √c, √√c, … over the set bits of `f`, its top bit (2^i) first, in fixed point. -/
def exp2Frac (f : Nat) : Nat → Nat → Nat → Nat
  | 0, c, acc => if f % 2 = 1 then acc * c / 2 ^ workBits else acc
  | i + 1, c, acc =>
    exp2Frac f i (isqrt (c * 2 ^ workBits)) (if f / 2 ^ (i + 1) % 2 = 1 then acc * c / 2 ^ workBits else acc)

/-- 2^b, rounded once (R150): exact at integers; elsewhere the value is irrational, so the truncated
product with a part below it decides every rounding. -/
def f32Exp2 (rm : RM) (b : Lane) : Flagged Lane :=
  match f32Of b with
  | .nan s => (f32Nan, if s then Flag.nv else 0)
  | .inf n => (if n then 0 else 0x7F800000, 0)
  | .fin n m e =>
    let scaled : Int := m * 2 ^ (e + 160).toNat
    let x : Int := if n then -scaled else scaled
    let whole := x / 2 ^ 160
    let frac := (x % 2 ^ 160).toNat
    if whole ≥ 128 then toLane (Fmt.f32.round rm false 1 200)
    else if whole < -200 then toLane (Fmt.f32.round rm false 1 (-400))
    else if frac = 0 then toLane (Fmt.f32.round rm false 1 whole)
    else
      let r := exp2Frac frac 159 (isqrt (2 * 2 ^ (2 * workBits))) (2 ^ workBits)
      toLane (Fmt.f32.round rm false r (whole - workBits) true)

/-- The first `n` bits after the point of log₂ x, for x in [1, 2) in fixed point of 512 bits. -/
def log2Frac : Nat → Nat → Nat → Nat
  | 0, _, acc => acc
  | n + 1, x, acc =>
    let y := x * x / 2 ^ 512
    if y ≥ 2 ^ 513 then log2Frac n (y / 2) (2 * acc + 1) else log2Frac n y (2 * acc)

/-- log₂ b, rounded once (R150): exact at powers of two, irrational elsewhere. -/
def f32Log2 (rm : RM) (b : Lane) : Flagged Lane :=
  match f32Of b with
  | .nan s => (f32Nan, if s then Flag.nv else 0)
  | .inf n => if n then (f32Nan, Flag.nv) else (0x7F800000, 0)
  | .fin n m e =>
    if m = 0 then (0xFF800000, Flag.dz)
    else if n then (f32Nan, Flag.nv)
    else
      let top := bitLen m - 1
      let k : Int := e + top
      if m = 2 ^ top then toLane (Fmt.f32.round rm (k < 0) k.natAbs 0)
      else
        let f := log2Frac 220 (m * 2 ^ 512 / 2 ^ top) 0
        let v : Int := k * 2 ^ 220 + f
        if k < 0 then toLane (Fmt.f32.round rm true (-v - 1).toNat (-220) true)
        else toLane (Fmt.f32.round rm false v.toNat (-220) true)

/-- i32 to f32, rounded (R133). -/
def i32ToF32 (rm : RM) (w : Lane) : Flagged Lane :=
  toLane (Fmt.f32.round rm (w.toInt < 0) w.toInt.natAbs 0)

/-- f32 to i32, rounded and saturating (R133). -/
def f32ToI32 (rm : RM) (w : Lane) : Flagged Lane :=
  match f32Of w with
  | .nan _ => (0, Flag.nv)
  | .inf n => (if n then 0x80000000 else 0x7FFFFFFF, Flag.nv ||| Flag.sat)
  | .fin n m e =>
    let (q, inexact) := roundAt rm n m e 0 false
    if n && q > 2 ^ 31 then (0x80000000, Flag.nv ||| Flag.sat)
    else if !n && q ≥ 2 ^ 31 then (0x7FFFFFFF, Flag.nv ||| Flag.sat)
    else (BitVec.ofInt 32 (if n then -(q : Int) else q), if inexact then Flag.nx else 0)

/-- f32 to a narrower IEEE format, its bits in the low end of a lane (R133, R151). -/
def f32Narrow (f : Fmt) (rm : RM) (w : Lane) : Flagged Lane :=
  toLane (f.finish rm (f32Of w, snanFlag [f32Of w]))

/-- A narrower IEEE format to f32, exactly; an sNaN sets NV (R133). -/
def f32Widen (f : Fmt) (w : Nat) : Flagged Lane :=
  let x := f.read w
  toLane (Fmt.f32.finish .rne (x, snanFlag [x]))

end Sys2Proof.Machine
end

