-- ==== Sys2Proof/Machine/Hx.lean ====
section
/-! DEFINITION. The HX block formats (R134 to R136). -/
namespace Sys2Proof.Machine

/-- The three HX formats; `w` is the width of a magnitude (R134). -/
inductive Hx where
  | hx2 | hx4 | hx7
  deriving DecidableEq, Repr

def Hx.w : Hx → Nat
  | .hx2 => 2
  | .hx4 => 4
  | .hx7 => 7

/-- Bytes of a block (R134). -/
def Hx.bytes : Hx → Nat
  | .hx2 => 8
  | .hx4 => 12
  | .hx7 => 18

/-- The exponent of an element's scale: e − 127 − h − (w − 1) (R135). -/
def Hx.scaleExp (f : Hx) (e h : Nat) : Int := (e : Int) - 127 - h - (f.w - 1 : Nat)

/-- Element `i` of a block read as one little-endian number (R135). -/
def Hx.elem (f : Hx) (block i : Nat) : FVal :=
  let e := block % 256
  let h := block / 2 ^ (8 + 2 * (i / 4)) % 4
  let field := block / 2 ^ (16 + (f.w + 1) * i) % 2 ^ (f.w + 1)
  let m := field % 2 ^ f.w
  if e = 255 then .nan false else .fin (m != 0 && field / 2 ^ f.w == 1) m (f.scaleExp e h)

/-- Element `i` of a block as f32, exactly (R133). -/
def Hx.lane (f : Hx) (block i : Nat) : Lane := BitVec.ofNat 32 (Fmt.f32.write .rne (f.elem block i)).1

/-- The magnitude of x in units of the scale, when x is finite and the magnitude fits (R136). -/
def Hx.mag (f : Hx) (rm : RM) (e h : Nat) : FVal → Option (Nat × Bool)
  | .fin n m ex =>
    let r := roundAt rm n m ex (f.scaleExp e h) false
    if r.1 < 2 ^ f.w then some r else none
  | _ => none

/-- The finest hinge at which every element of a quad fits, else 0 (R136). -/
def Hx.hinge (f : Hx) (rm : RM) (e : Nat) (quad : List FVal) : Nat :=
  ([3, 2, 1].find? fun h => quad.all fun x => (f.mag rm e h x).isSome).getD 0

/-- The field of one element at its scale, with its flags (R136). -/
def Hx.field (f : Hx) (rm : RM) (e h : Nat) (x : FVal) : Flagged Nat :=
  match f.mag rm e h x with
  | some (m, inexact) =>
    ((if m != 0 && fIsNeg x then 2 ^ f.w else 0) + m, if inexact then Flag.nx else 0)
  | none => ((if fIsNeg x then 2 ^ f.w else 0) + (2 ^ f.w - 1), Flag.sat ||| Flag.nx)

/-- The fields of the elements from element `i` on. -/
def Hx.fields (f : Hx) (rm : RM) (e : Nat) (hs : List Nat) : Nat → List FVal → Flagged Nat
  | _, [] => (0, 0)
  | i, x :: xs =>
    let a := f.field rm e (hs.getD (i / 4) 0) x
    let b := f.fields rm e hs (i + 1) xs
    (a.1 * 2 ^ (16 + (f.w + 1) * i) + b.1, a.2 ||| b.2)

def FVal.isZero : FVal → Bool
  | .fin _ m _ => m == 0
  | _ => false

/-- Encode sixteen values as a block (R136). -/
def Hx.encode (f : Hx) (rm : RM) (xs : List FVal) : Flagged Nat :=
  if xs.any FVal.isNan then (255, snanFlag xs)
  else if xs.all FVal.isZero then (0, 0)
  else
    let e := ((List.range 255).find? fun e => xs.all fun x => (f.mag rm e 0 x).isSome).getD 254
    let hs := (List.range 4).map fun q => f.hinge rm e ((xs.drop (4 * q)).take 4)
    let hinges := hs.getD 0 0 + 4 * hs.getD 1 0 + 16 * hs.getD 2 0 + 64 * hs.getD 3 0
    let r := f.fields rm e hs 0 xs
    (e + 256 * hinges + r.1, r.2)

end Sys2Proof.Machine
end

