-- ==== Sys2Proof/Machine/Formats.lean ====
section
/-! DEFINITION. The element formats of R114: sizes, alignment, and the lane value of an element. -/
namespace Sys2Proof.Machine

/-- The HX format of a format code (R114). -/
def hxOf : Nat → Option Hx
  | 10 => some .hx2
  | 11 => some .hx4
  | 12 => some .hx7
  | _ => none

/-- Bytes of an element, 0 for an HX format or no format (R114). -/
def elemBytes : Nat → Nat
  | 1 | 2 => 1
  | 3 | 4 | 8 | 9 => 2
  | 5 | 6 | 7 => 4
  | _ => 0

/-- The alignment of a row: the element size, or 2 for the HX formats (R114). -/
def fmtAlign (fmt : Nat) : Nat := if (hxOf fmt).isSome then 2 else elemBytes fmt

/-- Whether elements are floats among the formats 1 to 9. -/
def isFloatFmt (fmt : Nat) : Bool := fmt == 7 || fmt == 8 || fmt == 9

/-- The lane value of an element of formats 1 to 9, setting no flag (R105, R114). -/
def widenElem (fmt raw : Nat) : Lane :=
  match fmt with
  | 2 => (BitVec.ofNat 8 raw).signExtend 32
  | 4 => (BitVec.ofNat 16 raw).signExtend 32
  | 8 => (f32Widen .f16 raw).1
  | 9 => (f32Widen .bf16 raw).1
  | _ => BitVec.ofNat 32 raw

/-- Cut a byte string into chunks of `n` bytes, `k` of them. -/
def chunks (n : Nat) : Nat → List Byte → List (List Byte)
  | 0, _ => []
  | k + 1, bs => bs.take n :: chunks n k (bs.drop n)

/-- The lane values of `count` elements laid one after another, or of packed HX blocks (R114, R120). -/
def widenRow (fmt count : Nat) (bs : List Byte) : List Lane :=
  match hxOf fmt with
  | some h => ((chunks h.bytes (count / 16) bs).map fun b => (List.range 16).map fun i => h.lane (leNat b) i).flatten
  | none => (chunks (elemBytes fmt) count bs).map fun b => widenElem fmt (leNat b)

end Sys2Proof.Machine
end

