-- ==== Sys2Proof/Machine/DigestRec.lean ====
section
/-! DEFINITION. What a digest record says of a line (R236 to R238), and the rank values (R246). -/
namespace Sys2Proof.Machine

/-- One level of the pairwise tree (R137). -/
def pairUp (f : Lane → Lane → Lane) : List Lane → List Lane
  | a :: b :: rest => f a b :: pairUp f rest
  | l => l

/-- The pairwise tree over 2^n entries (R137). -/
def treeOf (f : Lane → Lane → Lane) : Nat → List Lane → Lane
  | 0, l => l.getD 0 0
  | n + 1, l => treeOf f n (pairUp f l)

def addRne (a b : Lane) : Lane := (f32Add .rne a b).1

/-- An element as f32 in RNE (R238). -/
def toF32Rne (etype : Nat) (x : Lane) : Lane :=
  if isFloatFmt etype then x
  else if etype == 2 || etype == 4 || etype == 6 then (i32ToF32 .rne x).1
  else (toLane (Fmt.f32.round .rne false x.toNat 0)).1

def laneIsNan (x : Lane) : Bool := (f32Of x).isNan

/-- An element is zero when its value is 0, −0 included (R237). -/
def elemIsZero (etype : Nat) (x : Lane) : Bool :=
  if isFloatFmt etype then x == 0 || x == 0x80000000 else x == 0

/-- The lesser or greater element of the type (R237). -/
def elemPick (etype : Nat) (wantMax : Bool) (a b : Lane) : Lane :=
  if isFloatFmt etype then (f32MinMax wantMax a b).1
  else
    let less := if etype == 2 || etype == 4 || etype == 6 then a.slt b else a.ult b
    if less != wantMax then a else b

/-- The sign r(b, i): true for −1 (R238). -/
def sketchSign (seed b i : Nat) : Bool :=
  let z := (seed + 0x9E3779B9 * (b + 1) + 0x85EBCA6B * (i + 1)) % 2 ^ 32
  let z := Nat.xor z (z / 2 ^ 16)
  let z := z * 0x7FEB352D % 2 ^ 32
  let z := Nat.xor z (z / 2 ^ 15)
  z % 2 == 1

def negLane (x : Lane) : Lane := x ^^^ 0x80000000

/-- Bits of a list, the head lowest. -/
def bitsNat : List Bool → Nat
  | [] => 0
  | b :: bs => (if b then 1 else 0) + 2 * bitsNat bs

/-- Whether any element of each group of eight is not zero (R237). -/
def zeroMap (etype : Nat) (xs : List Lane) (groups : Nat) : Nat :=
  bitsNat ((List.range groups).map fun g => ((xs.drop (8 * g)).take 8).any fun x => !elemIsZero etype x)

/-- The payload of a line (R237, R238). -/
def digestPayload (etype kind : Nat) (seed : BitVec 32) (line : List Byte) : BitVec 96 :=
  let n := 256 / elemBytes etype
  let xs := widenRow etype n line
  let levels := bitLen n - 1
  match kind with
  | 1 =>
    let ys := if isFloatFmt etype then xs.filter fun x => !laneIsNan x else xs
    let lo := match ys with | [] => 0x7F800000 | y :: r => r.foldl (elemPick etype false) y
    let hi := match ys with | [] => 0xFF800000 | y :: r => r.foldl (elemPick etype true) y
    BitVec.ofNat 96 ((n - ys.length) + hi.toNat * 2 ^ 32 + lo.toNat * 2 ^ 64)
  | 2 =>
    let ys := xs.map (toF32Rne etype)
    let sum := treeOf addRne levels ys
    let sq := treeOf addRne levels (ys.map fun y => (f32Mul .rne y y).1)
    BitVec.ofNat 96 ((xs.filter fun x => !elemIsZero etype x).length + sq.toNat * 2 ^ 32 + sum.toNat * 2 ^ 64)
  | 3 => BitVec.ofNat 96 (zeroMap etype xs (n / 8))
  | _ =>
    let ys := xs.map (toF32Rne etype)
    BitVec.ofNat 96 (bitsNat ((List.range 96).map fun b =>
      let p := treeOf addRne levels (ys.mapIdx fun i y => if sketchSign seed.toNat b i then negLane y else y)
      !laneIsNan p && p.msb == false && p != 0))

/-- The 128 bits of a record (R236). -/
def DigestRec.word (r : DigestRec) : Nat :=
  r.payload.toNat + r.stamp.toNat * 2 ^ 96 + (if r.valid then 2 ^ 123 else 0) + r.kind.toNat * 2 ^ 124

/-- The four lanes of a record (R236). -/
def DigestRec.lanes (r : DigestRec) : List Lane := (List.range 4).map fun k => BitVec.ofNat 32 (r.word / 2 ^ (32 * k))

def popCount (n : Nat) : Nat → Nat
  | 0 => 0
  | k + 1 => n % 2 + popCount (n / 2) k

/-- The value that ranks last for the key type of a region (R246). -/
def rankLast (etype kind : Nat) : Lane :=
  match kind with
  | 1 => if isFloatFmt etype then 0x7FC00000 else if etype == 2 || etype == 4 || etype == 6 then 0x80000000 else 0
  | 2 => 0x7FC00000
  | _ => 0

/-- The rank value of a record (R246). -/
def rankValue (etype kind : Nat) (qsk : BitVec 96) (r : DigestRec) : Lane :=
  if !r.valid then rankLast etype kind
  else match kind with
    | 1 => BitVec.ofNat 32 (r.payload.toNat / 2 ^ 32)
    | 2 => BitVec.ofNat 32 (r.payload.toNat / 2 ^ 64)
    | 3 => BitVec.ofNat 32 (256 / elemBytes etype / 8 - popCount (r.payload.toNat % 2 ^ 32) 32)
    | _ => BitVec.ofNat 32 (96 - popCount (r.payload ^^^ qsk).toNat 96)

end Sys2Proof.Machine
end

