-- ==== Sys2Proof/Machine/Mem.lean ====
section
/-! DEFINITION. Memory at the home slices, the scratchpads, the cache banks and the remote-line ways
(R190 to R211), and the merge that every write to memory makes (R209, R239). -/
namespace Sys2Proof.Machine

/-! ### The physical map (R194, R195) -/

def hbmEnd : Nat := 2 ^ 40
/-- Where CXL port `p` starts (R194). -/
def cxlBase (p : Nat) : Nat := 2 ^ 40 + p * 2 ^ 41

/-- A physical address lies in some memory (R194, R318, R336). -/
def State.inMemory (s : State) (pa : Nat) : Bool :=
  if pa < hbmEnd then true
  else if pa < cxlBase 4 then
    let p := (pa - hbmEnd) / 2 ^ 41
    let off := (pa - hbmEnd) % 2 ^ 41
    s.featAcc.getLsbD 3 &&
      (off < Config.cxlCapacity (2 * p) || (off ≥ 2 ^ 40 && off < 2 ^ 40 + Config.cxlCapacity (2 * p + 1)))
  else false

/-- The home die of a line (R194). -/
def homeDie (pa : Nat) : Nat := if pa < hbmEnd then pa / 2 ^ 38 else (pa - hbmEnd) / 2 ^ 41

def lineIndex (pa : Nat) : Nat := pa / 256
def sliceOf (pa : Nat) : Nat := lineIndex pa % 80

/-- The hash h(L) of a line index (R215). -/
def lineHash (l : Nat) : Nat :=
  Nat.xor (Nat.xor (Nat.xor (Nat.xor (bits l 9 0) (bits l 19 10)) (bits l 29 20)) (bits l 39 30)) (bits l 43 40)

/-- The signature with one bit for the line of a physical address (R215). -/
def lineBit (pa : Nat) : BitVec 1024 := BitVec.ofNat 1024 (2 ^ lineHash (lineIndex pa))

/-! ### Bytes and poison -/

/-- One byte of memory; an unlisted byte reads as 0 (log entry 1). -/
def State.readByte (s : State) (pa : Nat) : Byte := mapGet 0 s.mem pa
def State.writeByte (s : State) (pa : Nat) (b : Byte) : State := { s with mem := mapSet 0 s.mem pa b }

def State.readMem (s : State) (pa n : Nat) : List Byte := (List.range n).map fun i => s.readByte (pa + i)
def State.read64 (s : State) (pa : Nat) : Word := BitVec.ofNat 64 (leNat (s.readMem pa 8))

/-- Write the given bytes, from `pa` on, leaving the others (R107). -/
def State.writeMem (s : State) (pa : Nat) : List (Option Byte) → State
  | [] => s
  | b :: bs => (match b with | some v => s.writeByte pa v | none => s).writeMem (pa + 1) bs

/-- Units of `g` bytes that a run of bytes touches. -/
def unitsOf (g pa n : Nat) : List Nat :=
  if n = 0 then [] else (List.range ((pa + n - 1) / g - pa / g + 1)).map (· + pa / g)

/-- A read meets a poisoned sector (R206). -/
def State.poisonedAt (s : State) (pa n : Nat) : Bool := (unitsOf 32 pa n).any fun k => mapGet false s.poison k

/-- The sectors that a write reaches are dirty in the L2 (R195). -/
def markSectors (t : NMap Bool) (pa : Nat) (bs : List (Option Byte)) : NMap Bool :=
  (bs.zipIdx.filter fun e => e.1.isSome).foldl (fun t e => mapInsert ((pa + e.2) / 32) true t) t

/-- Whether every byte of unit `u` of `g` bytes is among the written ones. -/
def fullyWritten (g pa : Nat) (bs : List (Option Byte)) (u : Nat) : Bool :=
  pa ≤ u * g && u * g + g ≤ pa + bs.length && ((bs.drop (u * g - pa)).take g).all Option.isSome

/-- The places of records that a run reaches are renewed no more. -/
def dropRenewed (t : NMap Bool) (pa n : Nat) : NMap Bool := if t.isEmpty then t else (unitsOf 16 pa n).foldl (fun t u => mapErase u t) t

/-- Clear the poison of the units that a write fills (R206). -/
def clearPoison (g : Nat) (t : NMap Bool) (pa : Nat) (bs : List (Option Byte)) : NMap Bool :=
  (unitsOf g pa bs.length).foldl (fun t u => if fullyWritten g pa bs u then mapErase u t else t) t

/-! ### Signature stores (R216) -/

def State.sigEntries (s : State) (pa : Nat) : List (Nat × BitVec 1024) := mapGet [] (s.die (homeDie pa)).sigs (sliceOf pa)
def State.setSigEntries (s : State) (pa : Nat) (l : List (Nat × BitVec 1024)) : State :=
  s.modDie (homeDie pa) fun d => { d with sigs := mapInsert (sliceOf pa) l d.sigs }

/-- The signature of a word, all ones without an entry (R216). -/
def State.sigOf (s : State) (pa : Nat) : BitVec 1024 :=
  match (s.sigEntries pa).find? (fun e => e.1 == pa) with
  | some e => e.2
  | none => BitVec.allOnes 1024

/-- A release publishes a word's signature, displacing the least recently used of 256, and what an acquire that
synchronises with it, or a later atomic on the word, takes over (R212, R216). -/
def State.setSig (s : State) (pa : Nat) (sig : BitVec 1024) (r : Release) : State :=
  ({ s with released := mapInsert pa (some r) s.released
            linked := mapSet {} s.linked pa ((mapGet {} s.linked pa).join r.chain) } : State).setSigEntries pa (((pa, sig) :: (s.sigEntries pa).filter fun e => e.1 != pa).take Config.sigEntries)

/-- An acquire uses the entry (R216). -/
def State.touchSig (s : State) (pa : Nat) : State :=
  match (s.sigEntries pa).find? (fun e => e.1 == pa) with
  | some e => s.setSigEntries pa (e :: (s.sigEntries pa).filter fun e => e.1 != pa)
  | none => s

/-- Take out the entries of the words that a write reaches (R216). -/
def State.dropSigs (s : State) (pa : Nat) (bs : List (Option Byte)) : State :=
  let written := (bs.zipIdx.filter fun e => e.1.isSome).map fun e => (pa + e.2) / 8 * 8
  let s := { s with released := s.released.filter fun e => !written.contains e.1 }
  if (s.sigEntries pa).any (fun e => written.contains e.1) then
    s.setSigEntries pa ((s.sigEntries pa).filter fun e => !written.contains e.1)
  else s

/-! ### Digest records (R235, R236, R239) -/

def State.region (s : State) (key : Nat) : Option Region := mapGet none s.regions key
/-- The region that captured a physical address's page, and its line, which names the record. -/
def State.recordOf (s : State) (pa : Nat) : Option (Region × Nat) :=
  match mapGet none s.captured (pa / 65536) with
  | some c =>
    match s.region c.region with
    | some r => some (r, pa / 256 * 256)
    | none => none
  | none => none

/-- The record of a line, kept beside it at its home slice. -/
def State.digest (s : State) (line : Nat) : DigestRec := mapGet DigestRec.init s.digests line
def State.setDigest (s : State) (line : Nat) (r : DigestRec) : State :=
  { s with digests := mapSet DigestRec.init s.digests line r, unsaved := mapInsert line true s.unsaved }

/-- The record recomputed from the line as it stands (R239). -/
def State.recompute (s : State) (r : Region) (line : Nat) (stamp : BitVec 16) : DigestRec :=
  { payload := digestPayload r.etype r.kind r.seed (s.readMem line 256), stamp := stamp, valid := true,
    kind := BitVec.ofNat 4 r.kind, poisoned := false }

/-- A merge to a line of a region brings its record up to date (R239, R242). -/
def State.mergeDigest (s : State) (pa : Nat) : State :=
  match s.recordOf pa with
  | some (r, line) => s.setDigest line (s.recompute r line ((s.digest line).stamp + 1))
  | none => s

/-- A rebuild keeps the stamp, or sets it to 0 where it clears poison (R242, R244, R248). -/
def State.rebuildLine (s : State) (r : Region) (line : Nat) : State :=
  s.setDigest line (s.recompute r line (if (s.digest line).poisoned then 0 else (s.digest line).stamp))

/-- The lines whose records have their backing store in a run (R235). -/
def State.backedLines (s : State) (pa n : Nat) : List Nat :=
  (s.captured.map fun e => match e.2 with
    | some c => (((unitsOf 16 pa n).map (· * 16)).filter fun a => c.dbase ≤ a && a < c.dbase + 4096).map fun a =>
        e.1 * 65536 + (a - c.dbase) / 16 * 256
    | none => []).flatten

/-- The lines whose records a write reaches in their backing store: a record with no byte written is not touched
(R235). -/
def State.writtenRecords (s : State) (pa : Nat) (bs : List (Option Byte)) : List Nat :=
  ((bs.zipIdx.filter fun e => e.1.isSome).map fun e => s.backedLines (pa + e.2) 1).flatten.eraseDups

/-- A write into the backing store leaves its records undefined until they are rebuilt (R235). -/
def State.spoilRecords (s : State) (pa : Nat) (bs : List (Option Byte)) : State :=
  (s.writtenRecords pa bs).foldl (fun s a =>
    let w := s.freshWord
    let v := w.2.freshWord
    v.2.setDigest a
      { payload := BitVec.ofNat 96 (w.1.toNat + v.1.toNat * 2 ^ 64), stamp := BitVec.ofNat 16 (v.1.toNat / 2 ^ 32),
        valid := v.1.getLsbD 63, kind := BitVec.ofNat 4 (v.1.toNat / 2 ^ 48), poisoned := false }) s

/-- Where a line's record stands in the backing store (R235). -/
def State.backing (s : State) (line : Nat) : Option Nat :=
  match mapGet none s.captured (line / 65536) with
  | some c => some (c.dbase + line % 65536 / 256 * 16)
  | none => none

/-- The place of a record is poisoned: its sector is, and no sound record has been written over it since (R206, R242). -/
def State.placePoisoned (s : State) (pa : Nat) : Bool := s.poisonedAt pa 16 && !mapGet false s.renewed (pa / 16)

/-- A record is written over its place: a poisoned one poisons its sector, for itself alone; once both places of a
poisoned sector are sound the sector is (R206, R242). -/
def State.renewPlace (s : State) (pa : Nat) (bad : Bool) : State :=
  let k := pa / 16
  let other := Nat.xor k 1
  let was := mapGet false s.poison (pa / 32)
  if bad then
    { s with poison := mapInsert (pa / 32) true s.poison
             renewed := if was then mapErase k s.renewed else mapInsert other true (mapErase k s.renewed) }
  else if !was then s
  else if mapGet false s.renewed other then
    { s with poison := mapErase (pa / 32) s.poison, renewed := mapErase k (mapErase other s.renewed) }
  else { s with renewed := mapInsert k true s.renewed }

/-- A slice writes a record back to its backing store (R242). -/
def State.saveRecord (s : State) (line : Nat) : State :=
  let t : State := { s with unsaved := mapErase line s.unsaved }
  match s.backing line with
  | some pa =>
    let bs := (natBytes 16 (s.digest line).word).map some
    ({ t.writeMem pa bs with dirty := markSectors t.dirty pa bs } : State).renewPlace pa (s.digest line).poisoned
  | none => t

/-- The slice of the package that homes a line. -/
def packageSlice (pa : Nat) : Nat := homeDie pa * 80 + sliceOf pa

/-- How many of the lines each slice homes. -/
def linesBySlice (lines : List Nat) : NMap Nat :=
  lines.foldl (fun m l => mapSet 0 m (packageSlice l) (mapGet 0 m (packageSlice l) + 1)) []

/-- The changed records of a slice that has more of them than its digest cache holds: one of them is written back first
(R2, R242; log entry 114). -/
def State.overfull (s : State) : List Nat :=
  if s.unsaved.length ≤ Config.digestRecords then []
  else
    let lines := s.unsaved.map (·.1)
    let full := (linesBySlice lines).filter fun e => Config.digestRecords < e.2
    if full.isEmpty then [] else lines.filter fun l => full.any fun e => e.1 == packageSlice l

/-! ### Links that are down (R318, R319) -/

/-- Links by number: 0 Hasp, 1 to 4 the CXL ports, 5 to 16 Viaduct, 17 to 20 the die ring, from die d to
the next at 17 + d.  Rows of the other direction of link n are counted under n + 32. -/
def linkOf (n : Nat) : Nat := n % 32
/-- A link is in use: the CXL ports and Viaduct once their features are accepted (R336). -/
def State.linkPresent (s : State) (n : Nat) : Bool :=
  if 1 ≤ linkOf n && linkOf n ≤ 4 then s.featAcc.getLsbD 3 else if 5 ≤ linkOf n && linkOf n ≤ 16 then s.featAcc.getLsbD 4 else true
/-- A link is down once the retries of either direction are spent (R319). -/
def State.linkDown (s : State) (n : Nat) : Bool :=
  !s.linkPresent n || !((mapGet Link.init s.links (linkOf n)).up && (mapGet Link.init s.links (linkOf n + 32)).up)
def cxlLink (port : Nat) : Nat := 1 + port
def ringLink (d : Nat) : Nat := 17 + d % 4

/-- The ring links between two dies; between opposite dies the way round is open. -/
def ringPath (a b : Nat) : List Nat :=
  match (b + 4 - a) % 4 with
  | 0 => []
  | 1 => [ringLink a]
  | 3 => [ringLink b]
  | _ => if Config.ringRoute (4 * a + b) then [ringLink a, ringLink (a + 1)] else [ringLink b, ringLink (b + 1)]

/-- A die cannot reach another: a link on the way is down. -/
def State.ringCut (s : State) (a b : Nat) : Bool := (ringPath a b).any s.linkDown

/-- A die cannot reach the home of an address: a link on the way is down. -/
def State.cut (s : State) (d pa : Nat) : Bool :=
  s.links.any (fun e => !e.2.up) &&
    (s.ringCut d (homeDie pa) || (hbmEnd ≤ pa && s.linkDown (cxlLink ((pa - hbmEnd) / 2 ^ 41))))

/-! ### Copies: cache banks and remote-line ways (R197, R198, R207) -/

/-- Put bytes over a byte list from index `i`. -/
def overlay (l : List Byte) (i : Nat) (bs : List (Option Byte)) : List Byte :=
  l.mapIdx fun j b => if i ≤ j then (match bs.getD (j - i) none with | some v => v | none => b) else b

/-- A store's update of the held sectors of its line (R198). -/
def CacheLine.update (c : CacheLine) (off : Nat) (bs : List (Option Byte)) : CacheLine :=
  { c with sectors := c.sectors.mapIdx fun k x => x.map (fun d =>
      let cut := if off ≤ 32 * k then bs.drop (32 * k - off) else bs
      (overlay d.1 (off - 32 * k) cut, d.2 && !fullyWritten 32 off bs k)) }

/-- The core's copy of a line takes the bytes of its own store (R198), which is no use of the line (R207; log entry
127). -/
def Core.updateBank (k : Core) (pa : Nat) (bs : List (Option Byte)) : Core :=
  { k with cache := k.cache.map fun l => if l.line == lineIndex pa then l.update (pa % 256) bs else l }

/-- A write to a line finds a sector that it reaches in the core's banks. -/
def Core.holdsSector (k : Core) (pa : Nat) (bs : List (Option Byte)) : Bool :=
  k.cache.any fun l => l.line == lineIndex pa && bs.zipIdx.any fun e =>
    e.1.isSome && (l.sectors.getD ((pa + e.2) % 256 / 32) none).isSome

/-- The parts of stores that have left the core and are not performed, oldest first in each sequencer (R198). -/
def Core.leftParts (k : Core) : List StorePart :=
  ([0, 1].map fun q => ((k.seq q).stores.map fun st => st.parts.take st.left).flatten).flatten

/-- The copy of a line once more as the core's stores that are under way have left it: the youngest last. -/
def Core.reapply (k : Core) (line : Nat) : Core :=
  k.leftParts.foldl (fun k p => match p.loc with
    | .mem pa => if lineIndex pa = line then k.updateBank pa p.bytes else k
    | .spad _ _ => k) k

/-- A store of the core to the line has updated its copy and is not performed: some sector of the line is dirty
(R198). -/
def Core.lineDirty (k : Core) (line : Nat) : Bool :=
  k.leftParts.any fun p => p.dirty && (match p.loc with | .mem pa => lineIndex pa == line | .spad _ _ => false)

/-- A store or an atomic of a die drops its unpinned remote copies (R197, R221). -/
def State.dropRemote (s : State) (d pa : Nat) : State :=
  s.modDie d fun x => { x with remote := x.remote.filter fun l => l.line != lineIndex pa || l.pins != 0 }

/-- Drop the copies of a line in a core's cache banks. -/
def State.dropCached (s : State) (c pa : Nat) : State :=
  s.modCore c fun k => { k with cache := k.cache.filter fun l => l.line != lineIndex pa }

/-- A line is used at its home slice: a die with residency ways notes it until the clock ends (R305; log entry 72). -/
def State.homeUse (s : State) (pa : Nat) : State :=
  if s.trestle.res.getD (homeDie pa) 0 = 0 then s
  else s.modDie (homeDie pa) fun d => { d with homeUses := d.homeUses ++ [lineIndex pa] }

/-- A write within one line merges at its home slice: bytes, poison, signatures, digest (R206, R209,
R216, R239).  A write of no byte is no merge (R239). -/
def State.mergeHome (s : State) (pa : Nat) (bs : List (Option Byte)) : State :=
  if bs.any Option.isSome then
    let s := ((s.homeUse pa).writeMem pa bs).dropSigs pa bs
    let s := { s with poison := clearPoison 32 s.poison pa bs, renewed := dropRenewed s.renewed pa bs.length, dirty := markSectors s.dirty pa bs, merges := s.merges + 1 }
    (s.mergeDigest pa).spoilRecords pa bs
  else s

/-- A core's store merges.  A copy that the core's banks have filled since it left follows, with the core's later
stores over it, and a copy of the die that was filled since then goes (R197, R198, R212; log entry 97). -/
def State.mergeFrom (s : State) (c pa : Nat) (bs : List (Option Byte)) : State :=
  ((s.mergeHome pa bs).modCore c fun k => (k.updateBank pa bs).reapply (lineIndex pa)).dropRemote (dieOf c) pa

/-- A core's merge at home that no store of its queue makes.  The copies of the line go from its banks and from its die,
but one with dirty sectors takes the bytes and stays, for a drop would have to wait (R198, R221). -/
def State.mergeDrop (s : State) (c pa : Nat) (bs : List (Option Byte)) : State :=
  if (s.core c).lineDirty (lineIndex pa) then s.mergeFrom c pa bs else ((s.mergeHome pa bs).dropCached c pa).dropRemote (dieOf c) pa

/-- Cut a write into its lines. -/
def cutLines : Nat → Nat → List (Option Byte) → List (Nat × List (Option Byte))
  | 0, _, _ => []
  | n + 1, pa, bs =>
    if bs.isEmpty then []
    else
      let k := 256 - pa % 256
      (pa, bs.take k) :: cutLines n (pa + k) (bs.drop k)

/-- A write of an engine or the host, line by line in ascending address (R239). -/
def State.mergeRun (s : State) (pa : Nat) (bs : List Byte) : State :=
  (cutLines (bs.length / 256 + 2) pa (bs.map some)).foldl (fun s e => s.mergeHome e.1 e.2) s

/-- A release by the host, an engine or the scheduler, after the stores of `chain`: an all-ones signature and the value, in
one step (R217, R219). -/
def State.releaseWord (s : State) (pa : Nat) (v : Word) (chain : Past) : State :=
  (s.mergeHome pa ((natBytes 8 v.toNat).map some)).setSig pa (BitVec.allOnes 1024) { party := none, scope := 5, chain := chain }

/-- Read at the home slice, as seen from die `d`: through its remote-line ways for a line homed
elsewhere, filling one when there are any (R197).  The bytes of the whole line, and its poisoned
sectors. -/
def State.lineFromHome (s : State) (line : Nat) : List Byte × List Nat :=
  (s.readMem (line * 256) 256, (List.range 8).filter fun k => mapGet false s.poison (line * 8 + k))

/-- Two lines fall into one set of one slice (R195). -/
def sameSet (a b : Nat) : Bool := a % 80 == b % 80 && Config.l2Set a % Config.l2Sets == Config.l2Set b % Config.l2Sets

/-- The remote-line ways of a line's set, and the way that a fill takes: an empty one, from way 15 down, or that of the
least recently used copy that is not pinned (R195, R197, R199; log entry 117). -/
def Die.remoteVictim (x : Die) (line : Nat) : Option (Option RemoteLine × Nat) :=
  let mine := x.remote.filter fun l => sameSet l.line line
  let ways := (List.range x.remways).map (15 - ·)
  match ways.find? fun w => !(mine.any fun l => l.way == w) with
  | some w => some (none, w)
  | none =>
    let free := mine.filter fun l => l.pins == 0 && ways.contains l.way
    match free with
    | [] => none
    | l :: ls => let v := ls.foldl (fun a b => if b.used < a.used then b else a) l
                 some (some v, v.way)

def State.readLine (s : State) (d line : Nat) : (List Byte × List Nat) × State :=
  if homeDie (line * 256) = d then (s.lineFromHome line, s.homeUse (line * 256))
  else
    let x := s.die d
    match x.remote.find? fun l => l.line == line with
    | some l =>
      ((l.data, l.poisoned), s.modDie d fun x => { x with remote := x.remote.map (fun m =>
        if m.line == line then { m with used := s.clock } else m) })
    | none =>
      let r := s.lineFromHome line
      let s := s.homeUse (line * 256)
      match x.remoteVictim line with
      | none => (r, s)
      | some (old, w) =>
        let new : RemoteLine := { line := line, way := w, data := r.1, poisoned := r.2, pins := 0, used := s.clock, asOf := s.merges }
        (r, s.modDie d fun x => { x with remote := new :: (match old with
          | some o => x.remote.filter fun m => m.line != o.line
          | none => x.remote) })

/-- How many stores had merged when what a read of a line returns was read at home (R211). -/
def State.lineAsOf (s : State) (d line : Nat) : Nat :=
  match (s.die d).remote.find? fun l => l.line == line && homeDie (line * 256) != d with
  | some l => l.asOf
  | none => s.merges

/-- The cache banks of a core: S to 31 − O (R191). -/
def Core.cacheBanks (k : Core) : List Nat := (List.range (32 - k.scratchBanks - k.operandBanks)).map (· + k.scratchBanks)

/-- Where a line that misses goes: the lowest-numbered bank with its frame empty, else the frame of the
least recently used line of the set (R207). -/
def Core.fillBank (k : Core) (line : Nat) : Option Nat :=
  let set := k.cache.filter fun l => l.frame == line % 40
  match k.cacheBanks.find? fun b => !(set.any fun l => l.bank == b) with
  | some b => some b
  | none => match set with
    | [] => none
    | l :: ls => some (ls.foldl (fun a b => if b.used < a.used then b else a) l).bank

/-- Sectors of a line that a run of bytes touches. -/
def sectorsOf (pa n : Nat) : List Nat := unitsOf 32 (pa % 256) n

/-- Sectors of a line as held: the bytes, zeros where a sector is absent. -/
def sectorBytes (sec : List (Option (List Byte × Bool))) : List Byte :=
  (sec.map fun x => match x with | some d => d.1 | none => List.replicate 32 0).flatten

/-- Runs of one line, cut from its sectors as held, each with whether it met poison. -/
def cutSectors (sec : List (Option (List Byte × Bool))) (runs : List (Nat × Nat)) : List (List Byte × Bool) :=
  runs.map fun r => (((sectorBytes sec).drop (r.1 % 256)).take r.2,
    (sectorsOf r.1 r.2).any fun i => match sec.getD i none with | some d => d.2 | none => false)

/-- The sectors that a read of a line leaves held: those held before and those needed, all from the one read (R198). -/
def heldAfter (old : List (Option (List Byte × Bool))) (need : List Nat) (r : List Byte × List Nat) : List (Option (List Byte × Bool)) :=
  (List.range 8).map fun i =>
    if (old.getD i none).isSome || need.contains i then some ((r.1.drop (32 * i)).take 32, r.2.contains i) else none

/-- A load of runs of a line waits for stores of its own core: a sector is absent from a line with dirty ones, or
the line that it would displace has some (R198, R207). -/
def Core.bankWaits (k : Core) (line : Nat) (runs : List (Nat × Nat)) : Bool :=
  match k.cache.find? fun l => l.line == line with
  | some l => k.lineDirty line && (runs.map fun r => sectorsOf r.1 r.2).flatten.any fun i => (l.sectors.getD i none).isNone
  | none => match k.fillBank line with
    | some b => k.cache.any fun m => m.bank == b && m.frame == line % 40 && k.lineDirty m.line
    | none => false

/-- A load of runs of one line, performed in the cache banks or at home in one read, filling the banks (R197,
R198, R207): the bytes of each run, and whether it met poison; a read that a link loses is poisoned (R319). -/
def State.cachedRuns (s : State) (c line : Nat) (runs : List (Nat × Nat)) : List (List Byte × Bool) × State :=
  let k := s.core c
  let need := (runs.map fun r => sectorsOf r.1 r.2).flatten
  let lost := s.cut (dieOf c) (line * 256) && !((s.die (dieOf c)).remote.any fun l => l.line == line)
  let gone := runs.map fun r => (List.replicate r.2 (0 : Byte), true)
  match k.cache.find? fun l => l.line == line with
  | some l =>
    if need.all (fun i => (l.sectors.getD i none).isSome) then
      (cutSectors l.sectors runs, s.setCore c { k with
        useCount := k.useCount + 1, cache := k.cache.map fun m => if m.line == line then { l with used := k.useCount } else m })
    else if lost then (gone, s)
    else
      let r := s.readLine (dieOf c) line
      let sec := heldAfter l.sectors need r.1
      let k := r.2.core c
      (cutSectors sec runs, r.2.setCore c { k with
        useCount := k.useCount + 1,
        cache := k.cache.map (fun m => if m.line == line then { m with sectors := sec, used := k.useCount, asOf := r.2.lineAsOf (dieOf c) line } else m) })
  | none =>
    if lost then (gone, s) else
    let r := s.readLine (dieOf c) line
    let sec := heldAfter [] need r.1
    let k := r.2.core c
    match k.fillBank line with
    | none => (cutSectors sec runs, r.2)
    | some b =>
      let new : CacheLine := { bank := b, frame := line % 40, line := line, sectors := sec, used := k.useCount,
                               asOf := r.2.lineAsOf (dieOf c) line }
      (cutSectors sec runs, r.2.setCore c { k with
        useCount := k.useCount + 1,
        cache := new :: (k.cache.filter fun m => !(m.bank == b && m.frame == line % 40)) })

/-- A load of one run within a line. -/
def State.cachedRead (s : State) (c pa n : Nat) : (List Byte × Bool) × State :=
  let r := s.cachedRuns c (lineIndex pa) [(pa, n)]
  (r.1.headD ([], false), r.2)

/-- A read at the home slice, of any run of bytes. -/
def State.homeRead (s : State) (pa n : Nat) : List Byte × Bool := (s.readMem pa n, s.poisonedAt pa n)
/-- A read at the home slice from a die; a read that a link loses is poisoned (R319). -/
def State.homeReadFrom (s : State) (d pa n : Nat) : List Byte × Bool :=
  if s.cut d pa then (List.replicate n 0, true) else s.homeRead pa n

/-! ### Scratchpads (R193) -/

def Core.spadBytes (k : Core) : Nat := k.scratchBanks * Config.bankBytes
def Core.readSpad (k : Core) (off n : Nat) : List Byte := (List.range n).map fun i => mapGet 0 k.spad (off + i)
def writeBytes (m : NMap Byte) (off : Nat) : List (Option Byte) → NMap Byte
  | [] => m
  | b :: bs => writeBytes (match b with | some v => mapSet 0 m off v | none => m) (off + 1) bs

/-- The scratchpad words, of 4 bytes, that are poisoned (R206). -/
def Core.spadPoisonedAt (k : Core) (off n : Nat) : Bool := (unitsOf 4 off n).any fun u => mapGet false k.spadPoison u

/-- Bytes of a key of a type (R159). -/
def keyBytes (ktype : Nat) : Nat :=
  match ktype with
  | 0 | 1 | 2 => 4
  | 3 | 4 | 5 | 6 => 2
  | _ => 1

/-- A write to a core's scratchpad; a running `stopk` whose keys it reaches is spoiled (R163). -/
def Core.writeSpad (k : Core) (off : Nat) (bs : List (Option Byte)) : Core :=
  let hit := bs.zipIdx.any fun e => e.1.isSome && (match k.stopk with
    | some t => t.koff ≤ off + e.2 && off + e.2 < t.koff + keyBytes t.ktype * t.n
    | none => false)
  { k with spad := writeBytes k.spad off bs, spadPoison := clearPoison 4 k.spadPoison off bs,
           stopk := if hit then k.stopk.map fun t => { t with spoiled := true } else k.stopk }

/-- Read a run at its place, not through the cache banks. -/
def State.readLoc (s : State) (l : Loc) (n : Nat) : List Byte × Bool :=
  match l with
  | .mem pa => s.homeRead pa n
  | .spad c off => ((s.core c).readSpad off n, (s.core c).spadPoisonedAt off n)

/-- Write a run at its place, for sequencers of core `c`. -/
def State.writeLoc (s : State) (c : Nat) (l : Loc) (bs : List (Option Byte)) : State :=
  match l with
  | .mem pa => s.mergeFrom c pa bs
  | .spad o off => s.modCore o fun k => k.writeSpad off bs

/-! ### Translation (R200 to R203) -/

/-- A table entry's fields (R201). -/
def pteOk (w : Word) : Bool := w.getLsbD 0 && bits w.toNat 12 4 == 0 && bits w.toNat 63 52 == 0
def pteAddr (w : Word) : Nat := bits w.toNat 51 13 * 2 ^ 13

/-- The context-table entry of an ASID (R334). -/
def State.ctxEntry (s : State) (asid : Nat) : Nat := s.ctxbase.toNat + 32 * asid
def State.ctxRoot (s : State) (asid : Nat) : Nat := (s.read64 (s.ctxEntry asid)).toNat
def State.ctxKvDesc (s : State) (asid : Nat) : Word := s.read64 (s.ctxEntry asid + 8)
def State.ctxRingTab (s : State) (asid : Nat) : Word := s.read64 (s.ctxEntry asid + 16)

/-- The shift of a page mapped at a level: 64 GiB, 64 MiB and 64 KiB pages (R200). -/
def levelShift (level : Nat) : Nat := 56 - 10 * level

/-- What a walk finds in one table: a failure, a page, or the table below. -/
inductive WalkNext where
  | failed
  | found (p : Page)
  | down (table : Nat)
  deriving DecidableEq, Repr

/-- One entry of a walk, read at its home slice as it stands: no rule has a poisoned one trap, or one behind a link that is
down (R200 to R203, R206; log entry 120). -/
def State.walkEntry (s : State) (asid va level table : Nat) : WalkNext :=
  if !s.inMemory table then .failed
  else
    let w := s.read64 (table + 8 * (va / 2 ^ levelShift level % 1024))
    if !pteOk w then .failed
    else if w.getLsbD 1 then
      let size := 2 ^ levelShift level
      if level = 1 || pteAddr w % size != 0 || !s.inMemory (pteAddr w) then .failed
      else .found { asid := asid, va := va / size * size, size := size, pa := pteAddr w, w := w.getLsbD 2, x := w.getLsbD 3 }
    else if level = 4 then .failed
    else .down (pteAddr w)

/-- Where a walk begins: the root of the address space (R200, R334). -/
def State.walkRoot (s : State) (asid va : Nat) : WalkNext :=
  let root := s.ctxRoot asid
  if root = 0 || va ≥ 2 ^ 56 then .failed else .down root

/-- Walk from a table at `level`, with levels still to come as fuel (R200 to R202). -/
def State.walkFrom (s : State) (asid va : Nat) : Nat → Nat → Nat → Option Page
  | 0, _, _ => none
  | fuel + 1, level, table => match s.walkEntry asid va level table with
    | .failed => none
    | .found p => some p
    | .down t => s.walkFrom asid va fuel (level + 1) t

/-- A walk made in one go: none is a failure with `TRANSLATION` (R202, R334). -/
def State.walk (s : State) (asid va : Nat) : Option Page :=
  match s.walkRoot asid va with
  | .down root => s.walkFrom asid va 4 1 root
  | _ => none

/-- What a walk under way reads next. -/
def State.walkerNext (s : State) (w : Walker) : WalkNext :=
  if w.level = 0 then s.walkRoot w.asid (w.granule * 65536) else s.walkEntry w.asid (w.granule * 65536) w.level w.table

/-- A `cr.tlbinv` of the address space still has a store ahead of a marker before it that is not performed: a walk would
start before it and read what the store replaces (R204, R339). -/
def State.walkHeld (s : State) (asid : Nat) : Bool :=
  s.cores.any fun e => e.2.seqs.any fun x => x.2.asid == asid && x.2.stores.any fun st => st.epoch < x.2.invEpoch

def Page.covers (p : Page) (asid va : Nat) : Bool := p.asid == asid && p.va ≤ va && va < p.va + p.size
def Page.phys (p : Page) (va : Nat) : Nat := p.pa + (va - p.va)

/-- The translation of an address: from the TLB, or from a walk that the bundle has waited for (R203). -/
def Seq.tlbHit (x : Seq) (va : Nat) : Option Page := (x.tlb ++ x.walks.filterMap (·.found)).find? fun p => p.covers x.asid va

/-- A walk for the granule of an address has failed (R202). -/
def Seq.walkFailed (x : Seq) (asid va : Nat) : Bool := x.walks.any fun w => w.asid == asid && w.granule == va / 65536 && w.found.isNone

/-- Fill a TLB entry of a sequencer, displacing one when all 64 are in use (R203). -/
def State.tlbFill (s : State) (c q : Nat) (p : Page) (x : Seq) : State :=
  if x.tlb.length < Config.tlbEntries then s.setSeq c q { x with tlb := p :: x.tlb }
  else
    { (s.setSeq c q { x with tlb := p :: x.tlb.eraseIdx (Config.tlbVictim s.choices % Config.tlbEntries) }) with
      choices := s.choices + 1 }

/-- The scratchpad aperture (R193). -/
def apertureBase : Nat := 0x00FE000000000000
def localBase : Nat := 0x00FF000000000000
def inAperture (va : Nat) : Bool := apertureBase ≤ va && va < 0x0100000000000000

/-- The rights an access needs (R202, R221). -/
inductive Right where
  | load | store | atomic | fetch
  deriving DecidableEq, Repr

/-- What an address resolves to for an access (R103 steps 3 to 5). -/
inductive Where where
  | at (l : Loc)
  | trap (c : Cause)
  | miss
  deriving DecidableEq, Repr

/-- An aperture address (R193, R221). -/
def State.resolveAperture (s : State) (c : Nat) (r : Right) (va : Nat) : Where :=
  let k := s.core c
  if localBase ≤ va then
    if va - localBase < k.spadBytes then .at (.spad c (va - localBase)) else .trap .scratchBounds
  else
    let n := (va - apertureBase) / 2 ^ 20
    let off := (va - apertureBase) % 2 ^ 20
    let members := match k.launch with
      | some id => match s.launch id with | some l => l.cores | none => []
      | none => []
    if n = k.position then if off < k.spadBytes then .at (.spad c off) else .trap .scratchBounds
    else if r ≠ .atomic then .trap .protection
    else if n < members.length && off < k.spadBytes then .at (.spad (members.getD n 0) off) else .trap .scratchBounds

/-- A mapped address, once its page is known: an address that lies in no memory has no translation (R194, R202). -/
def Page.resolve (p : Page) (s : State) (r : Right) (va : Nat) : Where :=
  if !s.inMemory (p.phys va) then .trap .translation else
  match r with
  | .load => .at (.mem (p.phys va))
  | .store | .atomic => if p.w then .at (.mem (p.phys va)) else .trap .protection
  | .fetch => if p.x then .at (.mem (p.phys va)) else .trap .protection

/-- Resolve one address for sequencer `q` of core `c` through its TLB (R103, R203). -/
def State.resolve (s : State) (c q : Nat) (r : Right) (va : Nat) : Where :=
  if va ≥ 2 ^ 56 then .trap .translation
  else if inAperture va then s.resolveAperture c r va
  else
    let x := s.seq c q
    match x.tlbHit va with
    | some p => p.resolve s r va
    | none => if x.walkFailed x.asid va then .trap .translation else .miss

/-- Resolve an address of an address space by a walk of its own: engines, host and scheduler. -/
def State.resolveIn (s : State) (asid : Nat) (r : Right) (va : Nat) : Where :=
  if va ≥ 2 ^ 56 || inAperture va then .trap .translation
  else match s.walk asid va with
    | some p => p.resolve s r va
    | none => .trap .translation

end Sys2Proof.Machine
end

