-- ==== Sys2Proof/Machine/Order.lean ====
section
/-! DEFINITION. What orders the accesses of one party before those of another (R212, R213, R219): who lies within a
scope of whom, what a release hands on, and the copies that go where it is taken.

R212 orders more than RSIG can name: what a sequencer has acquired, and what it has published before.  So beside RSIG
each sequencer keeps the stores themselves that are ordered before what it triggers next, and a load reads at home
again where a copy is older than one of them (log entries 99, 111). -/
namespace Sys2Proof.Machine

/-! ### Scopes (R213) -/

/-- Sequencer `b` lies within a scope of sequencer `a`. -/
def inScope (scope : Nat) (a b : Nat × Nat) : Bool :=
  match scope with
  | 0 => a == b
  | 1 => a.1 == b.1
  | 2 => bayOf a.1 == bayOf b.1
  | 3 => dieOf a.1 == dieOf b.1
  | _ => true

/-- A release or an arrival synchronises with an acquire of sequencer `b` at a scope; what no sequencer makes does so at
system scope only. -/
def Release.meets (r : Release) (b : Nat × Nat) (scope : Nat) : Bool :=
  match r.party with
  | some a => inScope r.scope a b && inScope scope b a
  | none => 5 ≤ scope

/-- What an acquire of sequencer `b` at a scope takes over from some releases or arrivals. -/
def chainOf (rs : List Release) (b : Nat × Nat) (scope : Nat) : Past :=
  (rs.filter (·.meets b scope)).foldl (fun g r => g.join r.chain) {}

/-- One more arrival, with those of its party and scope before it. -/
def Release.addTo (r : Release) : List Release → List Release
  | [] => [r]
  | x :: xs => if x.party = r.party && x.scope = r.scope then { x with chain := x.chain.join r.chain } :: xs else x :: r.addTo xs

/-! ### What comes after an acquire (R212) -/

/-- What is taken over stands before everything that the sequencer triggers, or has triggered from an order number on. -/
def Seq.join (x : Seq) (order : Nat) (g : Past) : Seq :=
  let load := fun (e : LoadEntry) => if order ≤ e.order then { e with chain := e.chain.join g } else e
  { x with
    chain := x.chain.join g, loads := x.loads.map load, handlerLoads := x.handlerLoads.map load,
    stores := x.stores.map fun e => if order ≤ e.order then { e with chain := e.chain.join g } else e }

def Core.join (k : Core) (q order : Nat) (g : Past) : Core :=
  { k.setSeq q ((k.seq q).join order g) with
    sends := k.sends.map fun e => if e.q = q && order ≤ e.order then { e with chain := e.chain.join g } else e }

/-- A copy read when `asOf` stores had merged is older than a store to one of its bytes that is ordered before a load of
them; the stores of a core that keeps the copy have updated it (R198, R212). -/
def Past.outdates (g : Past) (asOf line : Nat) (own : Option Nat) (byte : Nat → Bool) : Bool :=
  g.stores.any fun e => e.1 / 8192 == line && own != some (e.1 % 1024) &&
    e.2.zipIdx.any fun m => decide (asOf < m.1) && byte (e.1 / 1024 % 8 * 32 + m.2)

/-- A byte of a line is among the runs that a load reads of it. -/
def inRuns (runs : List (Nat × Nat)) (i : Nat) : Bool := runs.any fun r => r.1 % 256 ≤ i && i < r.1 % 256 + r.2

def Past.outdatesBank (g : Past) (c : Nat) (l : CacheLine) (runs : List (Nat × Nat)) : Bool :=
  g.outdates l.asOf l.line (some c) fun i => (l.sectors.getD (i / 32) none).isSome && inRuns runs i
def Past.outdatesRemote (g : Past) (l : RemoteLine) (runs : List (Nat × Nat)) : Bool := g.outdates l.asOf l.line none (inRuns runs)

/-! ### Copies that go (R198, R218) -/

/-- A line is named by a signature (R215). -/
def names (g : BitVec 1024) (line : Nat) : Bool := g.getLsbD (lineHash line)

/-- Some line of the banks that a signature names is dirty: a drop waits for its stores (R198). -/
def Core.dirtyNamed (k : Core) (g : BitVec 1024) : Bool := k.cache.any fun l => names g l.line && k.lineDirty l.line

/-- The copies of the named lines go: from the core's banks from bay scope on, from the die's remote-line ways from die
scope on, but for pinned ones (R213, R218). -/
def State.dropNamed (s : State) (c scope : Nat) (g : BitVec 1024) : State :=
  let s := if 2 ≤ scope then s.modCore c fun k => { k with cache := k.cache.filter fun l => !names g l.line } else s
  if 3 ≤ scope then
    s.modDie (dieOf c) fun d => { d with remote := d.remote.filter fun l => !names g l.line || l.pins != 0 }
  else s

/-- A load of a core reads runs of a line after the stores of `g`: copies that are older there than one of them go, the
banks' and the unpinned one of its die (R212; log entry 111). -/
def State.freshLine (s : State) (c line : Nat) (runs : List (Nat × Nat)) (g : Past) : State :=
  let s := if (s.core c).cache.any fun l => l.line == line && g.outdatesBank c l runs then s.dropCached c (line * 256) else s
  if (s.die (dieOf c)).remote.any fun l => l.line == line && g.outdatesRemote l runs then s.dropRemote (dieOf c) (line * 256) else s

/-- An older copy has dirty sectors, whose stores a drop waits for (R198). -/
def Core.freshWaits (k : Core) (c line : Nat) (runs : List (Nat × Nat)) (g : Past) : Bool :=
  k.lineDirty line && k.cache.any fun l => l.line == line && g.outdatesBank c l runs

/-- The key of a word among those that atomics have reached. -/
def wordKey : Loc → Nat
  | .mem pa => pa
  | .spad c off => 2 ^ 60 + c * 2 ^ 20 + off

/-- An atomic is ordered after the earlier ones on its word, and before the later ones (R212). -/
def State.linkAtomic (s : State) (c q : Nat) (e : LoadEntry) (l : Loc) : State :=
  let before := mapGet {} s.linked (wordKey l)
  ({ s with linked := mapSet {} s.linked (wordKey l) (before.join (s.past c q e.chain)) } : State).modCore c fun k => k.join q (e.order + 1) before

end Sys2Proof.Machine
end

