-- ==== Sys2Proof/Machine/Trace.lean ====
section
/-! DEFINITION. The trace of a sequencer (R275, R276): 64-bit records written to a buffer in memory,
outside the queues. -/
namespace Sys2Proof.Machine

/-- TRACECTL fields (R275). -/
def Seq.traceOn (x : Seq) : Bool := x.tracectl.getLsbD 0
def Seq.traceSize (x : Seq) : Nat := 4096 * 2 ^ bits x.tracectl.toNat 11 8
def Seq.traceBase (x : Seq) : Nat := bits x.tracectl.toNat 55 12 * 4096

/-- A value as 8 bytes. -/
def wordBytes (w : Nat) : List Byte := natBytes 8 w

/-- Write a doubleword of the trace buffer at an offset; an offset that does not translate for a store
is lost (log entry 20). -/
def State.tracePut (s : State) (c q off w : Nat) : State :=
  let x := s.seq c q
  match s.resolveIn x.asid .store (x.traceBase + off) with
  | .at (.mem pa) => s.mergeRun pa (wordBytes w)
  | _ => s

def State.traceGet (s : State) (c q off : Nat) : Nat :=
  let x := s.seq c q
  match s.resolveIn x.asid .store (x.traceBase + off) with
  | .at (.mem pa) => (s.read64 pa).toNat
  | _ => 0

/-- Doublewords from an offset on, and the write offset behind them. -/
def State.tracePuts (s : State) (c q off : Nat) (ws : List Nat) : State :=
  ((ws.zipIdx.foldl (fun s e => s.tracePut c q (off + 8 * e.2) e.1) s)).tracePut c q 0 (off + 8 * ws.length)

/-- Put one record, of one or more doublewords, at the write offset.  In a full buffer it follows a SYNC record at the
start, or it is dropped and counted, and so is every record after it (R275, R276; log entry 20). -/
def State.traceRaw (s : State) (c q : Nat) (ws : List Nat) : State :=
  let x := s.seq c q
  let off := max 64 (s.traceGet c q 0)
  if x.tracectl.getLsbD 2 then
    if off + 8 * ws.length ≤ x.traceSize then s.tracePuts c q off ws else s.tracePuts c q 64 (s.clock * 256 :: ws)
  else if off + 8 * ws.length ≤ x.traceSize && s.traceGet c q 8 == 0 then s.tracePuts c q off ws
  else s.tracePut c q 8 (s.traceGet c q 8 + 1)

/-- Write the decisions gathered so far (type 2). -/
def State.traceFlush (s : State) (c q : Nat) : State :=
  let x := s.seq c q
  if x.trace.count = 0 then s
  else
    (s.traceRaw c q [2 + x.trace.count * 16 + x.trace.outcomes.toNat * 1024]).modSeq c q fun x =>
      { x with trace := { x.trace with count := 0, outcomes := 0 } }

/-- A record with its payload, when recording (R276). -/
def State.traceRec (s : State) (c q : Nat) (ws : List Nat) : State :=
  if (s.seq c q).traceOn then (s.traceFlush c q).traceRaw c q ws else s

/-- A decision: any control operation that evaluates a condition other than p0 uninverted (type 2). -/
def State.traceDecision (s : State) (c q : Nat) (taken : Bool) : State :=
  let x := s.seq c q
  if x.traceOn then
    let n := x.trace.count
    let o := if taken then x.trace.outcomes ||| BitVec.ofNat 54 (2 ^ n) else x.trace.outcomes
    let s := s.setSeq c q { x with trace := { x.trace with count := n + 1, outcomes := o } }
    if n + 1 = 54 then s.traceFlush c q else s
  else s

def lowCycle (x : Seq) : Nat := x.cycle % 2 ^ 32 * 2 ^ 32

/-- A stall ended (type 1); kind 0 freeze, 1 flag-wait, 2 merge loss; longer stalls use several records. -/
def stallRecords (cyc kind : Nat) : Nat → Nat → List Nat
  | 0, _ => []
  | fuel + 1, n =>
    if n = 0 then []
    else
      let k := min n (2 ^ 26 - 1)
      (1 + kind * 16 + k * 64 + cyc) :: stallRecords cyc kind fuel (n - k)

def State.traceStallEnd (s : State) (c q : Nat) : State :=
  let x := s.seq c q
  match x.trace.stallFrom with
  | some (kind, from_) =>
    let n := s.clock - from_
    ((stallRecords (lowCycle x) kind (n / (2 ^ 26 - 1) + 1) n).foldl (fun s w => s.traceRec c q [w]) s).modSeq c q fun x =>
      { x with trace := { x.trace with stallFrom := none } }
  | none => s

/-- A stall of a kind starts, or goes on; it ends one of another kind. -/
def State.traceStallStart (s : State) (c q kind : Nat) : State :=
  match (s.seq c q).trace.stallFrom with
  | some (k, _) =>
    if k = kind then s
    else (s.traceStallEnd c q).modSeq c q fun x => { x with trace := { x.trace with stallFrom := some (kind, s.clock) } }
  | none => s.modSeq c q fun x => { x with trace := { x.trace with stallFrom := some (kind, s.clock) } }

def State.traceCount (s : State) (c q : Nat) (n : Word) : State := s.traceRec c q [3 + n.toNat % 2 ^ 56 * 256]
def State.traceTarget (s : State) (c q : Nat) (a : Word) : State := s.traceRec c q [4 + bits a.toNat 55 4 * 256]
def State.traceTrap (s : State) (c q cause rslot : Nat) (defer : Bool) : State :=
  s.traceRec c q [5 + cause * 16 + rslot * 1024 + (if defer then 4096 else 0) + lowCycle (s.seq c q)]
def State.traceMarker (s : State) (c q v : Nat) : State := s.traceRec c q [6 + v % 2 ^ 32 * 2 ^ 32]
def State.traceSwap (s : State) (c q kind : Nat) : State := s.traceRec c q [8 + kind * 16 + lowCycle (s.seq c q)]
def State.traceRft (s : State) (c q : Nat) : State := s.traceRec c q [9 + lowCycle (s.seq c q)]

/-- A value that `lq.pop` or `cx.pop` delivers, with VALS set (type 7; R275, R336). -/
def State.traceValue (s : State) (c q : Nat) (v : Value) : State :=
  if (s.seq c q).tracectl.getLsbD 1 && s.featAcc.getLsbD 5 then
    let ws := match v with
      | .s w | .p w => [w.toNat]
      | .v x => (List.range 32).map fun i => (lane x (2 * i)).toNat + (lane x (2 * i + 1)).toNat * 2 ^ 32
    s.traceRec c q ((7 + ws.length * 16) :: ws)
  else s

/-- Recording starts: the buffer is empty but for a SYNC record (type 0; log entry 20).  `cr.trace` 1 while a recording
runs starts it anew (R83; the same entry). -/
def State.traceStart (s : State) (c q : Nat) : State :=
  let s := s.modSeq c q fun x => { x with tracectl := x.tracectl ||| 1, trace := Trace.init }
  (((s.tracePut c q 0 72).tracePut c q 8 0).tracePut c q 64 (s.clock * 256))

/-- Recording stops. -/
def State.traceStop (s : State) (c q : Nat) : State :=
  (s.traceFlush c q).modSeq c q fun x => { x with tracectl := x.tracectl &&& ~~~1 }

end Sys2Proof.Machine
end

