-- ==== Sys2Proof/Machine/Operands.lean ====
section
/-! DEFINITION. What a slot reads and where it writes: classes and conversions (R52, R53), guards (R54,
R55), sources (R56, R57), destinations (R58), result ports (R68 to R70), and the pops (R77, R98, R229). -/
namespace Sys2Proof.Machine

/-- What one slot of a bundle comes to (R65, R66). -/
inductive SlotRes where
  /-- The slot has committed. -/
  | ok (s : State)
  /-- A precise trap at this slot: its cause, the faulting address, and the marked head it met. -/
  | trap (c : Cause) (fault : Word) (head : Option HeadRecord) (s : State)
  /-- A trap that resumes after the bundle (R91). -/
  | after (c : Cause) (s : State)
  /-- The whole bundle freezes before any slot commits. -/
  | freeze (h : Hold)
  /-- A flag-wait: the slots before are committed, this one waits. -/
  | wait (h : Hold) (s : State)
  deriving DecidableEq, Repr

abbrev Sem := State → SlotRes

/-- A trap with no faulting address and no marked head. -/
abbrev SlotRes.plain (c : Cause) (s : State) : SlotRes := .trap c 0 none s

/-! ### The issuing sequencer -/

def State.me (s : State) : Seq := s.seq s.cur.core s.cur.q
def State.setMe (s : State) (x : Seq) : State := s.setSeq s.cur.core s.cur.q x
def State.modMe (s : State) (f : Seq → Seq) : State := s.modSeq s.cur.core s.cur.q f
def State.myCore (s : State) : Core := s.core s.cur.core
def State.modMyCore (s : State) (f : Core → Core) : State := s.modCore s.cur.core f
/-- The predicate registers as they stood at the start of the cycle (R65, R111). -/
def State.pred (s : State) (n : Nat) : Word := pregIn s.cur.preds n

/-! ### Classes (R52, R53, R56, R58, R60) -/

def Value.toS : Value → Word
  | .s w | .p w => w
  | .v x => (lane x 1) ++ (lane x 0)
def laneOfBit (w : Word) (i : Nat) : Lane := if w.getLsbD i then 0xFFFFFFFF else 0
def Value.toV : Value → Vec
  | .s w => List.replicate 64 (w.truncate 32)
  | .v x => x
  | .p w => mkVec (laneOfBit w)
def bitsOfLanes (x : Vec) : Word := BitVec.ofNat 64 (bitsNat ((List.range 64).map fun i => lane x i != 0))
def Value.toP : Value → Word
  | .s w | .p w => w
  | .v x => bitsOfLanes x

/-- The value of all bits 0 or all bits 1 of a class (R52). -/
def Value.fill (b : Bool) : Cls → Value
  | .s => .s (if b then Word.ones else 0)
  | .p => .p (if b then Word.ones else 0)
  | .v => .v (List.replicate 64 (if b then 0xFFFFFFFF else 0))

/-- The class of a register or operand-port destination (R58). -/
def destCls (d : Nat) : Cls :=
  if d < 0x40 then .s
  else if d < 0x60 then .v
  else if d < 0xA0 then .p
  else if d = 0xA4 then .p
  else if d = 0xA5 || d = 0xA6 || d = 0xAD then .v
  else .s

/-! ### Guards (R54, R55) -/

def State.guardMask (s : State) (g : BitVec 7) : Word :=
  let m := s.pred (g.toNat % 64)
  if g.getLsbD 6 then ~~~m else m

/-! ### Result ports (R68 to R70) -/

def trigLater (a b : Res) : Res := if a.vis ≤ b.vis then b else a

/-- The current result in cycle `k` (R69). -/
def Port.current (p : Port) (k : Nat) : Res :=
  p.queue.foldl (fun cur r => if r.vis ≤ k then trigLater cur r else cur) p.cur

/-- Some operation triggered after the current result's has `k` inside its window (R69). -/
def Port.inWindow (p : Port) (k : Nat) : Bool :=
  p.queue.any fun r => (p.current k).trig < r.trig && r.trig < k && k < r.vis

/-- Results whose visibility cycle has come are presented (R70). -/
def Port.present (p : Port) (k : Nat) : Port :=
  { cur := p.current k, queue := p.queue.filter fun r => k < r.vis }

/-- An operation of latency `l` triggered in cycle `k` writes the port (R68). -/
def Port.push (p : Port) (k l : Nat) (v : Value) : Port :=
  let p := p.present k
  { p with queue := p.queue ++ [{ trig := k, vis := k + l, val := v }] }

/-- A handler's operation writes the port: a read waits for the last one, so that the ones before it are never read
(R271). -/
def Port.pushLast (p : Port) (k l : Nat) (v : Value) : Port :=
  { p.present k with queue := [{ trig := k, vis := k + l, val := v }] }

/-- The later triggered of two results. -/
def Res.newer (a b : Res) : Res := if a.trig ≤ b.trig then b else a

/-- The results in flight become visible at once, in trigger order, and the newest stays; of the results that were
visible before, it is the current one that counts (R19, R69). -/
def Port.settle (p : Port) (k : Nat) : Port :=
  let p := p.present k
  { cur := { trig := 0, vis := 0, val := (p.queue.foldl Res.newer p.cur).val }, queue := [] }

/-- The current result alone; results in flight are discarded (R35, R90). -/
def Port.discard (p : Port) (k : Nat) : Port :=
  { cur := { trig := 0, vis := 0, val := (p.current k).val }, queue := [] }

/-- What a source, a pop included, comes to. -/
inductive SrcRes where
  | val (v : Value) (s : State)
  | trap (c : Cause) (fault : Word) (head : Option HeadRecord) (s : State)
  | freeze (h : Hold)
  | wait (h : Hold) (s : State)
  deriving DecidableEq, Repr

/-- A full store queue or send buffer freezes the bundle before its slots do anything (R64, R99, R230). -/
def SlotRes.roomOr (f r : SlotRes) : SlotRes :=
  match f with
  | .freeze .storeRoom => .freeze .storeRoom
  | .freeze .sendRoom => .freeze .sendRoom
  | _ => r

/-- A source and what is done with its value.  Where the source traps or waits, a trigger without room freezes first:
whether it has room depends on no value; a translation that the trigger would miss is not looked for (R64, R99; log entry
137). -/
def SrcRes.bind (r : SrcRes) (f : Value → State → SlotRes) : SlotRes :=
  match r with
  | .val v s => f v s
  | .trap c a h s => (f Value.zero s).roomOr (.trap c a h s)
  | .freeze h => .freeze h
  | .wait h s => (f Value.zero s).roomOr (.wait h s)

/-- An undefined value of a class (R8). -/
def State.freshOf (s : State) : Cls → Value × State
  | .s => (.s s.freshWord.1, s.freshWord.2)
  | .p => (.p s.freshWord.1, s.freshWord.2)
  | .v => (.v s.freshVec.1, s.freshVec.2)

def Value.cls : Value → Cls
  | .s _ => .s
  | .v _ => .v
  | .p _ => .p

/-- Read a result port (R69); a handler waits for its own results (R271). -/
def readPort (p : Port) (s : State) : SrcRes :=
  let x := s.me
  if x.handler then
    if (p.present x.now).queue.isEmpty then .val (p.present x.now).cur.val s else .wait (.port p.queue.length) s
  else if p.inWindow x.cycle then
    let r := s.freshOf (p.current x.cycle).val.cls
    .val r.1 r.2
  else .val (p.current x.cycle).val s

/-- The row on the port in a cycle: until the trigger cycle has ended, the earlier drain's (R65, R187). -/
def Drain.rowAt (d : Drain) (cycle : Nat) : Option Vec :=
  if cycle = d.cycle then d.prev else if d.cycle + 2 ≤ cycle then d.rows[cycle - d.cycle - 2]? else none

/-- `mx.row`: row r of the drain is there in cycle c + 2 + r only (R187). -/
def readRow (s : State) : SrcRes :=
  match s.myCore.drain.bind fun d => d.rowAt s.me.cycle with
  | some v => .val (.v v) s
  | none => .val (.v s.freshVec.1) s.freshVec.2

/-! ### Pops -/

/-- Take out the first entry that leaves something to pop. -/
def popFirst : List LoadEntry → Option (LoadEntry × List LoadEntry)
  | [] => none
  | e :: es => if e.silent then (popFirst es).map fun r => (r.1, e :: r.2) else some (e, es)

/-- The stamp result of a checked load goes to its predicate (R111). -/
def applyStamp (e : LoadEntry) (x : Seq) : Seq :=
  match e.check with
  | some k => x.setPreg k.pred.toNat (if e.stampOk then Word.ones else 0)
  | none => x

/-- A pop source has delivered a value; the pop stands once its slot commits. -/
def State.took (s : State) (src : Nat) (v : Value) : State := { s with cur := { s.cur with popped := some (src, v) } }

/-- `lq.pop` (R98, R100).  The queue is read as it stands at the start of the cycle (R65): an entry that an
earlier slot of the bundle placed is not there yet. -/
def popLoad (s : State) : SrcRes :=
  let x := s.me
  match popFirst x.loadQueue with
  | none => .trap .queueEmpty 0 none s
  | some (e, rest) =>
    if s.cur.order ≤ e.order then .trap .queueEmpty 0 none s
    else if !x.handler && x.cycle < e.landing then .trap .earlyPop 0 none s
    else if !e.arrived then .freeze .popData
    else match e.mark with
      | some c => .trap c e.markAddr (some .load) s
      | none => .val e.value ((s.setMe (applyStamp e (x.setLoadQueue rest))).took 0xA9 e.value)

/-- The launch has used its circuits (R278). -/
def State.noteCircuit (s : State) : State :=
  match s.myCore.launch with
  | some id => s.modLaunch id fun l => { l with usedCircuits := true }
  | none => s

/-- `cx.pop` (R229).  One that traps has used the circuits, or one whose slot traps later (R278; log entry 140). -/
def popCircuit (s : State) : SrcRes :=
  let s := s.noteCircuit
  match s.myCore.circuit with
  | [] => .freeze .circuitPop
  | e :: rest =>
    if e.poisoned then .trap .link 0 (some .circuit) s
    else
      let t := (s.modMyCore fun k => { k with circuit := rest }).took 0xAA (.v e.val)
      .val (.v e.val) { t with cur := { t.cur with taken := e.chain, takenAt := s.me.order } }

/-- `cq.pop` (R77, R78). -/
def popCount1 (s : State) : SrcRes :=
  match s.me.countQueue with
  | [] => .trap .queueEmpty 0 none s
  | w :: rest => .val (.s w) ((s.modMe fun x => { x with countQueue := rest }).took 0xAC (.s w))

/-- A push onto the count queue (R77, R78). -/
def pushCount (w : Word) (s : State) : SlotRes :=
  if s.me.countQueue.length < Config.countEntries then
    .ok (s.modMe fun x => { x with countQueue := x.countQueue ++ [w] })
  else .plain .loopOverflow s

/-! ### Sources (R47, R50, R56, R57) -/

/-- The immediate of a source field, with the header's extension (R47, R50). -/
def immediate (ext : Option (BitVec 8)) (a : BitVec 12) : Word :=
  match ext with
  | some x => (x ++ a.truncate 11 : BitVec 19).signExtend 64
  | none => (a.truncate 11 : BitVec 11).signExtend 64

/-- Passes completed by the loop `k` places out from the innermost (R57). -/
def loopPasses (x : Seq) (k : Nat) : Word :=
  match x.loopStack[k]? with
  | some e => e.passes
  | none => 0

/-- The unit whose result port or pop a source address is (R13, R56). -/
def srcUnit (a : Nat) : Option UnitId :=
  match a with
  | 0xA0 => some .ia0
  | 0xA1 => some .ia1
  | 0xA2 | 0xA3 => some .im
  | 0xA4 => some .pl
  | 0xA5 | 0xA6 | 0xA7 => some .vx
  | 0xA8 => some .mx
  | 0xAA => some .cx
  | 0xAB => some .cr
  | _ => none

/-- The unit whose operand port a destination address is (R13, R58). -/
def destUnit (d : Nat) : Option UnitId :=
  match d with
  | 0xA0 => some .ia0
  | 0xA1 => some .ia1
  | 0xA2 | 0xA3 => some .im
  | 0xA4 => some .pl
  | 0xA5 | 0xA6 => some .vx
  | 0xA7 => some .mx
  | 0xA8 => some .tf
  | 0xA9 | 0xAA => some .lq
  | 0xAB => some .sq
  | 0xAC => some .ag
  | 0xAD => some .dg
  | 0xAE | 0xAF => some .sy
  | 0xB0 => some .cx
  | 0xB1 => some .kv
  | 0xB2 => some .ep
  | 0xB3 => some .cr
  | _ => none

/-- The issuing sequencer may reach the unit (R14, R270). -/
def State.mayReach (s : State) (u : Option UnitId) : Bool :=
  match u with
  | some u => s.myCore.owns s.cur.q u
  | none => true

/-- A leased unit that is not held traps (R14). -/
def owned (u : UnitId) (s : State) (f : SlotRes) : SlotRes :=
  if s.mayReach (some u) then f else .plain .unitNotOwned s

/-- A port that is only a source: the result ports and the special sources 0x0A0 to 0x0B7. -/
def readSpecial (a : Nat) (dest : Cls) (s : State) : SrcRes :=
  let x := s.me
  let k := s.myCore
  match a with
  | 0xA0 => readPort x.results.ia0r s
  | 0xA1 => readPort x.results.ia1r s
  | 0xA2 => readPort x.results.imr s
  | 0xA3 => readPort x.results.imh s
  | 0xA4 => readPort x.results.plr s
  | 0xA5 => readPort k.vxr s
  | 0xA6 => readPort k.vxm s
  | 0xA7 => readPort k.vxs s
  | 0xA8 => readRow s
  | 0xA9 => popLoad s
  | 0xAA => popCircuit s
  | 0xAB => readPort x.results.crr s
  | 0xAC => popCount1 s
  | 0xB3 => .val (.s (BitVec.ofNat 64 (s.cur.core * 2 + s.cur.q))) s
  | 0xB4 => .val (.v (mkVec fun i => BitVec.ofNat 32 i)) s
  | 0xB5 => .val (Value.fill false dest) s
  | 0xB6 => .val (Value.fill true dest) s
  | 0xB7 => .val (.s (BitVec.ofNat 64 x.cycle)) s
  | _ => if 0xAD ≤ a && a ≤ 0xB2 then .val (.s (loopPasses x (a - 0xAD))) s else .trap .reservedPort 0 none s

/-- Read a source for a destination of a class (R56). -/
def readSrc (a : BitVec 12) (dest : Cls) (s : State) : SrcRes :=
  let n := a.toNat
  if 0x800 ≤ n then .val (.s (immediate (s.cur.ext.getD s.cur.slot none) a)) s
  else if n < 0x40 then .val (.s (s.me.sreg n)) s
  else if n < 0x60 then .val (.v (s.me.vreg (n - 0x40))) s
  else if n < 0xA0 then .val (.p (s.pred (n - 0x60))) s
  else if s.mayReach (srcUnit n) then readSpecial n dest s
  else .trap .unitNotOwned 0 none s

/-! ### Destinations (R55, R58) -/

def mergeLanes (mask : Word) (new old : Vec) : Vec := mkVec fun i => if mask.getLsbD i then lane new i else lane old i
def mergeBits (mask new old : Word) : Word := (new &&& mask) ||| (old &&& ~~~mask)

/-- Write a register or an operand port, lanes or bits chosen by the guard mask (R55, R58).  The
destination `cq.push` and the triggers are not written here. -/
def writeDest (d : Nat) (mask : Word) (v : Value) (s : State) : State :=
  if d < 0x40 then s.modMe fun x => x.setSreg d v.toS
  else if d < 0x60 then s.modMe fun x => x.setVreg (d - 0x40) (mergeLanes mask v.toV (x.vreg (d - 0x40)))
  else if d < 0xA0 then s.modMe fun x => x.setPreg (d - 0x60) (mergeBits mask v.toP (x.preg (d - 0x60)))
  else
    let port := fun (f : OpPorts → OpPorts) => s.modMe fun x => { x with ports := f x.ports }
    match d with
    | 0xA0 => port fun o => { o with ia0o := v.toS }
    | 0xA1 => port fun o => { o with ia1o := v.toS }
    | 0xA2 => port fun o => { o with imo := v.toS }
    | 0xA3 => port fun o => { o with imp := v.toS }
    | 0xA4 => port fun o => { o with plo := mergeBits mask v.toP o.plo }
    | 0xA5 => s.modMyCore fun k => { k with vxo := mergeLanes mask v.toV k.vxo }
    | 0xA6 => s.modMyCore fun k => { k with vxp := mergeLanes mask v.toV k.vxp }
    | 0xA7 => s.modMyCore fun k => { k with mxo := v.toS }
    | 0xA8 => s.modMyCore fun k => { k with tfo := v.toS }
    | 0xA9 => port fun o => { o with lqa := v.toS }
    | 0xAA => port fun o => { o with lqb := v.toS }
    | 0xAB => port fun o => { o with sqo := v.toS }
    | 0xAC => port fun o => { o with ago := v.toS }
    | 0xAD => port fun o => { o with dgo := mergeLanes mask v.toV o.dgo }
    | 0xAE => port fun o => { o with syo := v.toS }
    | 0xAF => port fun o => { o with syp := v.toS }
    | 0xB0 => s.modMyCore fun k => { k with cxo := v.toS }
    | 0xB1 => s.modMyCore fun k => { k with kvo := v.toS }
    | 0xB2 => s.modMyCore fun k => { k with epo := v.toS }
    | 0xB3 => port fun o => { o with cro := v.toS }
    | _ => s

/-- The guard's effect on a class-S destination or trigger (R55): with bit 0 of the mask 0 nothing
happens at all. -/
def guardedS (g : BitVec 7) (s : State) (f : SlotRes) : SlotRes :=
  if (s.guardMask g).getLsbD 0 then f else .ok s

/-- A guarded pop of the count queue follows the class-S rule wherever it goes: with bit 0 of the mask 0 its move does not
take place (R55, R78; log entry 131). -/
def guardedPop (g : BitVec 7) (a : BitVec 12) (s : State) (f : SlotRes) : SlotRes :=
  if a = 0x0AC then guardedS g s f else f

/-- A move into a register or an operand port (R46, R55). -/
def moveTo (g : BitVec 7) (d : Nat) (a : BitVec 12) (s : State) : SlotRes :=
  if 0xB5 ≤ d then .plain .reservedPort s
  else if !s.mayReach (destUnit d) then .plain .unitNotOwned s
  else match destCls d with
  | .s => guardedS g s ((readSrc a .s s).bind fun v s => .ok (writeDest d Word.ones v s))
  | c => guardedPop g a s ((readSrc a c s).bind fun v s' => .ok (writeDest d (s.guardMask g) v s'))

/-- A class-S trigger: all or nothing (R55). -/
def trigS (g : BitVec 7) (a : BitVec 12) (f : Word → Sem) : Sem := fun s =>
  guardedS g s ((readSrc a .s s).bind fun v s => f v.toS s)

/-- A class-V trigger: the unit is always triggered, with the guard mask (R55). -/
def trigV (g : BitVec 7) (a : BitVec 12) (f : Word → Vec → Sem) : Sem := fun s =>
  guardedPop g a s ((readSrc a .v s).bind fun v s' => f (s.guardMask g) v.toV s')

/-- A class-P trigger (R55). -/
def trigP (g : BitVec 7) (a : BitVec 12) (f : Word → Word → Sem) : Sem := fun s =>
  guardedPop g a s ((readSrc a .p s).bind fun v s' => f (s.guardMask g) v.toP s')

/-- A trigger of a leased unit: the lease comes before the guard (R14, R64). -/
def leased (u : UnitId) (m : Sem) : Sem := fun s => owned u s (m s)

end Sys2Proof.Machine
end

