-- ==== Sys2Proof/Machine/Flags.lean ====
section
/-! DEFINITION. FPCTL (R129 to R131), the control registers' values and writable fields (R79, R80), and
what is due at the end of a cycle. -/
namespace Sys2Proof.Machine

/-- The rounding mode of FPCTL (R128, R129). -/
def Seq.rm (x : Seq) : RM := RM.ofCode (bits x.fpctl.toNat 2 0)
def RM.code : RM → Nat
  | .rne => 0
  | .rtz => 1
  | .rup => 2
  | .rdn => 3
  | .rna => 4

/-- Or sticky flags into FPCTL [10:4] (R131). -/
def orFlags (fpctl : Word) (f : Flags) : Word := fpctl ||| ((f.zeroExtend 64) <<< 4)

/-- Flags that the slot sets at the end of the trigger cycle (R131). -/
def State.addFlags (s : State) (f : Flags) : State := s.modMe fun x => { x with lateFlags := x.lateFlags ||| f }

/-- Replace bits [hi:lo] of a word by those of another. -/
def maskBits (hi lo : Nat) : Word := BitVec.ofNat 64 (2 ^ (hi + 1) - 2 ^ lo)
def mergeMask (m old new : Word) : Word := (old &&& ~~~m) ||| (new &&& m)

/-! ### Causes (R267) -/

def Cause.code : Cause → BitVec 6
  | .illegalBundle => 0x01
  | .reservedPort => 0x02
  | .unitNotOwned => 0x03
  | .nonuniformBranch => 0x04
  | .earlyPop => 0x05
  | .queueEmpty => 0x06
  | .loopOverflow => 0x07
  | .misaligned => 0x09
  | .translation => 0x0A
  | .protection => 0x0B
  | .kvCow => 0x0C
  | .kvBounds => 0x0D
  | .sparseMeta => 0x0E
  | .groupOffsets => 0x0F
  | .shapeRecord => 0x10
  | .tileShape => 0x11
  | .barrierGeneration => 0x12
  | .digestRegion => 0x14
  | .eccUncorrectable => 0x16
  | .link => 0x17
  | .privilege => 0x18
  | .breakpoint => 0x19
  | .singleStep => 0x1A
  | .preempt => 0x1B
  | .watchdog => 0x1C
  | .cancel => 0x1D
  | .trapInstr => 0x1E
  | .xformRing => 0x1F
  | .scratchBounds => 0x20
  | .other c => c

def Cause.ofCode (c : BitVec 6) : Cause :=
  match c.toNat with
  | 0x01 => .illegalBundle
  | 0x02 => .reservedPort
  | 0x03 => .unitNotOwned
  | 0x04 => .nonuniformBranch
  | 0x05 => .earlyPop
  | 0x06 => .queueEmpty
  | 0x07 => .loopOverflow
  | 0x09 => .misaligned
  | 0x0A => .translation
  | 0x0B => .protection
  | 0x0C => .kvCow
  | 0x0D => .kvBounds
  | 0x0E => .sparseMeta
  | 0x0F => .groupOffsets
  | 0x10 => .shapeRecord
  | 0x11 => .tileShape
  | 0x12 => .barrierGeneration
  | 0x14 => .digestRegion
  | 0x16 => .eccUncorrectable
  | 0x17 => .link
  | 0x18 => .privilege
  | 0x19 => .breakpoint
  | 0x1A => .singleStep
  | 0x1B => .preempt
  | 0x1C => .watchdog
  | 0x1D => .cancel
  | 0x1E => .trapInstr
  | 0x1F => .xformRing
  | 0x20 => .scratchBounds
  | _ => .other c

/-- Causes whose FPAGE is the faulting address's page (R266). -/
def Cause.hasPage : Cause → Bool
  | .misaligned | .translation | .protection | .scratchBounds | .digestRegion => true
  | _ => false

/-! ### Control registers (R79) -/

def boolBit (b : Bool) (i : Nat) : Nat := if b then 2 ^ i else 0

/-- Units of LEASE order that sequencer `q` holds. -/
def Core.heldMask (k : Core) (q : Nat) : Nat := bitsNat ((List.range 7).map fun b => k.holds q b)

/-- SQS (R266). -/
def sqsValue (k : Core) (q : Nat) : Word :=
  let x := k.seq q
  BitVec.ofNat 64 (x.cause.code.toNat + x.rslot.toNat * 64 + boolBit x.handler 8 + boolBit x.step 9 +
    x.loops.length * 2 ^ 10 + boolBit x.defer 13 + boolBit x.clrHead 14 + k.heldMask q * 2 ^ 15 +
    x.fpage.toNat * 2 ^ 24)

/-- LEASE (R16). -/
def leaseValue (k : Core) : Word := BitVec.ofNat 64 ((k.hold &&& k.claim).toNat + k.claim.toNat * 256)

/-- The role of a bank: 0 cache, 1 scratchpad, 2 operand buffer (R190, R191). -/
def Core.role (k : Core) (b : Nat) : Nat :=
  if b < k.scratchBanks then 1 else if 32 - k.operandBanks ≤ b then 2 else 0

/-- BANKROLE (R190). -/
def bankRoleValue (k : Core) : Word :=
  BitVec.ofNat 64 ((List.range 32).foldl (fun n b => n + k.role b * 4 ^ b) 0)

/-- The control registers that exist (R79). -/
def cregListed (a : Nat) : Bool :=
  a == 0x000 || a == 0x001 || a == 0x002 || a == 0x003 || a == 0x004 || a == 0x010 || a == 0x020 ||
  a == 0x030 || a == 0x040 || a == 0x100 || a == 0x101

/-- The value of a control register, for sequencer `q` of core `c` (R79). -/
def State.creg (s : State) (c q a : Nat) : Word :=
  let k := s.core c
  let x := k.seq q
  match a with
  | 0x000 => sqsValue k q
  | 0x001 => x.xpc
  | 0x002 => x.fpctl
  | 0x003 => leaseValue k
  | 0x004 => x.trapvec
  | 0x010 => bankRoleValue k
  | 0x020 => x.remtime
  | 0x030 => x.tracectl
  | 0x040 => BitVec.ofNat 64 (x.asid % 65536)
  | 0x100 => BitVec.ofNat 64 (s.die (dieOf c)).remways
  | 0x101 => s.digbase
  | _ => 0

/-- FPCTL's writable fields: a mode of 5 to 7 leaves the mode as it is (R129). -/
def fpctlWrite (old new : Word) : Word :=
  let r := mergeMask (maskBits 10 4) old new
  if bits new.toNat 2 0 < 5 then mergeMask (maskBits 2 0) r new else r

/-- REMWAYS: a write of 9 to 15 leaves COUNT; ways that leave the remote role drop their unpinned lines
(R199). -/
def State.writeRemways (s : State) (d : Nat) (v : Word) : State :=
  let n := bits v.toNat 3 0
  if 8 < n then s
  else s.modDie d fun x =>
    { x with remways := n, remote := x.remote.filter fun l => 16 - n ≤ l.way || l.pins != 0 }

/-- DIGBASE: clearing EN removes every region; EN needs the feature (R233, R336). -/
def State.writeDigbase (s : State) (v : Word) : State :=
  let m := maskBits 51 12 ||| (if s.featAcc.getLsbD 1 then 1 else 0)
  let w := mergeMask m s.digbase v
  if w.getLsbD 0 then { s with digbase := w }
  else { s with digbase := w, regions := [], captured := [] }

/-- Write the writable fields of a control register (R79, R80). -/
def State.writeCreg (s : State) (c q a : Nat) (v : Word) : State :=
  let x := s.seq c q
  match a with
  | 0x000 =>
    if x.handler then s.setSeq c q { x with
      cause := Cause.ofCode (v.truncate 6), rslot := (v >>> 6).truncate 2, step := v.getLsbD 9,
      clrHead := v.getLsbD 14 } else s
  | 0x001 => if x.handler then s.setSeq c q { x with xpc := v &&& maskBits 55 4 } else s
  | 0x002 => s.setSeq c q { x with fpctl := fpctlWrite x.fpctl v }
  | 0x004 => s.setSeq c q { x with trapvec := v &&& maskBits 55 4 }
  | 0x020 => s.setSeq c q { x with remtime := v &&& maskBits 31 0 }
  | 0x030 =>
    let m := maskBits 55 8 ||| 5 ||| (if s.featAcc.getLsbD 5 then 2 else 0)
    let s' := s.setSeq c q { x with tracectl := v &&& m }
    if v.getLsbD 0 && !x.traceOn then s'.traceStart c q
    else if !v.getLsbD 0 && x.traceOn then (s.traceStop c q).modSeq c q fun x => { x with tracectl := v &&& m }
    else s'
  | 0x100 => s.writeRemways (dieOf c) v
  | 0x101 => s.writeDigbase v
  | _ => s

/-- Drop translations of an address space: one page, or all (R81, R204). -/
def Page.drops (p : Page) (asid : Nat) (all : Bool) (va : Nat) : Bool := p.asid == asid && (all || p.covers asid va)

def Seq.dropTranslations (x : Seq) (asid : Nat) (all : Bool) (va : Nat) : Seq :=
  { x with
    tlb := x.tlb.filter (fun p => !p.drops asid all va),
    walks := x.walks.filter (fun w => w.asid != asid),
    streams := x.streams.map fun e => (e.1, match e.2.page with
      | some p => if p.drops asid all va then { e.2 with page := none } else e.2
      | none => e.2) }

/-- A sequencer drops translations of its address space: no walk that started before serves it (R81, R204). -/
def State.dropIn (s : State) (c q : Nat) (all : Bool) (va : Nat) : State :=
  let asid := (s.seq c q).asid
  (s.modSeq c q fun x => x.dropTranslations asid all va).modDie (dieOf c) fun d =>
    { d with walkers := d.walkers.map fun (w : Walker) => if w.asid = asid then { w with barred := (c, q) :: w.barred } else w }

/-- The sequencers of the package that run in an address space (R204). -/
def State.inSpace (s : State) (asid : Nat) : List (Nat × Nat) :=
  (s.coreIds.map fun c => [(c, 0), (c, 1)]).flatten.filter fun u => (s.seq u.1 u.2).asid == asid

/-- A sequencer drops what the host invalidates (R204). -/
def State.hostDrop (s : State) (u : Nat × Nat) : State :=
  match s.hostDrops with
  | (asid, all, va, left) :: rest =>
    if left.contains u then
      let t := s.dropIn u.1 u.2 all va
      { t with hostDrops := if (left.erase u).isEmpty then rest else (asid, all, va, left.erase u) :: rest }
    else s
  | [] => s

/-- One of the things that fall due at the end of a cycle. -/
def State.applyOne (s : State) (c q : Nat) : Late → State
  | .creg a v => s.writeCreg c q a v
  | .drop all va => s.dropIn c q all va

/-- The flags that asynchronous operations have set in this clock (R131). -/
def Seq.flagsOf (x : Seq) (clock : Nat) : BitVec 7 := if x.clockFlags.1 = clock then x.clockFlags.2 else 0

/-- What is due at the end of the cycle: the writes, then the flags, ored in; flags that asynchronous
operations set in the same clock survive the write (R80, R81, R131). -/
def State.applyLate (s : State) (c q : Nat) : State :=
  let x := s.seq c q
  let s := x.late.foldl (fun s e => s.applyOne c q e) s
  s.modSeq c q fun y => { y with
    fpctl := orFlags (orFlags y.fpctl x.lateFlags) (y.flagsOf s.clock), late := [], lateFlags := 0 }

end Sys2Proof.Machine
end

