-- ==== Sys2Proof/Machine/Work.lean ====
section
/-! DEFINITION. Work (R27 to R42): starting and stopping units, completion of the levels, cancel,
retry and the containment walk. -/
namespace Sys2Proof.Machine

/-! ### Leases handed over, units stopped (R19, R20, R35, R90) -/

/-- The results in flight of a leased unit become visible at once; `mx.row` loses its rows (R19, R187). -/
def Core.settle (k : Core) (now bit : Nat) : Core :=
  match bit with
  | 0 => { k with vxr := k.vxr.settle now, vxm := k.vxm.settle now, vxs := k.vxs.settle now }
  | 1 => { k with drain := none }
  | _ => k

/-- The results in flight of a leased unit are discarded (R35, R90). -/
def Core.discardUnit (k : Core) (now bit : Nat) : Core :=
  match bit with
  | 0 => { k with vxr := k.vxr.discard now, vxm := k.vxm.discard now, vxs := k.vxs.discard now }
  | 1 => { k with drain := none }
  | _ => k

def overBits (mask : Nat) (f : Core → Nat → Core) (k : Core) : Core :=
  (List.range 7).foldl (fun k b => if bitAt mask b then f k b else k) k

/-- Hand the units of a mask to the other sequencer at the end of the clock (R19, R25). -/
def Core.handOver (k : Core) (q mask : Nat) : Core :=
  let k := overBits mask (fun k b => k.settle (k.seq q).cycle b) k
  let m := BitVec.ofNat 7 mask
  { k with nextHold := if q = 0 then k.nextHold ||| m else k.nextHold &&& ~~~m, nextHeld := k.nextHeld ||| m }

/-- Hand-over when a unit ends: to the other sequencer when it runs; else the leases stay as they are
after a halt (R20), and pass to neither after a stop (R35). -/
def Core.passLeases (k : Core) (q : Nat) (halted : Bool) : Core :=
  let mask := k.heldMask q
  let other := (k.seq (1 - q)).run
  if other = .running || other = .parked then k.handOver q mask
  else
    let k := overBits mask (fun k b => k.discardUnit (k.seq q).cycle b) k
    if halted then k
    else
      let m := BitVec.ofNat 7 mask
      { k with nextHold := k.nextHold &&& ~~~m, nextHeld := k.nextHeld &&& ~~~m }

/-- Entries of an emptied load queue that go on: asynchronous tile operations and atomics (R35, R90). -/
def LoadEntry.goesOn (e : LoadEntry) : Bool :=
  !e.performed && (match e.kind with
    | .tileLoad | .bind | .atomic .. | .bget _ => true
    | .epDone t => t.getLsbD 24
    | _ => false)

def leftovers (l : List LoadEntry) : List LoadEntry :=
  (l.filter LoadEntry.goesOn).map fun e => { e with silent := true }

/-- The trace of a unit that ends holds every stall and decision (R276). -/
def State.traceEnd (s : State) (c q : Nat) : State :=
  let s := s.traceStallEnd c q
  if (s.seq c q).traceOn then s.traceFlush c q else s

/-- What a unit leaves when it ends (R35, R90). -/
def Seq.ended (x : Seq) : Seq :=
  { x with
    run := .ending, loads := leftovers (x.loads ++ x.handlerLoads), countQueue := [], loops := [],
    slot := 0, hold := none, recordBuf := none, walks := [], kvRead := [], done := false, start := none, shadow := none,
    shadowLate := [], shadowFlags := 0, late := [], lateFlags := 0, handler := false, handlerLoads := [],
    handlerLoops := [], stepping := false, pending := [], budget := none, stepDone := false }

/-- A unit is stopped (R35). -/
def State.stopUnit (s : State) (c q : Nat) : State :=
  (s.traceEnd c q).modCore c fun k =>
    let k := k.passLeases q false
    k.setSeq q (k.seq q).ended

/-- A running or parked unit. -/
def Seq.active (x : Seq) : Bool := x.run == .running || x.run == .parked

/-- No kv operation of the sequencer has made its checks and is still writing (R283). -/
def Seq.kvOver (x : Seq) : Bool := (x.kvLeft.getD []).isEmpty

/-- The active units of a launch. -/
def State.activeUnits (s : State) (l : Launch) : List (Nat × Nat) :=
  (l.cores.map fun c => ([0, 1].filter fun q => (s.seq c q).active).map fun q => (c, q)).flatten

/-- The units of a launch that have started and are not complete. -/
def State.liveUnits (s : State) (l : Launch) : List (Nat × Nat) :=
  (l.cores.map fun c => ([0, 1].filter fun q => (s.seq c q).run != .idle).map fun q => (c, q)).flatten

def State.stopAll (s : State) (us : List (Nat × Nat)) : State := us.foldl (fun s u => s.stopUnit u.1 u.2) s

/-- Deliver CANCEL or PREEMPT to a unit: at its next boundary, or a stop at once without a handler or
in one; a cause that is pending already is delivered once (R36, R259, R268). -/
def State.deliver (s : State) (cause : Cause) (u : Nat × Nat) : State :=
  let x := s.seq u.1 u.2
  if !x.active then s
  else if x.trapvec = 0 || x.handler then s.stopUnit u.1 u.2
  else s.setSeq u.1 u.2 { x with run := .running, pending := if x.pending.contains cause then x.pending else x.pending ++ [cause] }

/-! ### Starting (R17, R31, R32, R192) -/

/-- A sequencer in the start state of R32; a unit of a child launch has acquired its parent's release (R215, R232; log
entry 99). -/
def startSeq (l : Launch) (pos : Nat) (entry : Word) (old : Seq) : Seq :=
  { Seq.init with
    run := .running, tlb := old.tlb, pc := entry, entry := entry, asid := l.asid,
    sregs := mapSet 0 (mapSet 0 (mapSet 0 [] 0 l.vec.arg) 1 (BitVec.ofNat 64 pos)) 2 (BitVec.ofNat 64 l.hdr.cores),
    remtime := BitVec.ofNat 64 l.hdr.remtime, chain := old.chain.join l.parentPast }

/-- Banks of the scratchpad request, and of the operand request (R191). -/
def scratchBanksOf (h : Header) : Nat := (h.scratch + Config.bankBytes - 1) / Config.bankBytes
def operandBanksOf (h : Header) : Nat := max h.opbanks 2
def banksOk (h : Header) : Bool := scratchBanksOf h + operandBanksOf h + 2 ≤ 32

/-- The lines that stay when the roles change: those of banks that stay cache banks (R192, R207). -/
def Core.keptLines (k : Core) (h : Header) : List CacheLine :=
  k.cache.filter fun l => scratchBanksOf h ≤ l.bank && l.bank < 32 - operandBanksOf h

/-- A core at the start of a launch, its q0 at an entry bundle (R17, R31, R166, R192).  Its units are new ones,
whose retries count from 0 (R39; log entry 92). -/
def startCore (id : Nat) (l : Launch) (pos : Nat) (entry : Word) (k : Core) : Core :=
  { Core.init with
    seqs := [(0, startSeq l pos entry (k.seq 0)), (1, ({ Seq.init with tlb := (k.seq 1).tlb, asid := l.asid, chain := (k.seq 1).chain } : Seq))],
    held := l.hdr.claim, claim := l.hdr.claim, nextHeld := l.hdr.claim,
    scratchBanks := scratchBanksOf l.hdr, operandBanks := operandBanksOf l.hdr,
    cache := match l.parentSig with
      | some sig => (k.keptLines l.hdr).filter fun c => !sig.getLsbD (lineHash c.line)
      | none => k.keptLines l.hdr
    useCount := k.useCount, records := if l.retries = 0 then k.records else [], launch := some id, former := some id, position := pos }

/-- A core of a bay on which a launch starts no unit: its banks take their roles too (R192). -/
def spareCore (h : Header) (k : Core) : Core :=
  { k with
    scratchBanks := scratchBanksOf h, operandBanks := operandBanksOf h, spad := [], spadPoison := [], tiles := [],
    notReady := [], claims := [], cache := k.keptLines h }

/-- A tile register (R164). -/
def Core.tile (k : Core) (t : Nat) : Tile := mapGet Tile.init k.tiles t

/-- Unpin a binding's lines in the die's remote-line ways, but for those not pinned again yet; a line whose way has left
the remote role goes with its last pin (R165, R166, R173, R199). -/
def State.unpin (s : State) (c : Nat) (x : Tile) : State :=
  if x.state = .bound then
    let less := fun (l : RemoteLine) =>
      if x.lines.contains l.line && !x.waiting.contains l.line && homeDie (l.line * 256) != dieOf c then { l with pins := l.pins - 1 } else l
    s.modDie (dieOf c) fun d => { d with remote := (d.remote.map less).filter fun l => l.pins != 0 || 16 - d.remways ≤ l.way }
  else s

/-- Bindings of a core give up their pins (R166). -/
def State.unpinCore (s : State) (c : Nat) : State := (List.range 16).foldl (fun s t => s.unpin c ((s.core c).tile t)) s

/-- The cores of bays. -/
def coresOfBays (bays : List Nat) : List Nat := (bays.map fun b => (List.range 16).map (16 * b + ·)).flatten

/-- The entry address of a position: offsets count from the image's code (R330, R331). -/
def Launch.entryAt (l : Launch) (pos : Nat) : Word := BitVec.ofNat 64 (l.codeVa + l.hdr.entries.getD pos 0)

/-- What is still on its way to some cores is lost (log entry 93). -/
def State.dropInbound (s : State) (cores : List Nat) : State :=
  { s with flights := s.flights.filter (fun f => !cores.contains f.target)
           mcasts := s.mcasts.map (fun (m : McstFlight) => { m with targets := m.targets.filter (fun t => !cores.contains t) }) }

/-- Start a launch on its cores, from its start vector (R31, R39, R192).  What an earlier launch still had on
its way to these cores is lost (log entry 93); barrier tables stay as they are (142). -/
def State.startLaunch (s : State) (id : Nat) (l : Launch) : State :=
  let s := s.dropInbound l.cores
  let s := (coresOfBays l.bays).foldl (fun s c =>
    (s.unpinCore c).modCore c fun k => if l.cores.contains c then k else spareCore l.hdr k) s
  let s := l.cores.zipIdx.foldl (fun s e => s.modCore e.1 (startCore id l e.2 (l.entryAt e.2))) s
  let s := match l.parentSig with
    | some sig => s.modDie l.die fun d => { d with remote := d.remote.filter fun r => r.pins != 0 || !sig.getLsbD (lineHash r.line) }
    | none => s
  s.setLaunch id { l with
    state := .running, counter := l.cores.length, started := s.clock, isFailed := false, isAbsorbed := false,
    failure := none, excused := false, onEmpty := .complete, ckpt := none, drain := none, forLaunch := none,
    saved := [], stepping := none, usedCircuits := false, blockedFrom := none }

/-- Enlargements return to the die's pool when a launch leaves its bays or restarts (R42, R278). -/
def State.returnPool (s : State) (l : Launch) : State := s.modDie l.die fun d => { d with pool := d.pool + l.enlarged }

/-! ### Queues of launches -/

def Die.queue (d : Die) (n : Nat) : List Nat := mapGet [] d.queues n
def Die.setQueue (d : Die) (n : Nat) (l : List Nat) : Die := { d with queues := mapSet [] d.queues n l }
def State.dequeue (s : State) (id : Nat) (l : Launch) : State :=
  s.modDie l.die fun d => d.setQueue l.vec.queue ((d.queue l.vec.queue).filter (· != id))
def State.enqueueLaunch (s : State) (head : Bool) (id : Nat) (l : Launch) : State :=
  s.modDie l.die fun d =>
    let rest := (d.queue l.vec.queue).filter (· != id)
    d.setQueue l.vec.queue (if head then id :: rest else rest ++ [id])

/-- The bays that a victim leaves are kept for the candidate that it was a victim of, while that one waits (R258,
R261). -/
def State.keepBays (s : State) (l : Launch) : State :=
  match l.forLaunch with
  | some id => s.modLaunch id fun c => if c.state = .queued || c.state = .saved then { c with keptBays := c.keptBays ++ l.bays } else c
  | none => s

/-- The cores of a launch are free again; what stays in a core belongs to no launch. -/
def State.freeCores (s : State) (id : Nat) (l : Launch) : State :=
  l.cores.foldl (fun s c => s.modCore c fun k => if k.launch = some id then { k with launch := none, circuitCap := 16 } else k) (s.keepBays l)

/-- What a launch that is to start again, or a child that goes with its parent, has left on its cores goes, whether it still
stands there or has completed: its circuits and sends with what is on its way there, its record caches, its tiles and their
pins (R39, R278). -/
def State.emptyCircuits (s : State) (id : Nat) (l : Launch) : State :=
  let s := s.dropInbound (l.cores.filter fun c => (s.core c).former = some id)
  l.cores.foldl (fun s c =>
    if (s.core c).former = some id then (s.unpinCore c).modCore c fun k => { k with circuit := [], sends := [], records := [], tiles := [] } else s) s

/-- A launch back in its queue, to be started afresh (R39, R259). -/
def State.requeue (s : State) (head : Bool) (id : Nat) (l : Launch) : State :=
  let s := (((s.emptyCircuits id l).freeCores id l).returnPool l).enqueueLaunch head id l
  s.setLaunch id { l with state := .queued, tokens := 0, holdOff := false, cores := [], bays := [], counter := 0,
                          enlarged := 0, onEmpty := .complete, isFailed := false, isAbsorbed := false, failure := none,
                          excused := false, cancelled := false, ckpt := none, drain := none, forLaunch := none, saved := [] }

/-! ### Completion (R27 to R30, R253, R264) -/

def statusOf (failed absorbed : Bool) : Status := if failed then .failed else if absorbed then .absorbed else .ok

def State.post (s : State) (r : Record) : State := { s with posted := s.posted ++ [r] }

/-- The record of a level above the launch (R29, R36). -/
def LevelRec.record (r : LevelRec) (v : Level) (id : Nat) : Record :=
  { level := v, id := id, status := statusOf r.isFailed r.isAbsorbed,
    cause := match r.failure with
      | some f => .trap f.cause
      | none => if r.isFailed then .trap .cancel else .none
    core := (r.failure.map (·.core)).getD 0, q := (r.failure.map (·.q)).getD 0, kills := 0 }

def Launch.record (l : Launch) (id : Nat) : Record :=
  { level := .launch, id := id, status := statusOf l.isFailed l.isAbsorbed,
    cause := match l.failure with
      | some f => .trap f.cause
      | none => if l.isFailed then (if l.error = .none then .trap .cancel else l.error) else .none
    core := (l.failure.map (·.core)).getD 0, q := (l.failure.map (·.q)).getD 0, kills := l.kills }

/-- What a child's end does to the level above: its counter falls, and its status carries over unless
this level's ignore policy ended the walk (R27, R29). -/
def LevelRec.childDone (r : LevelRec) (failed absorbed excused : Bool) : LevelRec :=
  { r with counter := r.counter - 1, isFailed := r.isFailed || (failed && !excused),
           isAbsorbed := r.isAbsorbed || absorbed || (failed && excused) }

/-- Incomplete launches of an instance of a level. -/
def State.launchesOf (s : State) (v : Level) (id : Nat) (r : LevelRec) : List (Nat × Launch) :=
  (s.launches.filterMap fun e => e.2.map fun l => (e.1, l)).filter fun e =>
    r.first ≤ e.1 && (match v with
      | .graph => e.2.vec.graph == id
      | .phase => e.2.vec.phase == id
      | .job => e.2.vec.job == id
      | .unit | .launch => false)

def State.openLaunches (s : State) (v : Level) (id : Nat) (r : LevelRec) : List (Nat × Launch) :=
  (s.launchesOf v id r).filter fun e => e.2.state != .complete

/-- A level is over when its counter is 0 (R27).  A level that was cancelled waits for the vectors still to
come, each of which completes failed at once (R36). -/
def LevelRec.over (r : LevelRec) : Bool := !r.complete && r.counter == 0

/-- A job completes: its record, and the barrier handles it still holds (R27, R224). -/
def State.endJob (s : State) (id : Nat) : State :=
  match s.jobs.lookup id with
  | some (some r) =>
    if r.over then
      let s := (s.setLevel .job id { r with complete := true }).post (r.record .job id)
      { s with dies := s.dies.map fun e => (e.1, { e.2 with
          barriers := e.2.barriers.map fun b => (b.1, if b.2.job = some id then { b.2 with taken := false } else b.2) }) }
    else s
  | _ => s

/-- The job of a phase that is complete counts it (R27). -/
def State.countPhase (s : State) (id : Nat) : State :=
  match s.phases.lookup id with
  | some (some r) => (s.modLevel .job r.parent fun j => j.childDone r.isFailed r.isAbsorbed r.excused).endJob r.parent
  | _ => s

/-- A phase's record is posted, and its job counts it (R27, R264). -/
def State.postPhase (s : State) (id : Nat) : State :=
  match s.phases.lookup id with
  | some (some r) =>
    ((s.setLevel .phase id { r with complete := true, posting := false }).post (r.record .phase id)).countPhase id
  | _ => s

/-! ### Cancel and the walk (R36 to R40) -/

/-- Take out the failures that lie within a level, unless one is noted already (R29). -/
def noteFailure (f : Failure) (o : Option Failure) : Option Failure := match o with | some g => some g | none => some f

def State.parentOf (s : State) : Level → Nat → Option (Level × Nat)
  | .launch, id => (s.launch id).map fun l => (.graph, l.vec.graph)
  | .graph, id => (s.level .graph id).map fun r => (.phase, r.parent)
  | .phase, id => (s.level .phase id).map fun r => (.job, r.parent)
  | .job, _ | .unit, _ => none

/-- Note a failure at every level that holds a launch (R29); an attempt that is retried away leaves it there (log entry
122). -/
def State.noteAll (s : State) (id : Nat) (f : Failure) : State :=
  match s.launch id with
  | some l =>
    let s := s.setLaunch id { l with failure := noteFailure f l.failure }
    let n := fun (r : LevelRec) => { r with failure := noteFailure f r.failure }
    ((s.modLevel .graph l.vec.graph n).modLevel .phase l.vec.phase n).modLevel .job l.vec.job n
  | none => s

/-- Stop a launch that a restarted level holds (R39, R232): it goes back to its queue; one that stands on cores
does so once its units are done; a child goes, for its parent starts it again; a vector that was rejected stays
(log entry 94). -/
def State.restartOne (s : State) (id : Nat) (l : Launch) : State :=
  let child := l.parentSig.isSome
  match l.state with
  | .running =>
    (s.setLaunch id { l with onEmpty := if child then .discard else .requeueTail, ckpt := none, drain := none }).stopAll (s.activeUnits l)
  | .complete => if l.error ≠ .none then s else if child then s.emptyCircuits id l else s.requeue false id l
  | .queued | .saved | .restoring =>
    if child then (((s.freeCores id l).returnPool l).dequeue id l).setLaunch id { l with state := .complete, saved := [], enlarged := 0 }
    else s.requeue false id l

/-- The launches of a level whose vectors were rejected (R208). -/
def State.rejectsOf (s : State) (v : Level) (id : Nat) (r : LevelRec) : List Nat :=
  ((s.launchesOf v id r).filter fun e => e.2.error != .none && e.2.parentSig.isNone).map (·.1)

/-- Restart a graph, phase or job from its first launch (R39). -/
def State.restartLevel (s : State) (v : Level) (id : Nat) (r : LevelRec) : State :=
  let fresh := fun (x : LevelRec) => { x with
    counter := x.size, decs := [], broken := [], failure := none, isFailed := false, isAbsorbed := false,
    cancelled := false, excused := false, complete := false, posting := false }
  let s := s.setLevel v id { fresh r with retries := r.retries + 1 }
  let inner := fun (t : NMap (Option LevelRec)) (pid : Nat) => t.map fun e =>
    (e.1, e.2.map fun x => if x.parent = pid && r.first ≤ x.first then fresh x else x)
  let s : State := match v with
    | .phase => { s with graphs := inner s.graphs id }
    | .job =>
      let ps := (s.phases.filterMap fun e => e.2.map fun x => (e.1, x)).filter fun e => e.2.parent = id && r.first ≤ e.2.first
      let s := { s with phases := inner s.phases id }
      ps.foldl (fun (s : State) e => { s with graphs := inner s.graphs e.1 }) s
    | _ => s
  (s.launchesOf v id r).foldl (fun (s : State) e => s.restartOne e.1 e.2) s

/-- A launch completes: its record, its graph's counts, and what its successors learn (R28, R29, R253). -/
def State.closeLaunch (s : State) (id : Nat) (l : Launch) : State :=
  let s := (((s.freeCores id l).returnPool l).dequeue id l).setLaunch id { l with state := .complete, enlarged := 0 }
  let succ := l.vec.succ.filter (· != 0xFFFF)
  (s.post (l.record id)).modLevel .graph l.vec.graph fun r =>
    let r := r.childDone l.isFailed l.isAbsorbed l.excused
    if l.isFailed then { r with broken := succ.foldl (fun b n => mapInsert n true b) r.broken }
    else { r with decs := succ.foldl (fun d n => mapInsert n (mapGet 0 d n + 1) d) r.decs }

/-- A waiting launch of a graph one of whose predecessors has failed (R30). -/
def State.nextBroken (s : State) (g : Nat) : Option (Nat × Launch) :=
  match s.level .graph g with
  | some r => (s.launches.filterMap fun e => e.2.map fun l => (e.1, l)).find? fun e =>
      e.2.vec.graph == g && e.2.state == .queued && r.first ≤ e.1 && mapGet false r.broken e.2.vec.lnum
  | none => none

/-- Remove the waiting dependants of failed launches of a graph, one after another (R30).  Each round completes
a launch, so as many rounds as there are launches suffice. -/
def State.removeBroken : Nat → State → Nat → State
  | 0, s, _ => s
  | n + 1, s, g =>
    match s.nextBroken g with
    | some (id, l) => State.removeBroken n (s.closeLaunch id { l with isFailed := true }) g
    | none => s

mutual

/-- A launch completes, the dependants of a failed one are removed, and its graph may be over (R27 to R30,
R253). -/
def State.endLaunch : Nat → State → Nat → State
  | 0, s, _ => s
  | fuel + 1, s, id =>
    match s.launch id with
    | none => s
    | some l =>
      let s := s.closeLaunch id l
      let s := if l.isFailed then State.removeBroken s.launches.length s l.vec.graph else s
      State.endGraph fuel s l.vec.graph

/-- A graph completes when its counter reaches 0; its phase counts it, and a phase whose counter reaches
0 writes its checkpoint word (R27, R264). -/
def State.endGraph : Nat → State → Nat → State
  | 0, s, _ => s
  | fuel + 1, s, g =>
    match s.level .graph g with
    | none => s
    | some r =>
      if r.over then
        let s := (s.setLevel .graph g { r with complete := true }).post (r.record .graph g)
        let s := s.modLevel .phase r.parent fun p => p.childDone r.isFailed r.isAbsorbed r.excused
        State.endPhase fuel s r.parent
      else s

/-- The phase checkpoint: nothing to write, a release at system scope with an all-ones signature, or a
word that cannot be reached: the phase fails and the walk goes on at the job.  A phase that the walk
restarts with its job posts no record of the attempt (R29, R264). -/
def State.endPhase : Nat → State → Nat → State
  | 0, s, _ => s
  | fuel + 1, s, p =>
    match s.level .phase p with
    | none => s
    | some r =>
      if r.over && !r.posting then
        match r.vec with
        | none => s.postPhase p
        | some v =>
          if v.ckpt = 0 then s.postPhase p
          else
            match s.resolveIn r.asid .store v.ckpt with
            | .at (.mem pa) =>
              (s.setLevel .phase p { r with posting := true }).releaseWord pa (BitVec.ofNat 64 p) r.past
            | w =>
              let cause := match w with | .trap c => c | _ => .translation
              let f : Failure := { cause := cause, core := 0, q := 0 }
              let r' := { r with isFailed := true, failure := noteFailure f r.failure }
              let s := (s.setLevel .phase p r').modLevel .job r.parent fun j => { j with failure := noteFailure f j.failure }
              let walked := State.walkAbove fuel s .phase p f
              if (walked.level .phase p).any (·.isFailed) then
                let s := (s.setLevel .phase p { r' with complete := true }).post (r'.record .phase p)
                (State.walkAbove fuel s .phase p f).countPhase p
              else walked
      else s

/-- Cancel a level other than unit (R36). -/
def State.cancelLevel : Nat → State → Level → Nat → State
  | 0, s, _, _ => s
  | fuel + 1, s, .launch, id =>
    match s.launch id with
    | none => s
    | some l =>
      match l.state with
      | .complete => s
      | .queued | .saved => State.endLaunch fuel (s.setLaunch id { l with isFailed := true, cancelled := true }) id
      | .running | .restoring =>
        let s := s.setLaunch id { l with isFailed := true, cancelled := true, onEmpty := .complete, ckpt := none, drain := none }
        (s.activeUnits l).foldl (fun s u => s.deliver .cancel u) s
  | fuel + 1, s, v, id =>
    match s.level v id with
    | none => s
    | some r =>
      if r.complete then s
      else
        let s := s.setLevel v id { r with isFailed := true, cancelled := true }
        let s := State.cancelAll fuel s ((s.openLaunches v id r).map (·.1))
        match v with
        | .graph => State.endGraph fuel s id
        | .phase => State.endPhase fuel s id
        | .job => s.endJob id
        | .unit | .launch => s

def State.cancelAll : Nat → State → List Nat → State
  | 0, s, _ => s
  | _, s, [] => s
  | fuel + 1, s, id :: ids => State.cancelAll fuel (State.cancelLevel fuel s .launch id) ids

/-- Launches whose vectors were rejected complete failed again in a restarted level (R39, R208). -/
def State.endAll : Nat → State → List Nat → State
  | 0, s, _ => s
  | _, s, [] => s
  | fuel + 1, s, id :: ids => State.endAll fuel (State.endLaunch fuel s id) ids

/-- The walk has cancelled a level under kill parent, and goes on at its parent (R38, R40). -/
def State.walkAbove : Nat → State → Level → Nat → Failure → State
  | 0, s, _, _, _ => s
  | fuel + 1, s, v, id, f =>
    match s.parentOf v id with
    | none => s
    | some (pv, pid) =>
      match s.level pv pid with
      | none => s
      | some r =>
        let excuse := match v with
          | .launch => s.modLaunch id fun l => { l with excused := true }
          | _ => s.modLevel v id fun x => { x with excused := true }
        match r.policy with
        | 0 => excuse.modLevel pv pid fun x => { x with isAbsorbed := true }
        | 1 =>
          if (s.launchesOf pv pid r).all (fun e => e.2.hdr.idempotent) && r.retries < 3 then
            State.endAll fuel (s.restartLevel pv pid r) (s.rejectsOf pv pid r)
          else State.cancelLevel fuel s pv pid
        | 2 => State.cancelLevel fuel s pv pid
        | _ => State.walkAbove fuel (State.cancelLevel fuel s pv pid) pv pid f

end

/-- The fuel of a cascade: every launch and level at most once on each of the few paths. -/
def State.fuel (s : State) : Nat := 8 * (s.launches.length + s.graphs.length + s.phases.length + s.jobs.length + 4)

/-- The walk reaches the launch (R38 to R40). -/
def State.walkLaunch (s : State) (id : Nat) (f : Failure) (c q : Nat) : State :=
  match s.launch id with
  | none => s
  | some l =>
    match l.hdr.launchPolicy with
    | 0 => (s.setLaunch id { l with isAbsorbed := true }).modSeq c q fun x => { x with unitFailed := false }
    | 1 =>
      if l.hdr.idempotent && l.retries < 3 then
        let s := s.setLaunch id { l with retries := l.retries + 1, onEmpty := .restart, ckpt := none, drain := none }
        s.stopAll (s.activeUnits l)
      else State.cancelLevel s.fuel s .launch id
    | 2 => State.cancelLevel s.fuel s .launch id
    | _ =>
      let s := State.cancelLevel s.fuel s .launch id
      State.walkAbove s.fuel s .launch id f

/-- A unit fails (R37): its own policy, then the walk (R38 to R40, R278). -/
def State.failUnit (s : State) (c q : Nat) (cause : Cause) : State :=
  match (s.core c).launch with
  | none => s.stopUnit c q
  | some id =>
    match s.launch id with
    | none => s.stopUnit c q
    | some l =>
      let f : Failure := { cause := cause, core := c, q := q }
      let s := (s.noteAll id f).stopUnit c q
      let up := fun (s : State) => (s.modSeq c q fun x => { x with unitFailed := true }).walkLaunch id f c q
      match l.hdr.unitPolicy with
      | 0 => s.modSeq c q fun x => { x with unitAbsorbed := true }
      | 1 =>
        if l.usedCircuits then up s
        else if l.hdr.idempotent && (s.seq c q).unitRetries < 3 then
          s.modSeq c q fun x => { x with restart := true, unitRetries := x.unitRetries + 1 }
        else s.modSeq c q fun x => { x with unitFailed := true }
      | 2 => s.modSeq c q fun x => { x with unitFailed := true }
      | _ => up s

/-! ### The end of a unit (R28) -/

/-- Everything a halted or stopped unit left behind is done (R28). -/
def State.unitDone (s : State) (c q : Nat) : Bool :=
  let k := s.core c
  let x := k.seq q
  x.run == .ending && x.stores.isEmpty && x.loads.isEmpty && k.mxOps.all (·.q != q) && k.tfOps.all (·.q != q) &&
    (match k.stopk with | some t => t.q != q | none => true) && x.kvOver

/-- A launch whose last unit completed: completion, a restart, or its queue again (R27, R39, R259).  A restart keeps the
children of the attempt that goes (log entry 123), and it empties the queues and returns the pool's share now (141). -/
def State.launchEmpty (s : State) (id : Nat) (l : Launch) : State :=
  match l.onEmpty with
  | .complete => State.endLaunch s.fuel s id
  | .restart => ((s.returnPool l).setLaunch id { l with enlarged := 0 }).startLaunch id { l with enlarged := 0 }
  | .requeueHead => s.requeue true id { l with kills := l.kills + 1 }
  | .requeueTail => s.requeue false id l
  | .discard => ((((s.emptyCircuits id l).freeCores id l).returnPool l).dequeue id l).setLaunch id { l with state := .complete, enlarged := 0 }

/-- A fence of the unit has everything ahead of it performed, so the records go (R123). -/
def Core.endFences (k : Core) (q : Nat) : Core :=
  if k.rfences.any fun f => f.1 == q then { k with records := [], refills := [], rfences := k.rfences.filter fun f => f.1 != q } else k

/-- A unit completes: a retried one starts again in the state of R32, q1 with no merge lost, else its launch counts it
(R22, R28, R32, R39).  What it has done precedes the checkpoint word of its phase (R264). -/
def State.endUnit (s : State) (c q : Nat) : State :=
  let x := s.seq c q
  match (s.core c).launch with
  | none => s.setSeq c q { x with run := .idle }
  | some id =>
    match s.launch id with
    | none => s.setSeq c q { x with run := .idle }
    | some l =>
      if x.restart && l.onEmpty = .complete && !l.cancelled then
        (s.setSeq c q { startSeq l (s.core c).position x.entry x with unitRetries := x.unitRetries }).modCore c fun k =>
          { k.endFences q with lost := if q = 1 then 0 else k.lost }
      else
        let s := (s.setSeq c q { x with run := .idle, restart := false, unitFailed := false, unitAbsorbed := false }).modCore c fun k => k.endFences q
        let l := { l with counter := l.counter - 1, isFailed := l.isFailed || x.unitFailed,
                          isAbsorbed := l.isAbsorbed || x.unitAbsorbed }
        let s := (s.setLaunch id l).modLevel .phase l.vec.phase fun r => { r with past := r.past.join (s.past c q x.chain) }
        if l.counter = 0 then s.launchEmpty id l else s

end Sys2Proof.Machine
end

