-- ==== Sys2Proof/Machine/Ops.lean ====
section
/-! DEFINITION. The operations every family shares: address checks (R103), queue entries and markers
(R96 to R102), results (R68), taking a trap and returning from one (R66, R269, R272), and the step of
one slot (R65). -/
namespace Sys2Proof.Machine

/-! ### Taking a trap and returning (R269, R272, R273) -/

/-- A port as the handler reads it: its current result in the cycle of the trap (R271). -/
def Port.forHandler (p : Port) (k : Nat) : Port := p.discard k

def ResPorts.map (f : Port → Port) (r : ResPorts) : ResPorts :=
  { ia0r := f r.ia0r, ia1r := f r.ia1r, imr := f r.imr, imh := f r.imh, plr := f r.plr, crr := f r.crr }

/-- The sequencer as its handler starts: the shadow bank filled, XPC, CAUSE, RSLOT, FPAGE and DEFER
written, the handler's own queue and loop stack empty, the next bundle at TRAPVEC.ENTRY (R269). -/
def Seq.enterHandler (x : Seq) (cause : Cause) (slot : Nat) (fault : Word) (head : Option HeadRecord)
    (deferred : Bool) (xpc : Word) (clock : Nat) : Seq :=
  { x with
    shadow := some (x.ports, x.results), shadowLate := x.late, shadowFlags := x.lateFlags, late := [], lateFlags := 0,
    results := x.results.map (·.forHandler x.cycle),
    xpc := xpc &&& maskBits 55 4, cause := cause, rslot := BitVec.ofNat 2 slot,
    fpage := if cause.hasPage then BitVec.ofNat 40 (bits fault.toNat 55 16) else 0,
    defer := deferred, headRecord := head, handler := true, handlerCycle := 1, handlerLoops := [], handlerLoads := [],
    pc := x.trapvec, slot := 0, hold := none, recordBuf := none, walks := [], kvRead := [], kvLeft := none, kvPlaces := [], done := false, start := none, stepping := false,
    pending := if deferred then x.pending.erase cause else x.pending,
    budget := if cause = .cancel || cause = .preempt then some (0, clock) else none }

/-- A trap is taken (R37, R269): the handler is entered; with no handler, or within one, the unit fails;
in the handler of a CANCEL or PREEMPT the unit is stopped (R36). -/
def State.takeTrap (s : State) (c q : Nat) (cause : Cause) (slot : Nat) (fault : Word) (head : Option HeadRecord)
    (deferred : Bool) (xpc : Word) : State :=
  let x := s.seq c q
  if x.budget.isSome then s.stopUnit c q
  else if x.handler then s.failUnit c q cause
  else if x.trapvec = 0 then
    if cause = .cancel || cause = .preempt then s.stopUnit c q else s.failUnit c q cause
  else
    let s := (s.traceStallEnd c q).traceTrap c q cause.code.toNat slot deferred
    s.modSeq c q fun x => x.enterHandler cause slot fault head deferred xpc s.clock

/-- The head of the program's load queue loses its mark and becomes zero (R273). -/
def clearHead : List LoadEntry → List LoadEntry
  | [] => []
  | e :: es => if e.silent then e :: clearHead es else { e with mark := none, value := Value.fill false e.cls } :: es

def clearVec : List CircuitVec → List CircuitVec
  | [] => []
  | e :: es => { e with poisoned := false, val := zeroVec } :: es

/-- CLRHEAD: only a trap that a pop of a marked head raised is answered (R273). -/
def Core.clearHeads (k : Core) (q : Nat) : Core :=
  let x := k.seq q
  match x.clrHead, x.headRecord with
  | true, some .load => k.setSeq q { x with loads := clearHead x.loads }
  | true, some .circuit => { k with circuit := clearVec k.circuit }
  | _, _ => k

/-- The sequencer as its program goes on (R272). -/
def Seq.leaveHandler (x : Seq) : Seq :=
  { x with
    ports := (x.shadow.map (·.1)).getD x.ports, results := (x.shadow.map (·.2)).getD x.results, shadow := none,
    late := x.shadowLate, lateFlags := x.shadowFlags, shadowLate := [], shadowFlags := 0,
    handler := false, handlerLoads := [], handlerLoops := [], clrHead := false, headRecord := none,
    pc := x.xpc, slot := x.rslot.toNat, stepping := x.step }

/-- `rft` leaves handler mode (R272, R273, R274). -/
def State.returnFromTrap (s : State) (c q : Nat) : State :=
  let s := s.traceRft c q
  s.modCore c fun k =>
    let k := k.clearHeads q
    k.setSeq q (k.seq q).leaveHandler

/-! ### The end of a bundle's cycle (R65, R67, R80, R131) -/

/-- The result ports present what has become visible (R70). -/
def Seq.presentAll (x : Seq) : Seq := { x with results := x.results.map (·.present x.now) }

def Seq.nextCycle (x : Seq) (next : Word) : Seq :=
  let x := if x.handler then
      { x with handlerCycle := x.handlerCycle + 1, budget := x.budget.map fun b => (b.1 + 1, b.2) }
    else { x with cycle := x.cycle + 1 }
  { x with pc := next, slot := 0, recordBuf := none, walks := [], done := false, start := none }

/-- The cycle ends: late writes and flags, the next cycle number, and a single step's trap (R67, R80,
R131, R274). -/
def State.finishCycle (s : State) (c q : Nat) (next : Word) : State :=
  let s := s.applyLate c q
  s.modSeq c q fun x =>
    let x := (x.nextCycle next).presentAll
    if x.stepping && !x.handler then { x with stepping := false, pending := x.pending ++ [.singleStep] } else x

/-! ### Deferred traps (R268) -/

/-- The order in which deferred causes are taken (R268). -/
def deferredOrder : List Cause := [.cancel, .preempt, .eccUncorrectable, .barrierGeneration, .link, .singleStep]

def Seq.nextDeferred (x : Seq) : Option Cause := deferredOrder.find? fun c => x.pending.contains c

/-- A deferred cause becomes pending, once (R268). -/
def Seq.addPending (x : Seq) (c : Cause) : Seq :=
  { x with pending := if x.pending.contains c || !x.active then x.pending else x.pending ++ [c] }

/-- The load-class entries in the order in which they are performed: the program's, then the handler's. -/
def Seq.allLoads (x : Seq) : List LoadEntry := x.loads ++ x.handlerLoads

/-- Everything that the sequencer has triggered is performed (R82, R283). -/
def Seq.allPerformed (x : Seq) : Bool := x.stores.isEmpty && x.allLoads.all (·.performed)

/-- A hold that is not abandoned while its operation is under way (R268). -/
def Hold.started : Hold → Bool
  | .record | .kv _ | .region | .kick | .invalidate .. => true
  | _ => false

/-- A deferred cause can be taken now: the sequencer is at a boundary, or held before its operation has
started (R268). -/
def Seq.deferredReady (x : Seq) : Bool :=
  x.run == .running && x.nextDeferred.isSome && !x.handler &&
    (match x.hold with | some h => !h.started && !x.done | none => x.recordBuf.isNone && !x.done)

/-- Take the first deferred cause, at the first uncommitted slot (R268). -/
def State.takeDeferred (s : State) (c q : Nat) : State :=
  let x := s.seq c q
  match x.nextDeferred with
  | some cause => s.takeTrap c q cause x.slot 0 none true x.pc
  | none => s

/-! ### One slot (R65, R66) -/

/-- The issue is over. -/
def State.endIssue (s : State) : State := { s with cur := { s.cur with live := false } }

/-- The sequencer holds at the current slot.  A slot that waits keeps the start of its cycle (R65). -/
def State.holdAt (s : State) (h : Hold) (flagWait : Bool) : State :=
  let s := s.traceStallStart s.cur.core s.cur.q (if flagWait then 1 else 0)
  (s.modMe fun x => { x with
    hold := some h, slot := s.cur.slot, start := if flagWait then some (s.cur.preds, s.cur.order) else x.start }).endIssue

/-- No pop is noted. -/
def State.unnoted (t : State) : State := { t with cur := { t.cur with popped := none, taken := {}, takenAt := 0 } }

/-- A slot that read a pop source in `s` and has come to `t` does not commit: the queue has its head again,
and the predicate of a stamp its value (R57, R65, R66). -/
def State.unread (s t : State) : State :=
  match t.cur.popped with
  | none => t
  | some (src, _) =>
    let u := t.unnoted
    if src = 0xA9 then
      u.modMe fun x =>
        { x.setLoadQueue (s.me.loadQueue ++ x.loadQueue.drop (s.me.loadQueue.length - 1)) with pregs := s.me.pregs }
    else if src = 0xAA then u.modMyCore fun k => { k with circuit := s.myCore.circuit }
    else u.modMe fun x => { x with countQueue := s.me.countQueue }

/-- The pop of a committed slot stands: its value is recorded, and what precedes the send of a vector from a circuit is
ordered before what the slot triggers and what comes next (R212, R275). -/
def State.popStands (s : State) : State :=
  match s.cur.popped with
  | some (src, v) =>
    let u := s.unnoted
    if src = 0xAC then u
    else
      let u := u.traceValue s.cur.core s.cur.q v
      if src = 0xAA then u.modMyCore fun k => k.join s.cur.q s.cur.takenAt s.cur.taken else u
  | none => s

/-- A slot has committed.  After a slot that resumed a started operation, a pending deferred cause is
taken at the next slot (R268). -/
def State.slotDone (s : State) : State :=
  let s := s.popStands
  let n := s.cur.slot + 1
  let s := { s with cur := { s.cur with slot := n } }
  let was := s.me
  let s := s.modMe fun x => { x with recordBuf := none, walks := [], done := false, slot := n % 4 }
  if (was.done || was.recordBuf.isSome) && n < 4 && was.nextDeferred.isSome && !was.handler then
    (s.takeDeferred s.cur.core s.cur.q).endIssue
  else s

/-- What a slot's outcome makes of the state (R65, R66, R91).  A slot that traps or waits has not committed, and
the pop of its source does not stand. -/
def slotStep (m : Sem) (s : State) : State :=
  if s.cur.live then
    match m s with
    | .ok s' => if s'.cur.live then s'.slotDone else s'
    | .trap c a h t => let s' := s.unread t; (s'.takeTrap s'.cur.core s'.cur.q c s'.cur.slot a h false s'.cur.addr).endIssue
    | .after c s' =>
      let s' := (s'.modMe fun x => { x with stepping := false }).finishCycle s'.cur.core s'.cur.q (s'.cur.addr + 16)
      (s'.takeTrap s'.cur.core s'.cur.q c 0 0 none false (s'.cur.addr + 16)).endIssue
    | .freeze h => s.holdAt h false
    | .wait h t => (s.unread t).holdAt h true
  else s

/-- What executing one instruction answers. -/
abbrev Out := Host.Outcome State Fault Refusal

/-- A slot instruction runs as the current slot of the bundle being issued. -/
def runSlot (m : Sem) (s : State) : Out := .next (slotStep m s)

/-! ### Results (R68) -/

/-- Push a result of latency `l` onto a port of the sequencer's own units. -/
def State.pushRes (s : State) (f : (Port → Port) → ResPorts → ResPorts) (l : Nat) (v : Value) : State :=
  s.modMe fun x => { x with results := f (fun p => if x.handler then p.pushLast x.now l v else p.push x.now l v) x.results }

def ResPorts.onIa (u : BitVec 1) (f : Port → Port) (r : ResPorts) : ResPorts :=
  if u = 0 then { r with ia0r := f r.ia0r } else { r with ia1r := f r.ia1r }
def ResPorts.onImr (f : Port → Port) (r : ResPorts) : ResPorts := { r with imr := f r.imr }
def ResPorts.onImh (f : Port → Port) (r : ResPorts) : ResPorts := { r with imh := f r.imh }
def ResPorts.onPlr (f : Port → Port) (r : ResPorts) : ResPorts := { r with plr := f r.plr }
def ResPorts.onCrr (f : Port → Port) (r : ResPorts) : ResPorts := { r with crr := f r.crr }

/-- Push results onto the ports of vx. -/
def State.pushVxr (s : State) (l : Nat) (v : Vec) : State :=
  s.modMyCore fun k => { k with vxr := k.vxr.push s.me.now l (.v v) }
def State.pushVxm (s : State) (l : Nat) (w : Word) : State :=
  s.modMyCore fun k => { k with vxm := k.vxm.push s.me.now l (.p w) }
def State.pushVxs (s : State) (l : Nat) (w : Word) : State :=
  s.modMyCore fun k => { k with vxs := k.vxs.push s.me.now l (.s w) }

/-! ### Queues (R96, R97, R99, R100, R102) -/

/-- The arrival offset: `lq.a`[11:0], 0 taken as 1 (R97). -/
def arrival (lqa : Word) : Nat := if bits lqa.toNat 11 0 = 0 then 1 else bits lqa.toNat 11 0

/-- A marker in both queues (R102). -/
def State.marker (s : State) : State := s.modMe fun x => { x with epoch := x.epoch + 1 }

/-- The load queue has room, or the trigger traps (R99, R100). -/
def withLoadRoom (s : State) (f : SlotRes) : SlotRes :=
  let x := s.me
  if x.handler then
    if x.handlerLoads.length < Config.handlerEntries then f else .plain .loopOverflow s
  else if x.loads.length < Config.queueEntries then f else .plain .loopOverflow s

/-- The store queue has room, or the bundle freezes (R99). -/
def withStoreRoom (s : State) (f : SlotRes) : SlotRes :=
  if s.me.stores.length < Config.queueEntries then f else .freeze .storeRoom

/-- The stamp check asked for in `lq.b` (R110). -/
def stampCheckOf (lqb : Word) : Option StampCheck :=
  if lqb.getLsbD 16 then some { stamp := lqb.truncate 16, pred := (lqb >>> 17).truncate 6 } else none

/-- An entry as its trigger makes it (R97). -/
def newLoad (x : Seq) (kind : LoadKind) (cls : Cls) (parts : List Part) (check : Option StampCheck) (fence : Nat) : LoadEntry :=
  { order := x.order, epoch := x.epoch, landing := x.cycle + arrival x.ports.lqa, cls := cls, kind := kind,
    check := check, fence := fence, parts := parts, got := [], poisoned := false, performed := false, chain := x.chain,
    arrived := false, value := Value.fill false cls, mark := none, markAddr := 0, stampOk := false, silent := false }

/-- Enter the load queue in force (R96, R100). -/
def State.enterLoad (s : State) (e : LoadEntry) : State :=
  s.modMe fun x => { x.setLoadQueue (x.loadQueue ++ [{ e with since := s.clock }]) with order := x.order + 1 }

/-- A load-class operation; one with a stamp check waits for the stores before the last `dg.dfence` (R247). -/
def State.addLoad (s : State) (kind : LoadKind) (cls : Cls) (parts : List Part) (check : Option StampCheck) : State :=
  let x := s.me
  s.enterLoad (newLoad x kind cls parts check (if check.isSome then x.dfence else 0))

/-- A store-class operation enters the store queue (R96). -/
def State.addStore (s : State) (kind : StoreKind) (parts : List StorePart) : State :=
  s.modMe fun x => { x with
    stores := x.stores ++ [{ order := x.order, epoch := x.epoch, kind := kind, parts := parts, since := s.clock, chain := x.chain }], order := x.order + 1 }

/-- RSIG bits of the lines of memory that an operation may write (R215). -/
def State.signLocs (s : State) (ls : List Loc) : State :=
  s.modMe fun x => x.sign (ls.foldl (fun g l => match l with | .mem pa => g ||| lineBit pa | .spad _ _ => g) 0)

/-! ### Address checks (R103) -/

/-- Resolve several addresses: a miss freezes the bundle first; then the checks in the order of R103. -/
def checkAll (s : State) (r : Right) (vas : List Nat) (f : List Loc → SlotRes) : SlotRes :=
  let ws := vas.map fun v => (v, s.resolve s.cur.core s.cur.q r v)
  let failing := fun (c : Cause) => ws.find? fun w => w.2 == .trap c
  match ws.find? fun w => w.2 == .miss with
  | some w => .freeze (.walk s.me.asid (w.1 / 65536 * 65536))
  | none =>
    match failing .translation, failing .protection, failing .scratchBounds with
    | some w, _, _ => .trap .translation (BitVec.ofNat 64 w.1) none s
    | _, some w, _ => .trap .protection (BitVec.ofNat 64 w.1) none s
    | _, _, some w => .trap .scratchBounds (BitVec.ofNat 64 w.1) none s
    | _, _, _ => f (ws.filterMap fun w => match w.2 with | .at l => some l | _ => none)

/-- Check one aligned access (R103 steps 2 to 5). -/
def checkOne (s : State) (r : Right) (va align : Nat) (f : Loc → SlotRes) : SlotRes :=
  if va % align != 0 then .trap .misaligned (BitVec.ofNat 64 va) none s
  else checkAll s r [va] fun ls => match ls with | l :: _ => f l | [] => .plain .translation s

/-- The line lies in a digest region while digests are enabled (R103 step 6, R233). -/
def State.inRegion (s : State) : Loc → Bool
  | .mem pa => s.digbase.getLsbD 0 && (s.recordOf pa).isSome
  | .spad _ _ => false

/-- Loc a number of bytes on. -/
def Loc.plus : Loc → Nat → Loc
  | .mem pa, n => .mem (pa + n)
  | .spad c o, n => .spad c (o + n)

/-- Two places lie in one line. -/
def Loc.sameLine (a b : Loc) : Bool :=
  match a, b with
  | .mem x, .mem y => lineIndex x == lineIndex y
  | .spad c x, .spad d y => c == d && x / 256 == y / 256
  | _, _ => false

/-- Two places lie in one line, the second `n` bytes after the first. -/
def Loc.joins (a : Loc) (n : Nat) (b : Loc) : Bool :=
  a.plus n == b && a.sameLine b

/-- Join pieces that follow one another in a line, so that each line is read in one step (R210). -/
def joinPieces : List (Loc × Nat) → List (Loc × Nat)
  | [] => []
  | (l, n) :: rest =>
    match joinPieces rest with
    | [] => [(l, n)]
    | (m, k) :: more => if l.joins n m then (l, n + k) :: more else (l, n) :: (m, k) :: more

def partsOf (ps : List (Loc × Nat)) : List Part := (joinPieces ps).map fun p => .bytes p.1 p.2

end Sys2Proof.Machine
end

