-- ==== Sys2Proof/Machine/Control.lean ====
section
/-! DEFINITION. The operations of the control slot (R18 to R20, R33, R84 to R94). -/
namespace Sys2Proof.Machine

/-- The condition of a control operation (R85): taken, not taken, or a mixed predicate. -/
def condition (cond : BitVec 6) (inv : BitVec 1) (st : State) (f : Sem) : SlotRes :=
  let p := st.pred cond.toNat
  let g := if inv = 1 then ~~~p else p
  let tr := fun (b : Bool) => if cond = 0 && inv = 0 then st else st.traceDecision st.cur.core st.cur.q b
  if g = Word.ones then f (tr true)
  else if g = 0 then .ok (tr false)
  else .plain .nonuniformBranch st

/-- Slot 3 sets the next bundle (R88). -/
def State.goTo (st : State) (a : Word) : State := { st with cur := { st.cur with next := some a } }

/-- a + 16 × offset (R84). -/
def relative {n : Nat} (st : State) (off : BitVec n) : Word := st.cur.addr + (off.signExtend 64 <<< 4)

/-- `br.pop` and `brx.pop` pop the innermost loop-stack entry (R86). -/
def popLoop (pop : BitVec 1) (st : State) : State :=
  if pop = 1 then st.modMe fun x => x.setLoopStack x.loopStack.tail else st

/-- NOP (R45). -/
def semNop (_cond : BitVec 6) (_inv : BitVec 1) (_rest : BitVec 18) : Sem := fun st => .ok st
def execNop (cond : BitVec 6) (inv : BitVec 1) (rest : BitVec 18) (st : State) : Out := runSlot (semNop cond inv rest) st

/-- BR (R86). -/
def semBr (cond : BitVec 6) (inv : BitVec 1) (pop : BitVec 1) (off : BitVec 17) : Sem := fun st =>
  condition cond inv st fun st => .ok ((popLoop pop st).goTo (relative st off))
def execBr (cond : BitVec 6) (inv : BitVec 1) (pop : BitVec 1) (off : BitVec 17) (st : State) : Out :=
  runSlot (semBr cond inv pop off) st

/-- A target with bits [3:0] nonzero traps (R86), from the state before the operation. -/
def alignedTarget (a : Word) (st : State) (f : SlotRes) : SlotRes :=
  if a &&& 15 = 0 then f else .trap .misaligned a none st

/-- BRX (R86). -/
def semBrx (cond : BitVec 6) (inv : BitVec 1) (pop : BitVec 1) (reg : BitVec 6) : Sem := fun st =>
  condition cond inv st fun t =>
    let a := t.me.sreg reg.toNat
    alignedTarget a st (.ok (((popLoop pop t).goTo a).traceTarget t.cur.core t.cur.q a))
def execBrx (cond : BitVec 6) (inv : BitVec 1) (pop : BitVec 1) (reg : BitVec 6) (st : State) : Out :=
  runSlot (semBrx cond inv pop reg) st

/-- CALL (R86): the return address goes to s63. -/
def semCall (cond : BitVec 6) (inv : BitVec 1) (off : BitVec 18) : Sem := fun st =>
  condition cond inv st fun st => .ok ((st.modMe fun x => x.setSreg 63 (st.cur.addr + 16)).goTo (relative st off))
def execCall (cond : BitVec 6) (inv : BitVec 1) (off : BitVec 18) (st : State) : Out := runSlot (semCall cond inv off) st

/-- RET (R86). -/
def semRet (cond : BitVec 6) (inv : BitVec 1) : Sem := fun st =>
  condition cond inv st fun t =>
    let a := t.me.sreg 63
    alignedTarget a st (.ok ((t.goTo a).traceTarget t.cur.core t.cur.q a))
def execRet (cond : BitVec 6) (inv : BitVec 1) (st : State) : Out := runSlot (semRet cond inv) st

/-- What `loop` and `loopq` do with their count, the depth checked before (R87). -/
def startLoop (n : Word) (fin : BitVec 12) (st : State) : State :=
  let last := st.cur.addr + (fin.zeroExtend 64 + 1) * 16
  if n = 0 then st.goTo (last + 16)
  else
    ((st.modMe fun x => x.setLoopStack
      ({ start := st.cur.addr + 16, stop := last, remaining := n, passes := 0 } :: x.loopStack)).goTo
        (st.cur.addr + 16)).traceCount st.cur.core st.cur.q n

def loopFull (st : State) : Bool := Config.loopEntries ≤ st.me.loopStack.length

/-- LOOP (R87). -/
def semLoop (reg : BitVec 6) (fin : BitVec 12) : Sem := fun st =>
  if loopFull st then .plain .loopOverflow st else .ok (startLoop (st.me.sreg reg.toNat) fin st)
def execLoop (reg : BitVec 6) (fin : BitVec 12) (st : State) : Out := runSlot (semLoop reg fin) st

/-- LOOPQ (R87): the empty-queue check comes before the depth check (R78). -/
def semLoopq (fin : BitVec 12) : Sem := fun st =>
  match st.me.countQueue with
  | [] => .plain .queueEmpty st
  | n :: rest =>
    if loopFull st then .plain .loopOverflow st
    else .ok (startLoop n fin (st.modMe fun x => { x with countQueue := rest }))
def execLoopq (fin : BitVec 12) (st : State) : Out := runSlot (semLoopq fin) st

/-- HALT (R90). -/
def haltUnit (st : State) : State :=
  let c := st.cur.core
  let q := st.cur.q
  (((st.applyLate c q).traceEnd c q).modCore c fun k =>
    let k := k.passLeases q true
    k.setSeq q (k.seq q).ended).endIssue
def semHalt (cond : BitVec 6) (inv : BitVec 1) : Sem := fun st => condition cond inv st fun st => .ok (haltUnit st)
def execHalt (cond : BitVec 6) (inv : BitVec 1) (st : State) : Out := runSlot (semHalt cond inv) st

/-- TRAP (R91): the code stays in the control word. -/
def semTrap (cond : BitVec 6) (inv : BitVec 1) (_code : BitVec 16) : Sem := fun st =>
  condition cond inv st fun st => .after .trapInstr st
def execTrap (cond : BitVec 6) (inv : BitVec 1) (code : BitVec 16) (st : State) : Out := runSlot (semTrap cond inv code) st

/-- RFT (R92, R272): a privilege trap outside handler mode; in the handler of a CANCEL or PREEMPT it ends
the unit (R36).  A `cr.wr` of XPC or SQS in the same bundle takes effect before the return (log entry 95). -/
def semRft : Sem := fun st =>
  let x := st.me
  if !x.handler then .plain .privilege st
  else if x.budget.isSome then .ok (st.stopUnit st.cur.core st.cur.q).endIssue
  else if x.handlerLoads.any (fun e => !e.performed) then .wait .rftDrain st
  else .ok ((st.applyLate st.cur.core st.cur.q).returnFromTrap st.cur.core st.cur.q).endIssue
def execRft (st : State) : Out := runSlot semRft st

/-- Start the other sequencer as a new unit of the launch (R32, R33). -/
def wakeUnit (entry : Word) (st : State) : State :=
  let c := st.cur.core
  let o := 1 - st.cur.q
  match st.myCore.launch with
  | none => st
  | some id =>
    match st.launch id with
    | none => st
    | some l =>
      let st := st.modCore c fun k =>
        let k := k.setSeq o { startSeq l k.position entry (k.seq o) with stepJoin := l.stepping.isSome }
        if o = 1 then { k with lost := 0 } else k
      st.setLaunch id { l with counter := l.counter + 1 }

/-- WAKE (R33, R93).  A wake that waits has not committed, so its decision is not recorded yet (R276). -/
def semWake (cond : BitVec 6) (inv : BitVec 1) (off : BitVec 18) : Sem := fun st =>
  condition cond inv st fun t =>
    match (t.myCore.seq (1 - t.cur.q)).run with
    | .running | .parked => .ok t
    | .ending => .wait .wake st
    | .idle => .ok (wakeUnit (relative t off) t)
def execWake (cond : BitVec 6) (inv : BitVec 1) (off : BitVec 18) (st : State) : Out := runSlot (semWake cond inv off) st

/-- A unit of a mask has a result still in flight (R19). -/
def Core.inFlight (k : Core) (mask : BitVec 7) : Bool :=
  mask.getLsbD 0 && !(k.vxr.queue.isEmpty && k.vxm.queue.isEmpty && k.vxs.queue.isEmpty)

/-- CEDE (R18, R19, R270). -/
def semCede (mask : BitVec 7) : Sem := fun st =>
  let k := st.myCore
  if mask = 0 then .ok st
  else if st.me.handler || (List.range 7).any (fun b => mask.getLsbD b && !k.holds st.cur.q b) then .plain .unitNotOwned st
  else if k.inFlight mask && !st.me.done then .wait (.cede mask) st
  else .ok (st.modMyCore fun k => k.handOver st.cur.q mask.toNat)
def execCede (mask : BitVec 7) (st : State) : Out := runSlot (semCede mask) st

/-- Every condition of a `wait` mask holds (R94). -/
def waitOver (k : Core) (q : Nat) (mask : BitVec 18) : Bool :=
  let x := k.seq q
  (List.range 16).all (fun t => !mask.getLsbD t || !mapGet false k.notReady t) &&
    (!mask.getLsbD 16 || x.stores.isEmpty) && (!mask.getLsbD 17 || x.loadQueue.all (·.arrived))

/-- WAIT (R94). -/
def semWait (ld st_ : BitVec 1) (tiles : BitVec 16) : Sem := fun st =>
  let mask : BitVec 18 := ld ++ (st_ ++ tiles : BitVec 17)
  if waitOver st.myCore st.cur.q mask then .ok st else .wait (.wait mask) st
def execWait (ld st_ : BitVec 1) (tiles : BitVec 16) (st : State) : Out := runSlot (semWait ld st_ tiles) st

/-- BRK (R91). -/
def semBrk (cond : BitVec 6) (inv : BitVec 1) (_code : BitVec 16) : Sem := fun st =>
  condition cond inv st fun st => .after .breakpoint st
def execBrk (cond : BitVec 6) (inv : BitVec 1) (code : BitVec 16) (st : State) : Out := runSlot (semBrk cond inv code) st

end Sys2Proof.Machine
end

