-- ==== Sys2Proof/Machine/ControlRegs.lean ====
section
/-! DEFINITION. The cr unit: control registers, invalidation and the trace (R79 to R83, R199, R204, R233). -/
namespace Sys2Proof.Machine

/-- The address checks of `cr.rd` and `cr.wr` (R80). -/
def cregCheck (t : Word) (st : State) (f : Nat → SlotRes) : SlotRes :=
  if 0x1000 ≤ t.toNat || !cregListed t.toNat then .plain .reservedPort st
  else if (t.toNat = 0x100 || t.toNat = 0x101) && st.me.asid != 0 then .plain .privilege st
  else f t.toNat

def State.pushCr (st : State) (w : Word) : State := st.pushRes ResPorts.onCrr 2 (.s w)

/-- CR_RD (R80). -/
def semCrRd (g : BitVec 7) (s : BitVec 12) : Sem :=
  trigS g s fun t st => cregCheck t st fun a => .ok (st.pushCr (st.creg st.cur.core st.cur.q a))
def execCrRd (g : BitVec 7) (s : BitVec 12) (st : State) : Out := runSlot (semCrRd g s) st

/-- CR_WR (R80): the write takes effect at the end of the cycle, and the old value goes to `cr.r`. -/
def semCrWr (g : BitVec 7) (s : BitVec 12) : Sem :=
  trigS g s fun t st => cregCheck t st fun a =>
    .ok ((st.pushCr (st.creg st.cur.core st.cur.q a)).modMe fun x => { x with late := x.late ++ [.creg a x.ports.cro] })
def execCrWr (g : BitVec 7) (s : BitVec 12) (st : State) : Out := runSlot (semCrWr g s) st

/-- CR_TLBINV (R81, R204): the issuing sequencer's translations go at the end of the cycle; with bit 1 the bundle
first waits until every other sequencer of the address space has dropped them.  From its trigger on, no walk of the space
starts before the stores that a marker ordered before it. -/
def semCrTlbinv (g : BitVec 7) (s : BitVec 12) : Sem :=
  trigS g s fun t st =>
    let x := st.me
    if x.ports.cro.getLsbD 1 && !x.done then
      .wait (.invalidate (x.ports.cro.getLsbD 0) t.toNat ((st.inSpace x.asid).filter (· != (st.cur.core, st.cur.q))))
        (st.modMe fun x => { x with invEpoch := x.epoch })
    else .ok ((st.modMe fun x => { x with late := x.late ++ [.drop (x.ports.cro.getLsbD 0) t.toNat], invEpoch := x.epoch }).pushCr 0)
def execCrTlbinv (g : BitVec 7) (s : BitVec 12) (st : State) : Out := runSlot (semCrTlbinv g s) st

/-- The pieces of a byte range, one for each 64 KiB granule that it reaches outside the aperture. -/
def rangePieces : Nat → Nat → Nat → List (Nat × Nat)
  | 0, _, _ => []
  | fuel + 1, va, stop =>
    if stop ≤ va then []
    else
      let next := min stop (va / 65536 * 65536 + 65536)
      (if inAperture va then [] else [(va, next - va)]) ++ rangePieces fuel next stop

/-- The physical lines of a piece; bytes that fail to translate or lie in no memory name none (R82). -/
def State.pieceLines (s : State) (x : Seq) (g : Nat × Nat) : List Nat :=
  match x.tlbHit g.1 with
  | some p => if s.inMemory (p.phys g.1) then unitsOf 256 (p.phys g.1) g.2 else []
  | none => []

/-- The pieces of a range of `cr.cinv`, which ends at 2^56; a range above 4 MiB has none, for it drops every line (R82; log
entry 12). -/
def cinvPieces (va n : Nat) : List (Nat × Nat) :=
  let stop := min (va + n) (2 ^ 56)
  if 4194304 < stop - va then [] else rangePieces 66 va stop

/-- The lines of the banks that a range names (R82). -/
def State.rangeLines (s : State) (c q va n : Nat) : List Nat :=
  let held := (s.core c).cache.map (·.line)
  if 4194304 < min (va + n) (2 ^ 56) - va then held
  else
    let named := ((cinvPieces va n).map (s.pieceLines (s.seq c q))).flatten
    held.filter named.contains

/-- The named lines go, once every piece has been looked up and the dirty sectors have been written back (R82, R198,
R203). -/
def invalidateRange (va n : Nat) (st : State) : SlotRes :=
  let x := st.me
  match (cinvPieces va n).find? fun g => (x.tlbHit g.1).isNone && !x.walkFailed x.asid g.1 with
  | some g => .wait (.walk x.asid (g.1 / 65536 * 65536)) st
  | none =>
    let lines := st.rangeLines st.cur.core st.cur.q va n
    let dirty := lines.filter st.myCore.lineDirty
    if !dirty.isEmpty then .wait (.cinv dirty) st
    else .ok ((st.modMyCore fun k => { k with cache := k.cache.filter fun l => !lines.contains l.line }).pushCr 0)

/-- CR_CINV (R82).  With `cr.o` 0 it writes 0 to `cr.r` and waits for nothing (log entry 96). -/
def semCrCinv (g : BitVec 7) (s : BitVec 12) : Sem :=
  trigS g s fun t st =>
    let x := st.me
    if x.ports.cro = 0 then .ok (st.pushCr 0)
    else if !x.allPerformed then .wait (.cinv []) st
    else invalidateRange t.toNat x.ports.cro.toNat st
def execCrCinv (g : BitVec 7) (s : BitVec 12) (st : State) : Out := runSlot (semCrCinv g s) st

/-- CR_TRACE (R83). -/
def traceOp (t : Word) (st : State) : State :=
  match bits t.toNat 1 0 with
  | 0 => st.traceMarker st.cur.core st.cur.q (st.me.ports.cro.toNat % 2 ^ 32)
  | 1 => st.traceStart st.cur.core st.cur.q
  | 2 => st.traceStop st.cur.core st.cur.q
  | _ => st
def semCrTrace (g : BitVec 7) (s : BitVec 12) : Sem := trigS g s fun t st => .ok ((traceOp t st).pushCr 0)
def execCrTrace (g : BitVec 7) (s : BitVec 12) (st : State) : Out := runSlot (semCrTrace g s) st

/-- REMWAYS_WRITE (R199): at the end of the cycle, in every slice of the die. -/
def execRemwaysWrite (die : Nat) (v : BitVec 64) (st : State) : Out := .next (st.writeRemways die v)

/-- DIGBASE_WRITE (R233). -/
def execDigbaseWrite (v : BitVec 64) (st : State) : Out := .next (st.writeDigbase v)

end Sys2Proof.Machine
end

