-- ==== Sys2Proof/Machine/Digest.lean ====
section
/-! DEFINITION. The dg unit (R234, R235, R245 to R249). -/
namespace Sys2Proof.Machine

/-! ### Queries (R245, R246) -/

/-- The lines of a query resolve, in ascending address: misses freeze, and the first that fails to
translate traps (R103 step 3). -/
def queryLines (st : State) (vas : List Nat) (f : List Loc → SlotRes) : SlotRes :=
  let ws := vas.map fun v => (v, if inAperture v then Where.at (.spad 0 0) else st.resolve st.cur.core st.cur.q .load v)
  match ws.find? fun w => w.2 == .miss with
  | some w => .freeze (.walk st.me.asid (w.1 / 65536 * 65536))
  | none =>
    match ws.find? fun w => w.2 == .trap .translation with
    | some w => .trap .translation (BitVec.ofNat 64 w.1) none st
    | none => f (ws.filterMap fun w => match w.2 with | .at l => some l | _ => none)

/-- The key of the region that holds a place, while digests are enabled (R233). -/
def State.regionKey (s : State) : Loc → Option Nat
  | .mem pa => if s.digbase.getLsbD 0 then (mapGet none s.captured (pa / 65536)).map (·.region) else none
  | .spad _ _ => none

/-- The one region that holds every line of a run (R245). -/
def State.regionOf (s : State) (ls : List Loc) : Option Region :=
  match ls with
  | [] => none
  | l :: rest =>
    match s.regionKey l with
    | some k => if rest.all fun m => s.regionKey m == some k then s.region k else none
    | none => none

/-- The records of lines, under the registration that a query has found them in (R245). -/
def recordParts (r : Region) (ls : List Loc) : List Part :=
  ls.filterMap fun l => match l with | .mem pa => some (.record (pa / 256 * 256) r.serial) | .spad _ _ => none

/-- A query enters the load queue; stores before the last `dg.dfence` are performed first (R247). -/
def State.addQuery (st : State) (kind : LoadKind) (cls : Cls) (r : Region) (ls : List Loc) : State :=
  st.enterLoad (newLoad st.me kind cls (recordParts r ls) none st.me.dfence)

/-- QSK, N and VMAP of `dg.o` (R245). -/
def qskOf (o : Vec) : BitVec 96 := lane o 2 ++ lane o 1 ++ lane o 0
def runLength (o : Vec) : Nat := bits (lane o 3).toNat 6 0
def runVmap (o : Vec) : Bool := (lane o 3).getLsbD 7

/-- The line of an address (R245). -/
def lineStart (t : Word) : Nat := t.toNat / 256 * 256

/-- `dg.dq` (R245). -/
def queryOne (t : Word) (st : State) : SlotRes :=
  withLoadRoom st (queryLines st [lineStart t] fun ls =>
    match st.regionOf ls with
    | some r => .ok (st.addQuery .dq .v r ls)
    | none => .trap .digestRegion t none st)

/-- The run that `dqr` and `dqz` read (R245); one that leaves its region reports its first address (log entry 129). -/
def queryRun (t : Word) (st : State) (ok : Region → Bool) (kind : Region → LoadKind) (cls : Cls) : SlotRes :=
  let n := runLength st.me.ports.dgo
  withLoadRoom st
    (if n = 0 || 64 < n then .trap .digestRegion t none st
     else queryLines st ((List.range n).map fun j => lineStart t + 256 * j) fun ls =>
       match st.regionOf ls with
       | some r => if ok r then .ok (st.addQuery (kind r) cls r ls) else .trap .digestRegion t none st
       | none => .trap .digestRegion t none st)

/-! ### Registration (R234, R235, R249) -/

/-- Remove a region: its pages leave it (R249). -/
def State.removeRegion (s : State) (key : Nat) : State :=
  { s with
    regions := mapErase key s.regions
    captured := s.captured.filter fun e => match e.2 with | some c => c.region != key | none => false }

/-- A table entry's fields, within the limits of R234. -/
def regionEntry (b : List Byte) : Option Region :=
  let base := field b 0 8
  let len := field b 8 8
  let et := field b 16 1
  let kind := field b 17 1
  let dbase := field b 24 8
  if base % 65536 == 0 && base < 2 ^ 56 && len != 0 && len % 65536 == 0 && len ≤ 2 ^ 40 && 1 ≤ et && et ≤ 9 && 1 ≤ kind && kind ≤ 4 &&
      field b 18 1 == 1 && field b 19 1 == 0 && dbase % 256 == 0 && dbase + len / 16 ≤ hbmEnd && (kind != 4 || isFloatFmt et) then
    some { serial := 0, base := base, length := len, etype := et, kind := kind, seed := BitVec.ofNat 32 (field b 20 4), dbase := dbase, pages := [] }
  else none

/-- The physical pages of a region, every one mapped (R235). -/
def State.regionPages (s : State) (asid : Nat) (r : Region) : Option (List Nat) :=
  (List.range (r.length / 65536)).mapM fun i =>
    let va := r.base + 65536 * i
    match s.resolveIn asid .load va with
    | .at (.mem pa) => some pa
    | _ => none

/-- Another valid region of the address space overlaps (R249). -/
def State.overlaps (s : State) (asid : Nat) (r : Region) : Bool :=
  s.regions.any fun e => e.1 / 256 == asid && (match e.2 with
    | some x => x.base < r.base + r.length && r.base < x.base + x.length
    | none => false)

/-- Capture the pages, and start every record, under a registration of its own (R235, R249); of two
pages of the region on one physical page, the later one's place counts (log entry 128). -/
def State.capture (s : State) (key : Nat) (r : Region) (pages : List Nat) : State :=
  let s := { s with
    serial := s.serial + 1, regions := mapInsert key (some { r with pages := pages, serial := s.serial + 1 }) s.regions }
  pages.zipIdx.foldl (fun (s : State) e =>
    let dbase := r.dbase + 16 * (256 * e.2)
    let s := { s with captured := mapInsert (e.1 / 65536) (some { region := key, dbase := dbase }) s.captured }
    (List.range 256).foldl (fun (s : State) i =>
      s.setDigest (e.1 / 65536 * 65536 + 256 * i) { DigestRec.init with kind := BitVec.ofNat 4 r.kind }) s) s

/-- What `dg.dregion` does: the state it leaves, and whether it traps (R249); the directory and the table
are read as their bytes stand (log entry 130). -/
def State.registerRegion (s : State) (asid i : Nat) : State × Bool :=
  let dir := (s.read64 (bits s.digbase.toNat 51 12 * 4096 + 8 * asid)).toNat
  if !s.digbase.getLsbD 0 || !bitAt dir 0 || bits dir 12 1 != 0 || bits dir 63 52 != 0 then (s, true)
  else
    let key := asid * 256 + i
    let s := s.removeRegion key
    let b := s.readMem (bits dir 51 13 * 8192 + 32 * i) 32
    if field b 18 1 = 0 then (s, false)
    else match regionEntry b with
      | none => (s, true)
      | some r =>
        match s.regionPages asid r with
        | none => (s, true)
        | some ps =>
          if ps.any (fun p => (mapGet none s.captured (p / 65536)).isSome) || s.overlaps asid r then (s, true)
          else (s.capture key r ps, false)

/-- `dg.dregion` (R249); its trap reports address 0 (log entry 129). -/
def regionTrigger (t : Word) (st : State) : SlotRes :=
  if st.me.asid % 65536 ≠ 0 then .plain .privilege st
  else if st.me.done then
    let r := st.registerRegion (bits t.toNat 23 8) (bits t.toNat 7 0)
    if r.2 then .trap .digestRegion 0 none r.1 else .ok r.1
  else .wait .region st.marker

/-- `dg.drebuild` (R248); its trap reports address 0 (log entry 129). -/
def rebuildTrigger (t : Word) (st : State) : SlotRes :=
  withStoreRoom st
    (let key := st.me.asid % 65536 * 256 + bits t.toNat 7 0
     match (if st.digbase.getLsbD 0 then st.region key else none) with
     | some r => .ok (st.addStore (.rebuild key r.serial 0) [])
     | none => .trap .digestRegion 0 none st)

/-- DG_DQ (R245). -/
def semDgDq (g : BitVec 7) (s : BitVec 12) : Sem :=
  trigS g s queryOne
def execDgDq (g : BitVec 7) (s : BitVec 12) (st : State) : Out := runSlot (semDgDq g s) st

/-- DG_DQR (R246). -/
def semDgDqr (g : BitVec 7) (s : BitVec 12) : Sem :=
  trigS g s fun t st =>
    queryRun t st (fun _ => true) (fun r => .dqr (runLength st.me.ports.dgo) (qskOf st.me.ports.dgo) r.etype r.kind) .v
def execDgDqr (g : BitVec 7) (s : BitVec 12) (st : State) : Out := runSlot (semDgDqr g s) st

/-- DG_DQZ (R245). -/
def semDgDqz (g : BitVec 7) (s : BitVec 12) : Sem :=
  trigS g s fun t st =>
    queryRun t st (fun r => runVmap st.me.ports.dgo || r.kind == 3)
      (fun _ => .dqz (runLength st.me.ports.dgo) (runVmap st.me.ports.dgo)) .p
def execDgDqz (g : BitVec 7) (s : BitVec 12) (st : State) : Out := runSlot (semDgDqz g s) st

/-- DG_DFENCE (R247). -/
def semDgDfence (g : BitVec 7) (s : BitVec 12) : Sem :=
  trigS g s fun _ st => .ok (st.modMe fun x => { x with dfence := x.order })
def execDgDfence (g : BitVec 7) (s : BitVec 12) (st : State) : Out := runSlot (semDgDfence g s) st

/-- DG_DREBUILD (R248). -/
def semDgDrebuild (g : BitVec 7) (s : BitVec 12) : Sem :=
  trigS g s rebuildTrigger
def execDgDrebuild (g : BitVec 7) (s : BitVec 12) (st : State) : Out := runSlot (semDgDrebuild g s) st

/-- DG_DREGION (R249). -/
def semDgDregion (g : BitVec 7) (s : BitVec 12) : Sem :=
  trigS g s regionTrigger
def execDgDregion (g : BitVec 7) (s : BitVec 12) (st : State) : Out := runSlot (semDgDregion g s) st

end Sys2Proof.Machine
end

