-- ==== Sys2Proof/Machine/KvTable.lean ====
section
/-! DEFINITION. The key-cache tables of an address space (R279 to R281), the frame lookups of streams and
tiles (R121, R290), and the fault records (R289). -/
namespace Sys2Proof.Machine

/-- The KV descriptor (R279). -/
structure KvDesc where
  seqtab : Nat
  nseq : Nat
  frtab : Nat
  free : Nat
  faults : Nat
  deriving DecidableEq, Repr

/-- What a fault record reports (R289). -/
structure KvFault where
  seq : Nat
  reason : Nat
  pos : Nat
  frame : Nat
  page : Nat
  fbase : Nat
  rstride : Nat
  deriving DecidableEq, Repr

/-- Why an operation on the tables stops: an access check, or a KV cause with its record; an address that misses in the
TLB, which the bundle freezes for; or a word that it has not read yet, which stops only the planning of a waiting
operation. -/
inductive KvFail where
  | access (c : Cause) (va : Nat)
  | fault (c : Cause) (faults : Nat) (r : KvFault)
  | miss (va : Nat)
  | need (va n : Nat)
  deriving DecidableEq, Repr

def noFrame : Nat := 0xFFFFFFFF

/-- A table word's place; its checks are those of R103. -/
def State.kvPlace (s : State) (c q : Nat) (r : Right) (va n : Nat) : Except KvFail Loc :=
  if va % n != 0 then .error (.access .misaligned va)
  else match s.resolve c q r va with
    | .at l => .ok l
    | .trap cause => .error (.access cause va)
    | .miss => .error (.miss va)

/-- A place as a core reads it at home; a read that a link loses is poisoned (R319). -/
def State.readHome (s : State) (c : Nat) (l : Loc) (n : Nat) : List Byte × Bool :=
  match l with
  | .mem pa => s.homeReadFrom (dieOf c) pa n
  | .spad .. => s.readLoc l n

/-- Read a table word of `n` bytes at its home, once its place is known (R281); a poisoned one stops the operation (R206;
log entry 57). -/
def State.kvGetAt (s : State) (c va n : Nat) (l : Loc) : Except KvFail Nat :=
  let r := s.readHome c l n
  if r.2 then .error (.access .eccUncorrectable va) else .ok (leNat r.1)

def State.kvGet (s : State) (c q va n : Nat) : Except KvFail Nat := (s.kvPlace c q .load va n).bind (s.kvGetAt c va n)

/-- Write a table word at its home in one step, as an atomic does: copies in the core's banks and in the die's
remote-line ways go, and its line is signed (R215, R221, R281).  One that a link loses raises LINK (R319). -/
def State.kvPutAt (s : State) (c q n v : Nat) (l : Loc) : State :=
  let bs := (natBytes n v).map some
  match l with
  | .mem pa =>
    if s.cut (dieOf c) pa then s.modSeq c q fun x => x.addPending .link
    else ((s.mergeDrop c pa bs).noteStore c q (s.seq c q).order pa bs).modSeq c q fun x => x.sign (lineBit pa)
  | .spad o off => s.modCore o fun k => k.writeSpad off bs

/-- How table words are read: address, bytes. -/
abbrev KvGet := Nat → Nat → Except KvFail Nat

/-- The descriptor that KVDESC names; none when it is 0 (R279). -/
def kvDescBy (get : KvGet) (at_ : Nat) : Except KvFail (Option KvDesc) :=
  if at_ = 0 then .ok none
  else do
    let seqtab ← get at_ 8
    let nseq ← get (at_ + 8) 4
    let frtab ← get (at_ + 16) 8
    let faults ← get (at_ + 32) 8
    .ok (some { seqtab := seqtab, nseq := nseq, frtab := frtab, free := at_ + 24, faults := faults })

/-- KVDESC of the sequencer's address space (R334). -/
def State.kvAt (s : State) (c q : Nat) : Nat := (s.ctxKvDesc (s.seq c q).asid).toNat

/-- The descriptor of the sequencer's address space (R279). -/
def State.kvDesc (s : State) (c q : Nat) : Except KvFail (Option KvDesc) := kvDescBy (s.kvGet c q) (s.kvAt c q)

/-- The sequence entry's LENGTH, CAP and PLIST (R279). -/
structure KvSeq where
  length : Nat
  cap : Nat
  plist : Nat
  deriving DecidableEq, Repr

def kvSeqBy (get : KvGet) (d : KvDesc) (n : Nat) : Except KvFail KvSeq := do
  let length ← get (d.seqtab + 16 * n) 4
  let cap ← get (d.seqtab + 16 * n + 4) 2
  let plist ← get (d.seqtab + 16 * n + 8) 8
  .ok { length := length, cap := cap, plist := plist }
def State.kvSeq (s : State) (c q : Nat) (d : KvDesc) (n : Nat) : Except KvFail KvSeq := kvSeqBy (s.kvGet c q) d n

/-- Pages of a number of tokens. -/
def pagesOf (tokens : Nat) : Nat := (tokens + 15) / 16

/-- A frame entry: COUNT, RO, LINK (R280). -/
def frameEntry (d : KvDesc) (f : Nat) : Nat := d.frtab + 8 * f

/-- The fault record's bytes (R289). -/
def KvFault.bytes (r : KvFault) : List Byte :=
  natBytes 2 r.seq ++ natBytes 1 r.reason ++ natBytes 1 0 ++ natBytes 4 r.pos ++ natBytes 4 r.frame ++
    natBytes 4 r.page ++ natBytes 8 r.fbase ++ natBytes 8 r.rstride

/-- Where the fault record of a sequencer goes: none when FAULTS is 0 or its address takes no record (R289). -/
def recordVa (c q faults : Nat) : Option Nat :=
  let va := faults + 32 * (2 * c + q)
  if faults = 0 || va ≥ 2 ^ 56 || inAperture va then none else some va

/-- The address of the fault record misses in the TLB (R203). -/
def State.recordMiss (s : State) (c q faults : Nat) : Option Nat := (recordVa c q faults).filter fun va => s.resolve c q .store va == .miss

/-- The fault record enters the store queue as a store of the sequencer, where its address takes one; the handler's
first bundle waits until it has been performed (R101, R289). -/
def State.kvRecord (s : State) (c q faults : Nat) (r : KvFault) : State :=
  match (recordVa c q faults).map (s.resolve c q .store) with
    | some (.at (.mem pa)) =>
      s.modSeq c q fun x => { x with
        rsig := x.rsig ||| lineBit pa, faultOrder := some x.order, order := x.order + 1,
        stores := x.stores ++ [{ order := x.order, epoch := x.epoch, kind := .plain,
                                 parts := (cutLines 3 pa (r.bytes.map some)).map fun e => { loc := .mem e.1, bytes := e.2 } }] }
    | _ => s

/-- The bundle freezes for the translation of an address (R103, R203). -/
def missFreeze (st : State) (va : Nat) : SlotRes := .freeze (.walk st.me.asid (va / 65536 * 65536))

/-- The trap of a failed table operation, precise at its slot, with its record written (R283, R289); a translation that
misses freezes the bundle first (R103, R203). -/
def kvTrap (st : State) : KvFail → SlotRes
  | .access c va => .trap c (BitVec.ofNat 64 va) none st
  | .fault c faults r => (match st.recordMiss st.cur.core st.cur.q faults with
    | some va => missFreeze st va
    | none => .plain c (st.kvRecord st.cur.core st.cur.q faults r))
  | .miss va => missFreeze st va
  | .need va _ => .trap .translation (BitVec.ofNat 64 va) none st

/-- A failed table operation, or what comes after a good one. -/
def kvThen {α : Type} (st : State) (r : Except KvFail α) (f : α → SlotRes) : SlotRes :=
  match r with
  | .ok a => f a
  | .error e => kvTrap st e

/-- A `KV_BOUNDS` (R289). -/
def kvBounds (d : Option KvDesc) (r : KvFault) : KvFail :=
  .fault .kvBounds (match d with | some d => d.faults | none => 0) r

/-- The frame of a token of a sequence, as a mode-1 stream or tile looks it up (R121, R289): KVSEQ at or
beyond NSEQ, then a token at or beyond LENGTH.  `known` is a cached frame that may be used. -/
def kvFrameBy (get : KvGet) (at_ kvseq pos base rstride : Nat) (known : Option Nat) : Except KvFail (KvDesc × Nat) := do
  let d ← kvDescBy get at_
  let fault : KvFault := { seq := kvseq, reason := 5, pos := pos, frame := noFrame, page := 0, fbase := base, rstride := rstride }
  match d with
  | none => .error (kvBounds none fault)
  | some d =>
    if d.nseq ≤ kvseq then .error (kvBounds (some d) fault)
    else do
      let e ← kvSeqBy get d kvseq
      if e.length ≤ pos then .error (kvBounds (some d) { fault with reason := 1, page := pos / 16 })
      else match known with
        | some f => .ok (d, f)
        | none => do
          let f ← get (e.plist + 4 * (pos / 16)) 4
          .ok (d, f)
def State.kvFrame (s : State) (c q kvseq pos base rstride : Nat) (known : Option Nat) : Except KvFail (KvDesc × Nat) :=
  kvFrameBy (s.kvGet c q) (s.kvAt c q) kvseq pos base rstride known

/-- The checks of a frame to be written: read-only, then shared (R122, R290). -/
def State.kvFrameCheck (s : State) (c q : Nat) (d : KvDesc) (f kvseq pos base rstride rowVa : Nat) : Except KvFail Unit := do
  let w ← s.kvGet c q (frameEntry d f) 8
  if bitAt w 16 then .error (.access .protection rowVa)
  else if 1 < w % 65536 then
    .error (.fault .kvCow d.faults
      { seq := kvseq, reason := 0, pos := pos, frame := f, page := pos / 16, fbase := base, rstride := rstride })
  else .ok ()

/-- The address of a token's row in frame `f` (R121). -/
def frameRow (base : Nat) (rstride : Word) (f pos : Nat) : Word :=
  BitVec.ofNat 64 base + BitVec.ofNat 64 (f * 16) * rstride + BitVec.ofNat 64 (pos % 16) * rstride

end Sys2Proof.Machine
end

