-- ==== Sys2Proof/Machine/LoadStore.lean ====
section
/-! DEFINITION. Loads, gathers, stores, scatters and the marker (R102 to R111). -/
namespace Sys2Proof.Machine

/-! ### Loads (R104 to R106, R110) -/

/-- The stamp check of a load: its line must lie in a digest region (R103 step 6, R111). -/
def withStamp (st : State) (va : Nat) (ls : List Loc) (f : Option StampCheck → SlotRes) : SlotRes :=
  match stampCheckOf st.me.ports.lqb with
  | none => f none
  | some k => if ls.all st.inRegion then f (some k) else .trap .digestRegion (BitVec.ofNat 64 va) none st

/-- A load of one aligned run (R104, R105). -/
def loadRun (g : BitVec 7) (s : BitVec 12) (n : Nat) (kind : LoadKind) (cls : Cls) : Sem :=
  trigS g s fun t st =>
    withLoadRoom st (checkOne st .load t.toNat n fun l =>
      withStamp st t.toNat [l] fun k => .ok (st.addLoad kind cls [.bytes l n] k))

/-- The first index of an element, counted from 1. -/
def indexFrom {α : Type} [DecidableEq α] (x : α) : Nat → List α → Nat
  | _, [] => 0
  | i, y :: ys => if x = y then i else indexFrom x (i + 1) ys

/-- Check each selected element in ascending order: misses freeze first, and the first failing element
traps (R106, R109). -/
def checkEach (st : State) (r : Right) (vas : List Nat) (f : List Loc → SlotRes) : SlotRes :=
  let ws := vas.map fun v => (v, if v % 4 != 0 then .trap .misaligned else st.resolve st.cur.core st.cur.q r v)
  match ws.find? fun w => w.2 == .miss with
  | some w => .freeze (.walk st.me.asid (w.1 / 65536 * 65536))
  | none =>
    match ws.find? fun w => match w.2 with | .trap _ => true | _ => false with
    | some (v, .trap c) => .trap c (BitVec.ofNat 64 v) none st
    | _ => f (ws.filterMap fun w => match w.2 with | .at l => some l | _ => none)

/-- Addresses of the selected lanes: base plus the lane's offset, read as n32 (R106, R109). -/
def laneAddrs (base : Word) (t : Vec) (lanes : List Nat) : List Nat :=
  lanes.map fun i => (base + (lane t i).zeroExtend 64).toNat

/-- Each lane's place among the distinct places read, counted from 1; 0 for an unselected lane (R106). -/
def laneSources (lanes : List Nat) (ls uniq : List Loc) : List Nat :=
  (List.range 64).map fun i => match (lanes.zip ls).lookup i with
    | some l => indexFrom l 1 uniq
    | none => 0

/-- The places of one line side by side, lines in the order of their first place: a line is read in one step
(R210, R241). -/
def byLine : List Loc → List Loc
  | [] => []
  | l :: ls =>
    let rest := byLine ls
    let same := rest.filter fun m => m.sameLine l
    l :: (same ++ rest.filter fun m => !m.sameLine l)

def gatherOp (m : Word) (t : Vec) (st : State) : SlotRes :=
  let lanes := (List.range 64).filter fun i => m.getLsbD i
  withLoadRoom st (checkEach st .load (laneAddrs st.me.ports.lqb t lanes) fun ls =>
    let uniq := byLine ls.eraseDups
    .ok (st.addLoad (.gather (laneSources lanes ls uniq)) .v (uniq.map fun l => .bytes l 4) none))

/-! ### Stores (R107 to R109, R215) -/

/-- A store-class operation to the given places, their lines entered in RSIG. -/
def State.storeAt (st : State) (parts : List StorePart) : State :=
  (st.signLocs (parts.map (·.loc))).addStore .plain parts

/-- A scalar store of the low `n` bytes of t at `sq.o` (R107). -/
def storeScalar (g : BitVec 7) (s : BitVec 12) (n : Nat) : Sem :=
  trigS g s fun t st =>
    withStoreRoom st (checkOne st .store st.me.ports.sqo.toNat n fun l =>
      .ok (st.storeAt [{ loc := l, bytes := (natBytes n t.toNat).map some }]))

/-- The bytes of lanes of `k` bytes, left unwritten where the guard bit is 0 (R107). -/
def maskedBytes (k : Nat) (m : Word) (v : Nat → Lane) : List (Option Byte) :=
  ((List.range 64).map fun i =>
    if m.getLsbD i then (natBytes k (v i).toNat).map some else List.replicate k none).flatten

/-- A vector store of lanes of `k` bytes at `sq.o`, each selected lane converted, with its flags (R107, R108). -/
def storeVector (g : BitVec 7) (s : BitVec 12) (k : Nat) (f : RM → Lane → Flagged Lane) : Sem :=
  trigV g s fun m t st =>
    withStoreRoom st (checkOne st .store st.me.ports.sqo.toNat (64 * k) fun l =>
      let r := fun i => f st.me.rm (lane t i)
      let fl := (List.range 64).foldl (fun a i => if m.getLsbD i then a ||| (r i).2 else a) 0
      .ok ((st.storeAt [{ loc := l, bytes := maskedBytes k m fun i => (r i).1 }]).addFlags fl))

/-- The words of a sector of memory that places name, each once. -/
def wordsIn (sector : Nat) (ls : List Loc) : List Nat :=
  (ls.filterMap fun l => match l with
    | .mem pa => if pa / 32 = sector then some pa else none
    | .spad _ _ => none).eraseDups

/-- The sector that the pair at place `i` of a scatter is the last to fill (R206, R210). -/
def scatterFills (ls : List Loc) (i : Nat) : List Nat :=
  match ls[i]? with
  | some (.mem pa) => if (wordsIn (pa / 32) (ls.take (i + 1))).length = 8 then [pa / 32] else []
  | _ => []

/-- Up to 32 pairs, applied in ascending order (R109). -/
def scatterOp (m : Word) (t : Vec) (st : State) : SlotRes :=
  let lanes := (List.range 32).filter fun i => m.getLsbD i
  withStoreRoom st (checkEach st .store (laneAddrs st.me.ports.sqo t lanes) fun ls =>
    .ok (st.storeAt ((lanes.zip ls).zipIdx.map fun e =>
      { loc := e.1.2, bytes := (natBytes 4 (lane t (e.1.1 + 32)).toNat).map some, fills := scatterFills ls e.2 })))

/-- LQ_LDB (R104). -/
def semLqLdb (g : BitVec 7) (s : BitVec 12) : Sem :=
  loadRun g s 1 (.scalar 1 false) .s
def execLqLdb (g : BitVec 7) (s : BitVec 12) (st : State) : Out := runSlot (semLqLdb g s) st

/-- LQ_LDBS (R104). -/
def semLqLdbs (g : BitVec 7) (s : BitVec 12) : Sem :=
  loadRun g s 1 (.scalar 1 true) .s
def execLqLdbs (g : BitVec 7) (s : BitVec 12) (st : State) : Out := runSlot (semLqLdbs g s) st

/-- LQ_LDH (R104). -/
def semLqLdh (g : BitVec 7) (s : BitVec 12) : Sem :=
  loadRun g s 2 (.scalar 2 false) .s
def execLqLdh (g : BitVec 7) (s : BitVec 12) (st : State) : Out := runSlot (semLqLdh g s) st

/-- LQ_LDHS (R104). -/
def semLqLdhs (g : BitVec 7) (s : BitVec 12) : Sem :=
  loadRun g s 2 (.scalar 2 true) .s
def execLqLdhs (g : BitVec 7) (s : BitVec 12) (st : State) : Out := runSlot (semLqLdhs g s) st

/-- LQ_LDW (R104). -/
def semLqLdw (g : BitVec 7) (s : BitVec 12) : Sem :=
  loadRun g s 4 (.scalar 4 false) .s
def execLqLdw (g : BitVec 7) (s : BitVec 12) (st : State) : Out := runSlot (semLqLdw g s) st

/-- LQ_LDWS (R104). -/
def semLqLdws (g : BitVec 7) (s : BitVec 12) : Sem :=
  loadRun g s 4 (.scalar 4 true) .s
def execLqLdws (g : BitVec 7) (s : BitVec 12) (st : State) : Out := runSlot (semLqLdws g s) st

/-- LQ_LDD (R104). -/
def semLqLdd (g : BitVec 7) (s : BitVec 12) : Sem :=
  loadRun g s 8 (.scalar 8 false) .s
def execLqLdd (g : BitVec 7) (s : BitVec 12) (st : State) : Out := runSlot (semLqLdd g s) st

/-- LQ_VLD (R105). -/
def semLqVld (g : BitVec 7) (s : BitVec 12) : Sem :=
  loadRun g s 256 (.vector .words) .v
def execLqVld (g : BitVec 7) (s : BitVec 12) (st : State) : Out := runSlot (semLqVld g s) st

/-- LQ_VLDBF (R105). -/
def semLqVldbf (g : BitVec 7) (s : BitVec 12) : Sem :=
  loadRun g s 128 (.vector .bf16) .v
def execLqVldbf (g : BitVec 7) (s : BitVec 12) (st : State) : Out := runSlot (semLqVldbf g s) st

/-- LQ_VLDHF (R105). -/
def semLqVldhf (g : BitVec 7) (s : BitVec 12) : Sem :=
  loadRun g s 128 (.vector .f16) .v
def execLqVldhf (g : BitVec 7) (s : BitVec 12) (st : State) : Out := runSlot (semLqVldhf g s) st

/-- LQ_VLDB (R105). -/
def semLqVldb (g : BitVec 7) (s : BitVec 12) : Sem :=
  loadRun g s 64 (.vector .bytes) .v
def execLqVldb (g : BitVec 7) (s : BitVec 12) (st : State) : Out := runSlot (semLqVldb g s) st

/-- LQ_GTH (R106). -/
def semLqGth (g : BitVec 7) (s : BitVec 12) : Sem :=
  trigV g s gatherOp
def execLqGth (g : BitVec 7) (s : BitVec 12) (st : State) : Out := runSlot (semLqGth g s) st

/-- SQ_STB (R107). -/
def semSqStb (g : BitVec 7) (s : BitVec 12) : Sem :=
  storeScalar g s 1
def execSqStb (g : BitVec 7) (s : BitVec 12) (st : State) : Out := runSlot (semSqStb g s) st

/-- SQ_STH (R107). -/
def semSqSth (g : BitVec 7) (s : BitVec 12) : Sem :=
  storeScalar g s 2
def execSqSth (g : BitVec 7) (s : BitVec 12) (st : State) : Out := runSlot (semSqSth g s) st

/-- SQ_STW (R107). -/
def semSqStw (g : BitVec 7) (s : BitVec 12) : Sem :=
  storeScalar g s 4
def execSqStw (g : BitVec 7) (s : BitVec 12) (st : State) : Out := runSlot (semSqStw g s) st

/-- SQ_STD (R107). -/
def semSqStd (g : BitVec 7) (s : BitVec 12) : Sem :=
  storeScalar g s 8
def execSqStd (g : BitVec 7) (s : BitVec 12) (st : State) : Out := runSlot (semSqStd g s) st

/-- SQ_VST (R107). -/
def semSqVst (g : BitVec 7) (s : BitVec 12) : Sem :=
  storeVector g s 4 fun _ x => (x, 0)
def execSqVst (g : BitVec 7) (s : BitVec 12) (st : State) : Out := runSlot (semSqVst g s) st

/-- SQ_VSTBF (R108). -/
def semSqVstbf (g : BitVec 7) (s : BitVec 12) : Sem :=
  storeVector g s 2 (f32Narrow .bf16)
def execSqVstbf (g : BitVec 7) (s : BitVec 12) (st : State) : Out := runSlot (semSqVstbf g s) st

/-- SQ_VSTHF (R108). -/
def semSqVsthf (g : BitVec 7) (s : BitVec 12) : Sem :=
  storeVector g s 2 (f32Narrow .f16)
def execSqVsthf (g : BitVec 7) (s : BitVec 12) (st : State) : Out := runSlot (semSqVsthf g s) st

/-- SQ_SCT (R109). -/
def semSqSct (g : BitVec 7) (s : BitVec 12) : Sem :=
  trigV g s scatterOp
def execSqSct (g : BitVec 7) (s : BitVec 12) (st : State) : Out := runSlot (semSqSct g s) st

/-- LQ_MARK (R102). -/
def semLqMark (g : BitVec 7) (s : BitVec 12) : Sem :=
  trigS g s fun _ st => .ok st.marker
def execLqMark (g : BitVec 7) (s : BitVec 12) (st : State) : Out := runSlot (semLqMark g s) st

end Sys2Proof.Machine
end

