-- ==== Sys2Proof/Machine/Streams.lean ====
section
/-! DEFINITION. Stream registers and the ag unit (R112 to R123), and shape records (R113 to R115). -/
namespace Sys2Proof.Machine

/-! ### Descriptions (R113, R114) -/

/-- Whether a description of a source is valid (R114). -/
def shapeValid (base fmt mode rows cols : Nat) (rstride sstride : Word) : Bool :=
  let hx := (hxOf fmt).isSome
  1 ≤ fmt && fmt ≤ 12 && mode ≤ 1 && 1 ≤ cols && cols ≤ 64 && (!hx || cols % 16 == 0) &&
    (mode == 1 || 1 ≤ rows) && !(mode == 1 && hx) && base % fmtAlign fmt == 0 &&
    rstride.toNat % fmtAlign fmt == 0 && (!hx || sstride.toNat % 2 == 0)

def Stream.valid (d : Stream) : Bool :=
  shapeValid d.base.toNat d.fmt.toNat d.mode.toNat d.rows.toNat d.cols.toNat d.rstride d.sstride

/-- The fields of a shape record (R113, R168). -/
def parseShape (b : List Byte) : Shape :=
  { base := field b 0 7, fmt := field b 8 1, mode := field b 9 1, rows := field b 10 2, cols := field b 12 1,
    rstride := BitVec.ofNat 64 (field b 16 8), sstride := BitVec.ofNat 64 (field b 24 8), kvseq := field b 32 2,
    pos := field b 36 4, trans := bitAt (field b 40 1) 0, zpack := bitAt (field b 40 1) 1 }

/-- The record describes a valid stream: R114 holds and its reserved bytes are 0. -/
def recordValid (b : List Byte) : Bool :=
  let d := parseShape b
  field b 7 1 == 0 && field b 13 3 == 0 && field b 34 2 == 0 && shapeValid d.base d.fmt d.mode d.rows d.cols d.rstride d.sstride

/-! ### Runs of bytes -/

/-- Cut a run of virtual bytes at its 256-byte lines. -/
def cutVa : Nat → Nat → Nat → List (Nat × Nat)
  | 0, _, _ => []
  | fuel + 1, va, n =>
    if n = 0 then []
    else
      let k := min n (256 - va % 256)
      (va, k) :: cutVa fuel (va + k) (n - k)

def cutRun (p : Nat × Nat) : List (Nat × Nat) := cutVa (p.2 / 256 + 2) p.1 p.2

/-- The runs of a row of `cols` elements at `row`: one, or one for each HX block (R120). -/
def rowRuns (fmt cols : Nat) (row sstride : Word) : List (Nat × Nat) :=
  match hxOf fmt with
  | some h =>
    if sstride = 0 then [(row.toNat, cols / 16 * h.bytes)]
    else (List.range (cols / 16)).map fun b => ((row + BitVec.ofNat 64 b * sstride).toNat, h.bytes)
  | none => [(row.toNat, cols * elemBytes fmt)]

/-! ### Rows of a stream (R121) -/

/-- Drop what a stream caches. -/
def Stream.dropCache (d : Stream) : Stream := { d with page := none, frame := none }

/-- The row of a position: in mode 1 in the cached frame, where that is the frame of its page, else in the frame that the
tables give (R121). -/
def State.rowAt (s : State) (d : Stream) (p : BitVec 32) : Option Word :=
  if d.mode = 0 then some (BitVec.ofNat 64 d.base.toNat + BitVec.ofNat 64 p.toNat * d.rstride)
  else
    let known := (d.frame.filter fun f => f.1 == p.toNat / 16).map (·.2)
    match s.kvFrame s.cur.core s.cur.q d.kvseq.toNat p.toNat d.base.toNat d.rstride.toNat known with
    | .ok r => some (frameRow d.base.toNat d.rstride r.2 p.toNat)
    | .error _ => none

/-- POS takes a value; the frame is dropped when POS leaves its page, and the translation when the row leaves that of the
translation (R121; log entry 118). -/
def State.moveStream (s : State) (d : Stream) (p : BitVec 32) : Stream :=
  let row := s.rowAt d p
  { d with pos := p, page := d.page.filter fun g => row.any fun a => g.covers g.asid a.toNat,
           frame := d.frame.filter fun f => f.1 == p.toNat / 16 }

/-- Drop every cached frame of the sequencer: any kv trigger, and an acquire (R121, R218). -/
def Seq.dropFrames (x : Seq) : Seq := { x with streams := x.streams.map fun e => (e.1, { e.2 with frame := none }) }

/-- The cached frame, where it holds the page of POS and the open choice uses it (R121). -/
def Stream.known (d : Stream) (s : State) : Option Nat :=
  match d.frame with
  | some (p, f) => if p = d.pos.toNat / 16 && Config.coin s.choices then some f else none
  | none => none

/-- The row address, with the frame it lies in for mode 1 (R121). -/
def State.streamRow (s : State) (d : Stream) : Except KvFail (Word × Option (KvDesc × Nat)) :=
  if d.mode = 0 then .ok (BitVec.ofNat 64 d.base.toNat + BitVec.ofNat 64 d.pos.toNat * d.rstride, none)
  else
    (s.kvFrame s.cur.core s.cur.q d.kvseq.toNat d.pos.toNat d.base.toNat d.rstride.toNat (d.known s)).map fun r =>
      (frameRow d.base.toNat d.rstride r.2 d.pos.toNat, some r)

/-- A KV trap of a stream drops its cached frame (R290). -/
def streamTrap (st : State) (n : Nat) (e : KvFail) : SlotRes :=
  match e with
  | .access .. | .miss _ | .need .. => kvTrap st e
  | .fault .. => kvTrap (st.modMe fun x => x.setStream n { x.stream n with frame := none }) e

/-- The page that the stream keeps for its row (R121). -/
def Stream.keepPage (d : Stream) (x : Seq) (row : Nat) : Option Page :=
  match d.page with
  | some p => if p.covers x.asid row then some p else x.tlbHit row
  | none => x.tlbHit row

/-- The stream as an access leaves it: its caches, and POS advanced when t[3] is 1 (R120, R122). -/
def Stream.after (d : Stream) (s : State) (row : Nat) (fr : Option (KvDesc × Nat)) (adv : Bool) : Stream :=
  let e : Stream := { d with page := d.keepPage s.me row, frame := fr.map fun r => (d.pos.toNat / 16, r.2) }
  if adv then s.moveStream e (d.pos + 1) else e

/-- Resolve an address through the stream's cached translation, or the TLB (R121). -/
def resolveStream (st : State) (d : Stream) (r : Right) (va : Nat) : Where :=
  match d.page with
  | some p => if p.covers st.me.asid va then p.resolve st r va else st.resolve st.cur.core st.cur.q r va
  | none => st.resolve st.cur.core st.cur.q r va

/-- Check every byte of the row's runs (R103, R120). -/
def checkRuns (st : State) (d : Stream) (r : Right) (runs : List (Nat × Nat)) (f : List (Loc × Nat) → SlotRes) : SlotRes :=
  let ps := (runs.map cutRun).flatten
  let ws := ps.map fun p => (p, resolveStream st d r p.1)
  let failing := fun (c : Cause) => ws.find? fun w => w.2 == .trap c
  match ws.find? fun w => w.2 == .miss with
  | some w => .freeze (.walk st.me.asid (w.1.1 / 65536 * 65536))
  | none =>
    match failing .translation, failing .protection, failing .scratchBounds with
    | some w, _, _ => .trap .translation (BitVec.ofNat 64 w.1.1) none st
    | _, some w, _ => .trap .protection (BitVec.ofNat 64 w.1.1) none st
    | _, _, some w => .trap .scratchBounds (BitVec.ofNat 64 w.1.1) none st
    | _, _, _ => f (ws.filterMap fun w => match w.2 with | .at l => some (l, w.1.2) | _ => none)

/-- The checks that `ag.sld` and `ag.sst` begin with (R120, R122). -/
def streamStart (t : Word) (st : State) (f : Nat → Stream → Word × Option (KvDesc × Nat) → State → SlotRes) : SlotRes :=
  let n := bits t.toNat 2 0
  let d := st.me.stream n
  if !d.valid || (d.mode = 0 && d.rows.toNat ≤ d.pos.toNat) then .plain .shapeRecord st
  else match st.streamRow d with
    | .error e => streamTrap st n e
    | .ok r => f n d r { st with choices := st.choices + 1 }

def State.setStream (st : State) (n : Nat) (d : Stream) : State := st.modMe fun x => x.setStream n d

/-- A row of a stream into the load queue (R120). -/
def streamLoad (t : Word) (st : State) : SlotRes :=
  streamStart t st fun n d row st =>
    withLoadRoom st
      (let runs := rowRuns d.fmt.toNat d.cols.toNat row.1 d.sstride
       let lines := ((runs.map cutRun).flatten.map fun p => p.1 / 256).eraseDups
       if st.me.ports.lqb.getLsbD 16 && 1 < lines.length then .trap .misaligned row.1 none st
       else checkRuns st d .load runs fun ps =>
         withStamp st row.1.toNat (ps.map (·.1)) fun k =>
           .ok ((st.addLoad (.row d.fmt.toNat d.cols.toNat) .v (partsOf ps) k).setStream n
             (d.after st row.1.toNat row.2 (t.getLsbD 3))))

/-- The frame checks of a mode-1 store (R122, R290). -/
def storeFrame (st : State) (d : Stream) (row : Word × Option (KvDesc × Nat)) : Except KvFail Unit :=
  match row.2 with
  | some (k, f) => st.kvFrameCheck st.cur.core st.cur.q k f d.kvseq.toNat d.pos.toNat d.base.toNat d.rstride.toNat row.1.toNat
  | none => .ok ()

/-- The address of a stream's row into `sq.o` (R122). -/
def streamStore (t : Word) (st : State) : SlotRes :=
  streamStart t st fun n d row st =>
    match storeFrame st d row with
    | .error e => streamTrap st n e
    | .ok _ =>
      checkRuns st d .store (rowRuns d.fmt.toNat d.cols.toNat row.1 d.sstride) fun _ =>
        .ok ((st.modMe fun x => { x with ports := { x.ports with sqo := row.1 } }).setStream n
          (d.after st row.1.toNat row.2 (t.getLsbD 3)))

/-! ### Records (R115, R117) -/

/-- A record read at a virtual address enters the load queue, leaving nothing to pop; the bundle then
waits until it has been read (R117, R168). -/
def readRecord (va : Word) (st : State) (f : List Byte → SlotRes) : SlotRes :=
  match st.me.recordBuf with
  | some none => .plain .eccUncorrectable st
  | some (some b) => f b
  | none =>
    withLoadRoom st (checkOne st .load va.toNat 64 fun l =>
      let e := newLoad st.me (.record st.myCore.rfences) .s [.bytes l 64] none 0
      .wait .record (st.enterLoad { e with silent := true }))

/-- A stream register as a record sets it (R117). -/
def Shape.stream (d : Shape) : Stream :=
  { base := BitVec.ofNat 56 d.base, fmt := BitVec.ofNat 8 d.fmt, mode := BitVec.ofNat 8 d.mode, rows := BitVec.ofNat 16 d.rows,
    cols := BitVec.ofNat 8 d.cols, rstride := d.rstride, sstride := d.sstride, kvseq := BitVec.ofNat 16 d.kvseq,
    pos := BitVec.ofNat 32 d.pos, page := none, frame := none }

/-- One field of a stream (R118). -/
def Stream.setField (d : Stream) (s : State) (f : Nat) (w : Word) : Option Stream :=
  match f with
  | 0 => some { d.dropCache with base := w.truncate 56 }
  | 1 => some { d.dropCache with fmt := w.truncate 8 }
  | 2 => some { d.dropCache with mode := w.truncate 8 }
  | 3 => some { d.dropCache with rows := w.truncate 16 }
  | 4 => some { d.dropCache with cols := w.truncate 8 }
  | 5 => some { d.dropCache with rstride := w }
  | 6 => some { d.dropCache with sstride := w }
  | 7 => some { d.dropCache with kvseq := w.truncate 16 }
  | 8 => some (s.moveStream d (w.truncate 32))
  | _ => none

/-- AG_SLD (R120). -/
def semAgSld (g : BitVec 7) (s : BitVec 12) : Sem :=
  trigS g s streamLoad
def execAgSld (g : BitVec 7) (s : BitVec 12) (st : State) : Out := runSlot (semAgSld g s) st

/-- AG_SST (R122). -/
def semAgSst (g : BitVec 7) (s : BitVec 12) : Sem :=
  trigS g s streamStore
def execAgSst (g : BitVec 7) (s : BitVec 12) (st : State) : Out := runSlot (semAgSst g s) st

/-- AG_SRLD (R117). -/
def semAgSrld (g : BitVec 7) (s : BitVec 12) : Sem :=
  trigS g s fun t st => readRecord st.me.ports.ago st fun b =>
    if recordValid b then .ok (st.setStream (bits t.toNat 2 0) (parseShape b).stream) else .plain .shapeRecord st
def execAgSrld (g : BitVec 7) (s : BitVec 12) (st : State) : Out := runSlot (semAgSrld g s) st

/-- AG_SSET (R118). -/
def semAgSset (g : BitVec 7) (s : BitVec 12) : Sem :=
  trigS g s fun t st =>
    let n := bits t.toNat 2 0
    match (st.me.stream n).setField st (bits t.toNat 7 4) st.me.ports.ago with
    | some d => .ok (st.setStream n d)
    | none => .plain .shapeRecord st
def execAgSset (g : BitVec 7) (s : BitVec 12) (st : State) : Out := runSlot (semAgSset g s) st

/-- AG_SADV (R119). -/
def semAgSadv (g : BitVec 7) (s : BitVec 12) : Sem :=
  trigS g s fun t st =>
    let n := bits t.toNat 2 0
    let d := st.me.stream n
    .ok (st.setStream n (st.moveStream d (d.pos + st.me.ports.ago.truncate 32)))
def execAgSadv (g : BitVec 7) (s : BitVec 12) (st : State) : Out := runSlot (semAgSadv g s) st

/-- AG_RFENCE (R123). -/
def semAgRfence (g : BitVec 7) (s : BitVec 12) : Sem :=
  trigS g s fun _ st =>
    .ok (st.modMyCore fun k => { k with rfences := k.rfences ++ [(st.cur.q, st.me.epoch)] }).marker
def execAgRfence (g : BitVec 7) (s : BitVec 12) (st : State) : Out := runSlot (semAgRfence g s) st

end Sys2Proof.Machine
end

