-- ==== Sys2Proof/Machine/Sync.lean ====
section
/-! DEFINITION. The sy unit and the circuits (R213 to R232): what their triggers check and queue. -/
namespace Sys2Proof.Machine

/-! ### Scopes and markers (R102, R213) -/

/-- The scope in `sy.p`[2:0]; 6 and 7 are taken as 5 (R213). -/
def scopeOf (syp : Word) : Nat := min (bits syp.toNat 2 0) 5

/-- An operation that places a marker stands between the accesses before it and those after it. -/
def State.marked (st : State) (f : State → State) : State := (f st.marker).marker

/-- A release or arrival of a scope publishes a signature (R217, R225). -/
def wideScope (scope : Nat) : Bool := 2 ≤ scope

/-- The signature that a release takes at its trigger, and RSIG after it (R217, R225). -/
def takeSig (scope : Nat) (x : Seq) : BitVec 1024 × Seq :=
  if wideScope scope then (x.rsig, { x with rsig := 0 }) else (0, x)

/-- The check of a release or an acquire: the scratchpad aperture is forbidden (R217, R218). -/
def syncPlace (st : State) (r : Right) (t : Word) (f : Nat → SlotRes) : SlotRes :=
  if t.toNat % 8 ≠ 0 then .trap .misaligned t none st
  else if inAperture t.toNat then .trap .protection t none st
  else checkAll st r [t.toNat] fun ls => match ls with
    | .mem pa :: _ => f pa
    | _ => .trap .protection t none st

/-! ### Atomics (R220, R221) -/

/-- An atomic enters both queues with a marker of its own (R96, R220). -/
def atomicTrigger (op : AtomicOp) (t : Word) (st : State) : SlotRes :=
  withStoreRoom st (withLoadRoom st (checkOne st .atomic t.toNat 8 fun l =>
    let x := st.me
    .ok ((st.signLocs [l]).marked fun st =>
      (st.addLoad (.atomic op x.ports.syo x.ports.syp) .s [.bytes l 8] none).addStore .atomic [])))

/-! ### Release and acquire (R217, R218) -/

def releaseTrigger (t : Word) (st : State) : SlotRes :=
  withStoreRoom st (syncPlace st .store t fun pa =>
    let x := st.me
    let r := takeSig (scopeOf x.ports.syp) x
    let st := st.setMe (r.2.sign (lineBit pa))
    .ok (st.marked fun st => st.addStore (.release pa x.ports.syo r.1 (scopeOf x.ports.syp)) []))

def acquireTrigger (t : Word) (st : State) : SlotRes :=
  let st := st.modMe Seq.dropFrames
  withLoadRoom st (syncPlace st .load t fun pa =>
    .ok (st.marked fun st => st.addLoad (.acquire (scopeOf st.me.ports.syp)) .s [.bytes (.mem pa) 8] none))

/-! ### Barriers (R224 to R227) -/

/-- `sy.bget` is an atomic: it enters both queues (R96, R224). -/
def barrierGet (t : Word) (st : State) : SlotRes :=
  withStoreRoom st (withLoadRoom st (.ok (st.marked fun st =>
    (st.addLoad (.bget (bits t.toNat 15 0)) .s [] none).addStore .atomic [])))

/-- A handle is 32 bits (R223). -/
def handleOf (t : Word) : Word := t &&& 0xFFFFFFFF

def barrierArrive (t : Word) (st : State) : SlotRes :=
  withStoreRoom st
    (let r := takeSig (scopeOf st.me.ports.syp) st.me
     .ok ((st.setMe r.2).marked fun st => st.addStore (.arrival (handleOf t) r.1 (scopeOf st.me.ports.syp)) []))

def barrierWait (t : Word) (st : State) : SlotRes :=
  withLoadRoom st
    (let limit := bits st.me.ports.syo.toNat 31 0
     .ok (st.marked fun st => st.addLoad
       (.bwait (handleOf t) limit (st.clock + limit) (scopeOf st.me.ports.syp) none) .s [] none))

def barrierFree (t : Word) (st : State) : SlotRes :=
  withStoreRoom st (.ok (st.marked fun st => st.addStore (.bfree (handleOf t)) []))

/-! ### Supersteps and child launches (R228, R232) -/

def superstep (st : State) : SlotRes :=
  if st.me.stepDone then .ok (st.modMe fun x => { x with stepDone := false }) else .wait .sstep st

/-- The vector is read when the spawn is performed (R232). -/
def spawnTrigger (t : Word) (st : State) : SlotRes :=
  withStoreRoom st (checkOne st .load t.toNat 64 fun l =>
    let r := takeSig 4 st.me
    .ok ((st.setMe r.2).marked fun st => st.addStore (.spawn r.1) [{ loc := l, bytes := [] }]))

/-! ### Circuits (R230, R231) -/

/-- The cores of the issuing sequencer's launch, by position. -/
def State.members (st : State) : List Nat :=
  match st.myCore.launch with
  | some id => match st.launch id with | some l => l.cores | none => []
  | none => []

/-- The send buffer has room, or the bundle freezes (R230). -/
def withSendRoom (st : State) (f : SlotRes) : SlotRes := if st.myCore.sends.length < 8 then f else .freeze .sendRoom

/-- A send enters the buffer, with its place among what its sequencer triggers (R212, R230). -/
def State.pushSend (st : State) (s : Send) : State :=
  (st.noteCircuit.modMyCore fun k => { k with sends := k.sends ++ [{ send := s, q := st.cur.q, order := st.me.order, chain := st.me.chain }] }).modMe
    fun x => { x with order := x.order + 1 }

/-- Guarded-off lanes carry 0; a position past the last core traps with address 0 (R230; log entry 135). -/
def sendVector (m : Word) (t : Vec) (st : State) : SlotRes :=
  withSendRoom st
    (match st.members[bits st.myCore.cxo.toNat 15 0]? with
     | none => .plain .scratchBounds st
     | some c =>
       let v := mkVec fun i => if m.getLsbD i then lane t i else 0
       .ok (st.pushSend (.vector c v st.clock)))

/-- COUNT 0 does nothing, before every check (R231; log entry 67); the launch has used a circuit all the same (R278).
Its traps report address 0 (log entry 135). -/
def multicast (m : Word) (t : Vec) (st : State) : SlotRes :=
  let o := st.myCore.cxo.toNat
  let off := bits o 18 0
  let first := bits o 47 32
  let count := bits o 63 48
  if count = 0 then .ok st.noteCircuit
  else withSendRoom st
    (if off % 256 ≠ 0 then .plain .misaligned st
     else if st.myCore.spadBytes < off + 256 || st.members.length < first + count then .plain .scratchBounds st
     else .ok (st.pushSend (.multicast off first count m t st.clock)))

/-- SY_AADD (R220). -/
def semSyAadd (g : BitVec 7) (s : BitVec 12) : Sem :=
  trigS g s (atomicTrigger .aadd)
def execSyAadd (g : BitVec 7) (s : BitVec 12) (st : State) : Out := runSlot (semSyAadd g s) st

/-- SY_AMIN (R220). -/
def semSyAmin (g : BitVec 7) (s : BitVec 12) : Sem :=
  trigS g s (atomicTrigger .amin)
def execSyAmin (g : BitVec 7) (s : BitVec 12) (st : State) : Out := runSlot (semSyAmin g s) st

/-- SY_AMAX (R220). -/
def semSyAmax (g : BitVec 7) (s : BitVec 12) : Sem :=
  trigS g s (atomicTrigger .amax)
def execSyAmax (g : BitVec 7) (s : BitVec 12) (st : State) : Out := runSlot (semSyAmax g s) st

/-- SY_AMINN (R220). -/
def semSyAminn (g : BitVec 7) (s : BitVec 12) : Sem :=
  trigS g s (atomicTrigger .aminn)
def execSyAminn (g : BitVec 7) (s : BitVec 12) (st : State) : Out := runSlot (semSyAminn g s) st

/-- SY_AMAXN (R220). -/
def semSyAmaxn (g : BitVec 7) (s : BitVec 12) : Sem :=
  trigS g s (atomicTrigger .amaxn)
def execSyAmaxn (g : BitVec 7) (s : BitVec 12) (st : State) : Out := runSlot (semSyAmaxn g s) st

/-- SY_AAND (R220). -/
def semSyAand (g : BitVec 7) (s : BitVec 12) : Sem :=
  trigS g s (atomicTrigger .aand)
def execSyAand (g : BitVec 7) (s : BitVec 12) (st : State) : Out := runSlot (semSyAand g s) st

/-- SY_AOR (R220). -/
def semSyAor (g : BitVec 7) (s : BitVec 12) : Sem :=
  trigS g s (atomicTrigger .aor)
def execSyAor (g : BitVec 7) (s : BitVec 12) (st : State) : Out := runSlot (semSyAor g s) st

/-- SY_AXOR (R220). -/
def semSyAxor (g : BitVec 7) (s : BitVec 12) : Sem :=
  trigS g s (atomicTrigger .axor)
def execSyAxor (g : BitVec 7) (s : BitVec 12) (st : State) : Out := runSlot (semSyAxor g s) st

/-- SY_ASWP (R220). -/
def semSyAswp (g : BitVec 7) (s : BitVec 12) : Sem :=
  trigS g s (atomicTrigger .aswp)
def execSyAswp (g : BitVec 7) (s : BitVec 12) (st : State) : Out := runSlot (semSyAswp g s) st

/-- SY_ACAS (R220). -/
def semSyAcas (g : BitVec 7) (s : BitVec 12) : Sem :=
  trigS g s (atomicTrigger .acas)
def execSyAcas (g : BitVec 7) (s : BitVec 12) (st : State) : Out := runSlot (semSyAcas g s) st

/-- SY_AINCB (R220). -/
def semSyAincb (g : BitVec 7) (s : BitVec 12) : Sem :=
  trigS g s (atomicTrigger .aincb)
def execSyAincb (g : BitVec 7) (s : BitVec 12) (st : State) : Out := runSlot (semSyAincb g s) st

/-- SY_ACQ (R218). -/
def semSyAcq (g : BitVec 7) (s : BitVec 12) : Sem :=
  trigS g s acquireTrigger
def execSyAcq (g : BitVec 7) (s : BitVec 12) (st : State) : Out := runSlot (semSyAcq g s) st

/-- SY_REL (R217). -/
def semSyRel (g : BitVec 7) (s : BitVec 12) : Sem :=
  trigS g s releaseTrigger
def execSyRel (g : BitVec 7) (s : BitVec 12) (st : State) : Out := runSlot (semSyRel g s) st

/-- SY_BGET (R224). -/
def semSyBget (g : BitVec 7) (s : BitVec 12) : Sem :=
  trigS g s barrierGet
def execSyBget (g : BitVec 7) (s : BitVec 12) (st : State) : Out := runSlot (semSyBget g s) st

/-- SY_BARV (R225). -/
def semSyBarv (g : BitVec 7) (s : BitVec 12) : Sem :=
  trigS g s barrierArrive
def execSyBarv (g : BitVec 7) (s : BitVec 12) (st : State) : Out := runSlot (semSyBarv g s) st

/-- SY_BWAIT (R226). -/
def semSyBwait (g : BitVec 7) (s : BitVec 12) : Sem :=
  trigS g s barrierWait
def execSyBwait (g : BitVec 7) (s : BitVec 12) (st : State) : Out := runSlot (semSyBwait g s) st

/-- SY_BFREE (R227). -/
def semSyBfree (g : BitVec 7) (s : BitVec 12) : Sem :=
  trigS g s barrierFree
def execSyBfree (g : BitVec 7) (s : BitVec 12) (st : State) : Out := runSlot (semSyBfree g s) st

/-- SY_SSTEP (R228). -/
def semSySstep (g : BitVec 7) (s : BitVec 12) : Sem :=
  trigS g s fun _ st => superstep st
def execSySstep (g : BitVec 7) (s : BitVec 12) (st : State) : Out := runSlot (semSySstep g s) st

/-- SY_SPAWN (R232). -/
def semSySpawn (g : BitVec 7) (s : BitVec 12) : Sem :=
  trigS g s spawnTrigger
def execSySpawn (g : BitVec 7) (s : BitVec 12) (st : State) : Out := runSlot (semSySpawn g s) st

/-- CX_SEND (R230). -/
def semCxSend (g : BitVec 7) (s : BitVec 12) : Sem :=
  leased .cx (trigV g s sendVector)
def execCxSend (g : BitVec 7) (s : BitVec 12) (st : State) : Out := runSlot (semCxSend g s) st

/-- CX_MCST (R231). -/
def semCxMcst (g : BitVec 7) (s : BitVec 12) : Sem :=
  leased .cx (trigV g s multicast)
def execCxMcst (g : BitVec 7) (s : BitVec 12) (st : State) : Out := runSlot (semCxMcst g s) st

end Sys2Proof.Machine
end

