-- ==== Sys2Proof/Machine/Trestle.lean ====
section
/-! DEFINITION. Trestle (R295 to R306): the replica table, the windows, plans and their publication, and what
it answers to the ep operations. -/
namespace Sys2Proof.Machine

/-! ### The replica table (R296) -/

def State.modTrestle (s : State) (f : Trestle → Trestle) : State := { s with trestle := f s.trestle }

/-- The slot record's address (R296). -/
def Trestle.recordVa (t : Trestle) (p sl : Nat) : Nat := t.tbase + 64 * p + 16 * sl

/-- Bytes of Trestle's address space, where they are mapped (R295). -/
def State.trestleRead (s : State) (va n : Nat) : Option (List Byte) :=
  match s.resolveIn s.trestle.asid .load va with
  | .at (.mem pa) => some (s.readMem pa n)
  | _ => none

def State.trestleWrite (s : State) (va : Nat) (bs : List Byte) : State :=
  match s.resolveIn s.trestle.asid .store va with
  | .at (.mem pa) => (s.mergeRun pa bs).noteAgent trestleParty pa (bs.map some)
  | _ => s

/-- A slot record; where it is not mapped, its bytes are undefined. -/
def State.slotRecord (s : State) (p sl : Nat) : List Byte × State :=
  match s.trestleRead (s.trestle.recordVa p sl) 16 with
  | some b => (b, s)
  | none => s.freshBytes 16

/-- The die of a slot (R296). -/
def State.slotDie (s : State) (p sl : Nat) : Nat := field (s.slotRecord p sl).1 8 1 % 4
def State.slotBase (s : State) (p sl : Nat) : Nat := field (s.slotRecord p sl).1 0 7

def Trestle.slot (t : Trestle) (p sl : Nat) : Slot := mapGet Slot.init t.slots (4 * p + sl)
def Trestle.setSlot (t : Trestle) (p sl : Nat) (x : Slot) : Trestle := { t with slots := mapSet Slot.init t.slots (4 * p + sl) x }

/-- The state of a slot: the master is live (R296). -/
def Trestle.stateOf (t : Trestle) (p sl : Nat) : SlotState := if sl = 0 then .live else (t.slot p sl).state

def SlotState.ofCode : Nat → SlotState
  | 1 => .live
  | 2 => .retiring
  | 3 => .copying
  | _ => .absent
def SlotState.code : SlotState → Nat
  | .absent => 0
  | .live => 1
  | .retiring => 2
  | .copying => 3

def satAdd (a b : Nat) : Nat := min (a + b) (2 ^ 32 - 1)

/-- The smallest by a measure, ties to the first. -/
def pickLeast {α : Type} (f : α → Nat) : List α → Option α
  | [] => none
  | x :: xs => match pickLeast f xs with
    | some y => some (if f y < f x then y else x)
    | none => some x

/-- The live slots of a pair. -/
def Trestle.liveSlots (t : Trestle) (p : Nat) : List Nat := (List.range 4).filter fun sl => t.stateOf p sl == .live

/-! ### Events (R295) -/

/-- Log an event of a kind; the bytes that R295 does not name are undefined. -/
def State.logEvent (s : State) (p sl kind : Nat) : State :=
  let t := s.trestle
  let rest := s.freshBytes 8
  let s := rest.2
  let b := natBytes 4 t.version ++ natBytes 2 p ++ natBytes 1 sl ++ natBytes 1 kind ++ rest.1
  let s := if t.logbase = 0 then s else s.trestleWrite (t.logbase + 16 * (t.events % 256)) b
  s.modTrestle fun t => { t with events := (t.events + 1) % 2 ^ 32 }

/-! ### Counts and rows (R294, R299, R301) -/

/-- The counts that have arrived join the window's (R294). -/
def State.arriveCount (s : State) : State :=
  match s.trestle.arriving with
  | [] => s
  | (p, n) :: rest => s.modTrestle fun t =>
    { t with
      arriving := rest
      loads := if t.en then mapSet 0 t.loads p (satAdd (mapGet 0 t.loads p) n) else t.loads }

/-- Rows in flight to a slot (R299). -/
def Trestle.addFlight (t : Trestle) (p sl n : Nat) (dispatch : Bool) : Trestle :=
  let x := t.slot p sl
  t.setSlot p sl { x with inflight := satAdd x.inflight n, dispatched := if dispatch then satAdd x.dispatched n else x.dispatched }
def Trestle.subFlight (t : Trestle) (p sl n : Nat) : Trestle :=
  let x := t.slot p sl
  t.setSlot p sl { x with inflight := x.inflight - min n x.inflight }

/-- The entry of an `ep.rep` (R299).  With OK 0 the fields of the returned slot are undefined. -/
def repLanes (base version sl die : Nat) (ok : Bool) : Vec :=
  mkVec fun i => match i with
    | 0 => BitVec.ofNat 32 base
    | 1 => BitVec.ofNat 32 (base / 2 ^ 32)
    | 2 => BitVec.ofNat 32 version
    | 3 => BitVec.ofNat 32 (sl % 4 + die % 4 * 4 + if ok then 16 else 0)
    | _ => 0

def State.repFailed (s : State) : Vec × State :=
  let w := s.freshWord
  let v := w.2.freshWord
  (repLanes w.1.toNat s.trestle.version v.1.toNat (v.1.toNat / 4) false, v.2)

/-- The slot that a served row goes to. -/
def State.repTo (s : State) (p sl : Nat) : Vec × State :=
  let r := s.slotRecord p sl
  (repLanes (field r.1 0 7) s.trestle.version sl (field r.1 8 1) true, r.2)

/-- Serve an `ep.rep` of a core on die `d` (R299). -/
def State.serveRep (s : State) (d : Nat) (w : Word) : Vec × State :=
  let t := s.trestle
  let p := bits w.toNat 15 0
  let rows := if bits w.toNat 23 16 = 0 then 1 else bits w.toNat 23 16
  if !t.en then s.repFailed
  else if !bitAt w.toNat 24 then
    let live := t.liveSlots p
    let here := live.find? fun sl => s.slotDie p sl == d
    let sl := match here with
      | some sl => sl
      | none => (pickLeast (fun sl => (t.slot p sl).inflight) live).getD 0
    (s.modTrestle fun t => t.addFlight p sl rows true).repTo p sl
  else
    let sl := bits w.toNat 26 25
    match t.stateOf p sl with
    | .live => s.repTo p sl
    | .retiring =>
      let dst := (t.slot p sl).redir
      (s.modTrestle fun t => (t.subFlight p sl rows).addFlight p dst rows false).repTo p dst
    | _ => (s.logEvent p sl 5).repFailed

/-- A row ends (R301). -/
def State.endRow (s : State) (w : Word) : State :=
  let p := bits w.toNat 15 0
  let sl := bits w.toNat 17 16
  if (s.trestle.slot p sl).inflight = 0 then s.logEvent p sl 3
  else s.modTrestle fun t => t.subFlight p sl 1

/-! ### Windows and plans (R297) -/

/-- Pairs that an action can name: those with a count or a slot of their own. -/
def Trestle.pairs (t : Trestle) : List Nat :=
  (t.slots.foldl (fun (m : NMap Bool) e => mapInsert (e.1 / 4) true m) (t.loads.map fun e => (e.1, true))).map (·.1)

/-- Dispatches of the window to the slots on a die (R297). -/
def State.dieDispatches (s : State) (d : Nat) : Nat :=
  s.trestle.slots.foldl (fun n e => if s.slotDie (e.1 / 4) (e.1 % 4) = d then n + e.2.dispatched else n) 0

/-- The slot to copy for a pair, if its count calls for one (R297). -/
def State.toReplicate (s : State) (counts : NMap Nat) (p : Nat) : Option Nat :=
  let t := s.trestle
  if mapGet 0 counts p ≤ t.hi then none
  else pickLeast (fun sl => s.dieDispatches (s.slotDie p sl)) ([1, 2, 3].filter fun sl => t.stateOf p sl == .absent)

/-- The slot to retire for a pair, with the slot that takes its rows (R297). -/
def State.toRetire (s : State) (counts : NMap Nat) (p : Nat) : Option (Nat × Nat) :=
  let t := s.trestle
  if t.tune || t.lo ≤ mapGet 0 counts p then none
  else match pickLeast (fun sl => (t.slot p sl).dispatched) ([3, 2, 1].filter fun sl => t.stateOf p sl == .live) with
    | none => none
    | some sl =>
      (pickLeast (fun r => (t.slot p r).inflight) ((t.liveSlots p).filter (· != sl))).map fun r => (sl, r)

/-- The plan, pair by pair, at most 64 actions (R297). -/
def State.formPlan (s : State) (counts : NMap Nat) : List Nat → Plan → Plan
  | [], pl => pl
  | p :: ps, pl =>
    let room := fun (pl : Plan) => pl.copies.length + pl.retires.length < 64
    if s.trestle.grads.contains p then s.formPlan counts ps pl
    else
      let pl := match s.toReplicate counts p with
        | some sl => if room pl then { pl with copies := pl.copies ++ [(p, sl)] } else pl
        | none => pl
      let pl := match s.toRetire counts p with
        | some r => if room pl then { pl with retires := pl.retires ++ [(p, r.1, r.2)] } else pl
        | none => pl
      s.formPlan counts ps pl

/-- The end of a window (R297): the next one has the WIN of now (log entry 145). -/
def State.endWindow (s : State) : State :=
  let t := s.trestle
  if t.en && t.windowEnd ≤ s.clock then
    let counts := t.loads
    let s := if t.plan.isSome then
        let w := s.freshWord
        w.2.logEvent (w.1.toNat % 65536) (w.1.toNat / 65536 % 256) 4
      else
        let pl := s.formPlan counts t.pairs { copies := [], retires := [] }
        s.modTrestle fun t =>
          { pl.copies.foldl (fun t e => t.setSlot e.1 e.2 { t.slot e.1 e.2 with state := .copying }) t with
            plan := if pl.copies.isEmpty && pl.retires.isEmpty then none else some pl }
    s.modTrestle fun t =>
      { t with loads := [], slots := (t.slots.map fun e => (e.1, { e.2 with dispatched := 0 })).filter (fun e => decide (e.2 ≠ Slot.init)),
               windowEnd := t.windowEnd + 2 ^ t.win }
  else s

/-! ### Publication (R298, R303) -/

/-- Store STATE and REDIR of a slot in the table (R296, R298, R303). -/
def State.mirror (s : State) (p sl : Nat) (st : SlotState) (redir : Nat) : State :=
  (s.trestleWrite (s.trestle.recordVa p sl + 7) (natBytes 1 st.code)).trestleWrite (s.trestle.recordVa p sl + 9) (natBytes 1 redir)

/-- Lines of a slot's weights (R296). -/
def State.weightLines (s : State) (p : Nat) : Nat := field (s.slotRecord p 0).1 12 4 * 256

/-- The places of a line of the master and of its copy, in Trestle's address space; none where one fails to translate, or
a link to it is down (R298, R319). -/
def State.copyPlaces (s : State) (p sl line : Nat) : Option (Nat × Nat) :=
  match s.resolveIn s.trestle.asid .load (s.slotBase p 0 + 256 * line), s.resolveIn s.trestle.asid .store (s.slotBase p sl + 256 * line) with
  | .at (.mem a), .at (.mem b) => if s.cut (s.slotDie p 0) a || s.cut (s.slotDie p 0) b then none else some (a, b)
  | _, _ => none

/-- Copy a line; none when that fails, or the source is poisoned (R298). -/
def State.copyLine (s : State) (p sl line : Nat) : Option State :=
  match s.copyPlaces p sl line with
  | some (a, b) => if s.poisonedAt a 256 then none else
    let bs := (s.readMem a 256).map some
    some ((s.mergeHome b bs).noteAgent trestleParty b bs)
  | none => none

/-- A line of the copy, read back, equals the source (R298). -/
def State.verifyLine (s : State) (p sl line : Nat) : Bool :=
  match s.copyPlaces p sl line with
  | some (a, b) => !s.poisonedAt a 256 && !s.poisonedAt b 256 && s.readMem a 256 == s.readMem b 256
  | none => false

/-! ### Residency ways (R305) -/

/-- A line lies in the weight range of a slot. -/
def State.slotHolds (s : State) (p sl line : Nat) : Bool :=
  (List.range (s.weightLines p / 256)).any fun i => match s.resolveIn s.trestle.asid .load (s.slotBase p sl + 65536 * i) with
    | .at (.mem pa) => pa / 65536 == line / 256
    | _ => false

/-- The pair whose weights a line holds, in a live or retiring slot or the master. -/
def State.weightPair (s : State) (line : Nat) : Option Nat :=
  (List.range 65536).find? fun p => (List.range 4).any fun sl =>
    (s.trestle.stateOf p sl == .live || s.trestle.stateOf p sl == .retiring) && s.slotHolds p sl line

/-- The way that a line is filled into: the lowest empty one of its set, else that of the line whose pair has the least
count in the window, and of those the least recently used. -/
def Die.residentWay (x : Die) (t : Trestle) (ways line : Nat) : Option Resident × Nat :=
  let mine := x.residents.filter fun r => sameSet r.line line
  match (List.range ways).find? fun w => !(mine.any fun r => r.way == w) with
  | some w => (none, w)
  | none =>
    let least := pickLeast (fun (r : Resident) => mapGet 0 t.loads r.pair) mine
    let among := mine.filter fun r => some (mapGet 0 t.loads r.pair) == least.map fun l => mapGet 0 t.loads l.pair
    match pickLeast (·.used) among with
    | some v => (some v, v.way)
    | none => (none, 0)

/-- The dirty sectors of a line reach HBM. -/
def State.cleanLine (s : State) (line : Nat) : State := { s with dirty := s.dirty.filter fun e => e.1 / 8 != line }

/-- Lines leave the residency ways of a die, written back. -/
def State.dropResidents (s : State) (d : Nat) (p : Resident → Bool) : State :=
  (((s.die d).residents.filter p).foldl (fun s r => s.cleanLine r.line) s).modDie d fun x => { x with residents := x.residents.filter fun r => !p r }

/-- A use of a line at its home: one that holds weights is filled into a residency way, and its victim written back. -/
def State.useLine (s : State) (d line : Nat) : State :=
  let x := s.die d
  match x.residents.find? fun r => r.line == line with
  | some _ => s.modDie d fun x => { x with residents := x.residents.map fun (r : Resident) => if r.line = line then { r with used := s.clock } else r }
  | none => match s.weightPair line with
    | none => s
    | some p =>
      let v := x.residentWay s.trestle (s.trestle.res.getD d 0) line
      (s.dropResidents d fun r => v.1 == some r).modDie d fun x =>
        { x with residents := { line := line, way := v.2, pair := p, used := s.clock } :: x.residents }

/-- The lines used since the last time take their places. -/
def State.settleUses (s : State) : State :=
  (s.dies.map (·.1)).foldl (fun s d =>
    ((s.die d).homeUses.foldl (fun s l => s.useLine d l) s).modDie d fun x => { x with homeUses := [] }) s

/-- The storage of a slot whose plan was abandoned holds undefined bytes (R298). -/
def State.spoilSlot (s : State) (p sl : Nat) : State :=
  (List.range (field (s.slotRecord p 0).1 12 4)).foldl (fun s i =>
    let f := s.freshBytes 65536
    f.2.trestleWrite (s.slotBase p sl + 65536 * i) f.1) s

/-- A slot becomes absent, and its lines leave the residency ways (R298, R303, R305). -/
def State.dropSlot (s : State) (p sl : Nat) : State :=
  let s := s.settleUses
  let t := s.modTrestle fun t => t.setSlot p sl { t.slot p sl with state := .absent }
  (List.range 4).foldl (fun t d => t.dropResidents d fun r => r.pair == p && s.slotHolds p sl r.line) t

/-- A copy has failed or differs: nothing of the plan is published (R298). -/
def State.abandonPlan (s : State) (pl : Plan) : State :=
  let s := pl.copies.foldl (fun s e => (s.spoilSlot e.1 e.2).dropSlot e.1 e.2) s
  let s := s.modTrestle fun t => { t with plan := none }
  pl.failed.foldl (fun s e => s.logEvent e.1 e.2.1 e.2.2) s

/-- The new table is in force (R298 step 3). -/
def Trestle.switch (t : Trestle) (pl : Plan) : Trestle :=
  let t := pl.copies.foldl (fun t e => t.setSlot e.1 e.2 { t.slot e.1 e.2 with state := .live }) t
  let t := pl.retires.foldl (fun t e => t.setSlot e.1 e.2.1 { t.slot e.1 e.2.1 with state := .retiring, redir := e.2.2 }) t
  { t with version := (t.version + 1) % 2 ^ 32, plan := none }

/-- The records that a publication mirrors, in the order it stores them (R298 step 1). -/
def Plan.mirrored (pl : Plan) : List (Nat × Nat × SlotState × Nat) :=
  (pl.copies.map fun e => (e.1, e.2, .live, 0)) ++ pl.retires.map fun e => (e.1, e.2.1, .retiring, e.2.2)

/-- The next step of a plan (R298): a line copied, or read back; once every copy has ended, the plan is abandoned, or its
records are mirrored one by one.  No register names the word of the release of step 2; the mirrored words bear the
all-ones signature, as words without an entry do (R216; log entry 102). -/
def State.publish (s : State) : State :=
  match s.trestle.plan with
  | none => s
  | some pl =>
    let go := fun (s : State) (st : PlanStep) => s.modTrestle fun t => { t with plan := some { pl with step := st } }
    let fail := fun (i p sl kind : Nat) =>
      s.modTrestle fun t => { t with plan := some { pl with step := .copy (i + 1) 0, failed := pl.failed ++ [(p, sl, kind)] } }
    match pl.step with
    | .copy i line =>
      match pl.copies[i]? with
      | none => if pl.failed.isEmpty then go s (.mirror 0) else s.abandonPlan pl
      | some (p, sl) =>
        if s.weightLines p ≤ line then go s (.verify i 0)
        else match s.copyLine p sl line with
          | some s => go s (.copy i (line + 1))
          | none => fail i p sl 1
    | .verify i line =>
      match pl.copies[i]? with
      | none => go s (.copy i 0)
      | some (p, sl) =>
        if s.weightLines p ≤ line then go s (.copy (i + 1) 0)
        else if s.verifyLine p sl line then go s (.verify i (line + 1)) else fail i p sl 2
    | .mirror i =>
      match pl.mirrored[i]? with
      | none => go s .release
      | some (p, sl, st, redir) => go (s.mirror p sl st redir) (.mirror (i + 1))
    | .release => go (s.modTrestle fun t => { t with published := s.ownPast trestleParty }) .switch
    | .switch => s.modTrestle fun t => t.switch pl

/-- A retiring slot with no row in flight becomes absent (R303). -/
def State.retireSlot (s : State) (p sl : Nat) : State :=
  let x := s.trestle.slot p sl
  if sl ≠ 0 && x.state = .retiring && x.inflight = 0 then
    (s.dropSlot p sl).mirror p sl .absent x.redir
  else s

/-! ### Gradients (R304) -/

/-- Slots 1 to 3 whose gradients are merged. -/
def Trestle.gradSlots (t : Trestle) (p : Nat) : List Nat :=
  [1, 2, 3].filter fun sl => t.stateOf p sl == .live || t.stateOf p sl == .retiring

/-- Bytes of a gradient buffer (R304). -/
def State.gradBytes (s : State) (p : Nat) : Nat := field (s.slotRecord p 0).1 10 2 * 65536

/-- Every in-flight count of a pair is 0 (R304). -/
def Trestle.quiet (t : Trestle) (p : Nat) : Bool := (List.range 4).all fun sl => (t.slot p sl).inflight == 0

/-- One element of the master and of each slot. -/
def sumGrads (rm : RM) (g : Lane) (xs : List Lane) : Flagged Lane :=
  xs.foldl (fun a x => let r := f32Add rm a.1 x; (r.1, a.2 ||| r.2)) (g, 0)

/-- The place of a line of a slot's buffer (R304). -/
def State.gradPlace (s : State) (p goff line sl : Nat) : Option Nat :=
  match s.resolveIn s.trestle.asid .store (s.slotBase p sl + goff + 256 * line) with
  | .at (.mem pa) => some pa
  | _ => none

/-- The sectors of a line that are poisoned where it or a line merged into it is (R206). -/
def State.badSectors (s : State) (pas : List Nat) : List Nat :=
  (List.range 8).filter fun k => pas.any fun pa => mapGet false s.poison (pa / 32 + k)

/-- Merge one line of the buffers, for a sequencer of core `c`, whose own copies go: a line that is not mapped is left, and one that a link
loses raises LINK; poison goes into the sum (R206, R304, R319). -/
def State.mergeGradLine (s : State) (c q order p goff : Nat) (rm : RM) (line : Nat) : State × Flags :=
  match s.gradPlace p goff line 0 with
  | none => (s, 0)
  | some m =>
    let slots := (s.trestle.gradSlots p).filterMap (s.gradPlace p goff line)
    if (m :: slots).any (s.cut (s.slotDie p 0)) then (s.modSeq c q fun x => x.addPending .link, 0)
    else
      let word := fun (pa i : Nat) => BitVec.ofNat 32 (field (s.readMem pa 256) (4 * i) 4)
      let rs := (List.range 64).map fun i => sumGrads rm (word m i) (slots.map fun pa => word pa i)
      let bad := s.badSectors (m :: slots)
      let bs := (rs.map fun r => (natBytes 4 r.1.toNat).map some).flatten
      let t := (s.mergeDrop c m bs).noteStore c q order m bs
      ({ t with poison := bad.foldl (fun z k => mapInsert (m / 32 + k) true z) t.poison }, rs.foldl (fun f r => f ||| r.2) 0)

/-! ### Registers (R295) -/

/-- STATE and REDIR of a slot as the table holds them when Trestle is enabled; a slot that becomes absent so drops its
lines (R296, R305). -/
def State.loadSlot (s : State) (p sl : Nat) : State :=
  match s.trestleRead (s.trestle.recordVa p sl) 16 with
  | some b =>
    let st := SlotState.ofCode (field b 7 1)
    let s := if st = .absent && s.trestle.stateOf p sl ≠ .absent then s.dropSlot p sl else s
    s.modTrestle fun t => t.setSlot p sl { t.slot p sl with state := st, redir := field b 9 1 % 4 }
  | none => s

def State.loadSlots (s : State) : State :=
  (List.range 262144).foldl (fun s k => if k % 4 = 0 then s else s.loadSlot (k / 4) (k % 4)) s

/-- TCFG (R295). -/
def State.writeTcfg (s : State) (v : Word) : State :=
  let was := s.trestle.en
  let w := bits v.toNat 6 2
  let s := s.modTrestle fun t =>
    { t with en := v.getLsbD 0, tune := v.getLsbD 1, win := if 16 ≤ w && w ≤ 28 then w else t.win, asid := bits v.toNat 31 16 }
  if v.getLsbD 0 && !was then
    (s.loadSlots).modTrestle fun t => { t with windowEnd := s.clock + 2 ^ t.win }
  else s

/-- A field of TRES as a write leaves it (R295). -/
def State.tresField (s : State) (v : Word) (d old : Nat) : Nat :=
  let n := bits v.toNat (4 * d + 3) (4 * d)
  if 8 < n || 14 < n + (s.die d).remways then old else n

/-- TRES: each field is checked against REMWAYS of its die (R295); ways that leave the residency role drop their lines (R305). -/
def State.writeTres (s : State) (v : Word) : State :=
  let s := s.settleUses
  let s := s.modTrestle fun t => { t with res := t.res.mapIdx fun d n => s.tresField v d n }
  (List.range 4).foldl (fun s d => s.dropResidents d fun r => s.trestle.res.getD d 0 ≤ r.way) s

def State.writeTthr (s : State) (v : Word) : State := s.modTrestle fun t => { t with hi := bits v.toNat 31 0, lo := bits v.toNat 63 32 }
/-- TTAB (R295): TBASE as it is written (log entry 143). -/
def State.writeTtab (s : State) (v : Word) : State := s.modTrestle fun t => { t with tbase := bits v.toNat 55 0 }
def State.writeTlog (s : State) (v : Word) : State := s.modTrestle fun t => { t with logbase := bits v.toNat 55 0 }

end Sys2Proof.Machine
end

