-- ==== Sys2Proof/Machine/Experts.lean ====
section
/-! DEFINITION. The ep unit and `xk.kick`: what their triggers check and queue (R293, R294, R299, R301, R304,
R308, R309). -/
namespace Sys2Proof.Machine

/-! ### `ep.hist` (R294) -/

/-- Lanes that route to an expert and count (R294). -/
def routedTo (m : Word) (t : Vec) (e : Nat) : Nat :=
  ((List.range 64).filter fun i => m.getLsbD i && (lane t i).toNat == e).length

def histTrigger (m : Word) (t : Vec) (st : State) : SlotRes :=
  let o := st.myCore.epo.toNat
  let layer := bits o 7 0
  let e0 := bits o 15 8
  let ne := min (bits o 23 16) 32
  let tpr := if bits o 31 24 = 0 then 1 else bits o 31 24
  let cnt := fun (e : Nat) => if e < 256 then routedTo m t e else 0
  if Config.countEntries < st.me.countQueue.length + ne then .plain .loopOverflow st
  else
    let pushes := (List.range ne).map fun j => BitVec.ofNat 64 ((cnt (e0 + j) + tpr - 1) / tpr)
    let sent := ((List.range 256).filter fun e => cnt e != 0).map fun e => (layer * 256 + e, cnt e)
    let st := st.modMe fun x => { x with countQueue := x.countQueue ++ pushes }
    .ok (if st.trestle.en then st.modTrestle fun t => { t with arriving := t.arriving ++ sent } else st)

/-! ### `ep.rep`, `ep.done` (R299, R301) -/

def repTrigger (t : Word) (st : State) : SlotRes :=
  withLoadRoom st (.ok (st.addLoad (.epRep t) .v [] none))

/-- The trigger value as its entry keeps it: bit 24, which the operation ignores, says that there is a tag test. -/
def doneValue (t : Word) (tag : Bool) : Word := (t &&& ~~~(0x1000000 : Word)) ||| (if tag then 0x1000000 else 0)

def doneTrigger (t : Word) (st : State) : SlotRes :=
  if st.myCore.epo = 0 then
    withLoadRoom st (.ok (st.marked fun st => st.addLoad (.epDone (doneValue t false)) .s [] none))
  else
    withStoreRoom st (withLoadRoom st
      (checkOne st .atomic (st.myCore.epo + BitVec.ofNat 64 (8 * (bits t.toNat 63 32 / 64))).toNat 8 fun l =>
         .ok ((st.signLocs [l]).marked fun st =>
           (st.addLoad (.epDone (doneValue t true)) .s [.bytes l 8] none).addStore .atomic [])))

/-! ### `ep.grad` (R304) -/

/-- The lines of the buffers that a merge reads or writes, the master's first (R304). -/
def State.gradLines (s : State) (p goff : Nat) : List Nat :=
  ((0 :: s.trestle.gradSlots p).map fun sl =>
    (List.range (s.gradBytes p / 256)).map fun i => s.slotBase p sl + goff + 256 * i).flatten

/-- Every byte of the buffers is checked as a store of the sequencer (R103, R304; log entry 73); the lines of the
master's buffer enter RSIG (R215). -/
def gradTrigger (t : Word) (st : State) : SlotRes :=
  withStoreRoom st
    (let p := bits t.toNat 15 0
     let goff := st.myCore.epo.toNat
     if goff % 256 ≠ 0 then .trap .misaligned (BitVec.ofNat 64 (st.slotBase p 0 + goff)) none st
     else checkAll st .store (st.gradLines p goff) fun ls =>
       .ok (((st.signLocs (ls.take (st.gradBytes p / 256))).marked fun st =>
         st.addStore (.grad p goff (RM.code st.me.rm) 0 0) []).modTrestle fun t => { t with grads := t.grads ++ [p] }))

/-! ### `xk.kick` (R308, R309) -/

/-- A ring descriptor (R308). -/
structure RingDesc where
  rbase : Nat
  cbase : Nat
  log : Nat
  tail : Nat
  head : Nat
  deriving DecidableEq, Repr

/-- A descriptor as its kick checks it (R309). -/
def ringDesc (b : List Byte) : Option RingDesc :=
  let d : RingDesc := { rbase := field b 0 8, cbase := field b 8 8, log := field b 16 1, tail := field b 20 4, head := field b 24 4 }
  if field b 17 1 == 1 && d.rbase % 64 == 0 && d.cbase % 32 == 0 && d.log ≤ 16 && field b 18 2 == 0 && field b 28 4 == 0 &&
      (d.tail + 2 ^ 32 - d.head) % 2 ^ 32 ≤ 2 ^ d.log then some d
  else none

/-- The virtual address of a ring's descriptor; none without a ring table (R308). -/
def State.ringVa (s : State) (asid ring : Nat) : Option Nat :=
  let t := (s.ctxRingTab asid).toNat
  if t = 0 then none else some (t + 32 * ring)

/-- The checks of a kick (R309); a descriptor that is poisoned, or that a link loses, traps as a table word does (R206,
R319; log entry 121). -/
def kickTrigger (t : Word) (st : State) : SlotRes :=
  withStoreRoom st
    (let r := bits t.toNat 3 0
     if !st.me.done then .wait .kick st.marker
     else match st.ringVa st.me.asid r with
       | none => .plain .xformRing st
       | some va =>
         match st.resolve st.cur.core st.cur.q .load va with
         | .trap c => .trap c (BitVec.ofNat 64 va) none st
         | .miss => missFreeze st va
         | .at l =>
           let b := st.readHome st.cur.core l 32
           if b.2 then .trap .eccUncorrectable (BitVec.ofNat 64 va) none st else
           match ringDesc b.1 with
           | none => .plain .xformRing st
           | some _ => .ok (st.addStore (.kick st.me.asid r (RM.code st.me.rm)) []))

/-- EP_HIST (R294). -/
def semEpHist (g : BitVec 7) (s : BitVec 12) : Sem :=
  leased .ep (trigV g s histTrigger)
def execEpHist (g : BitVec 7) (s : BitVec 12) (st : State) : Out := runSlot (semEpHist g s) st

/-- EP_REP (R299). -/
def semEpRep (g : BitVec 7) (s : BitVec 12) : Sem :=
  leased .ep (trigS g s repTrigger)
def execEpRep (g : BitVec 7) (s : BitVec 12) (st : State) : Out := runSlot (semEpRep g s) st

/-- EP_DONE (R301). -/
def semEpDone (g : BitVec 7) (s : BitVec 12) : Sem :=
  leased .ep (trigS g s doneTrigger)
def execEpDone (g : BitVec 7) (s : BitVec 12) (st : State) : Out := runSlot (semEpDone g s) st

/-- EP_GRAD (R304). -/
def semEpGrad (g : BitVec 7) (s : BitVec 12) : Sem :=
  leased .ep (trigS g s gradTrigger)
def execEpGrad (g : BitVec 7) (s : BitVec 12) (st : State) : Out := runSlot (semEpGrad g s) st

/-- XK_KICK (R309). -/
def semXkKick (g : BitVec 7) (s : BitVec 12) : Sem :=
  leased .xk (trigS g s kickTrigger)
def execXkKick (g : BitVec 7) (s : BitVec 12) (st : State) : Out := runSlot (semXkKick g s) st

end Sys2Proof.Machine
end

