-- ==== Sys2Proof/Machine/KeyCache.lean ====
section
/-! DEFINITION. The kv unit (R282 to R288): forks, frees, reorders, appends and maps over the key-cache
tables. -/
namespace Sys2Proof.Machine

/-! ### The tables' words -/

/-- Updates of the tables, or why an operation stops. -/
abbrev KvPlan := Except KvFail (List KvAct)
abbrev KvStep := Except KvFail State

/-- A KV_BOUNDS of a kv operation (R289). -/
def kvStop (d : KvDesc) (seq reason pos frame page : Nat) : KvFail :=
  kvBounds (some d) { seq := seq, reason := reason, pos := pos, frame := frame, page := page, fbase := 0, rstride := 0 }

/-- Where LENGTH of a sequence stands (R279). -/
def KvDesc.lengthVa (d : KvDesc) (n : Nat) : Nat := d.seqtab + 16 * n

/-- The frames of the pages of a sequence (R279). -/
def pageList (get : KvGet) (e : KvSeq) : Except KvFail (List Nat) :=
  (List.range (pagesOf e.length)).mapM fun p => get (e.plist + 4 * p) 4

/-- COUNT of a frame (R280). -/
def kvCount (get : KvGet) (d : KvDesc) (f : Nat) : Except KvFail Nat :=
  (get (frameEntry d f) 8).map (· % 65536)

/-- Occurrences of a frame in a list. -/
def timesIn (f : Nat) (fs : List Nat) : Nat := (fs.filter (· == f)).length

/-- Every frame of a list can be counted up once for each time it is named; `before` are the frames counted up
already (R284, R287: reason 6 above 65,535). -/
def checkUp (get : KvGet) (d : KvDesc) (stop : Nat → Nat → KvFail) : List Nat → Nat → List Nat → Except KvFail Unit
  | [], _, _ => .ok ()
  | f :: fs, p, before =>
    match kvCount get d f with
    | .error e => .error e
    | .ok n => if 65535 ≤ n + timesIn f before then .error (stop f p) else checkUp get d stop fs (p + 1) (f :: before)

/-- Every frame of a list can be counted down once for each time it is named (R286: reason 6 at 0). -/
def checkDown (get : KvGet) (d : KvDesc) (stop : Nat → Nat → KvFail) : List Nat → Nat → List Nat → Except KvFail Unit
  | [], _, _ => .ok ()
  | f :: fs, p, before =>
    match kvCount get d f with
    | .error e => .error e
    | .ok n => if n ≤ timesIn f before then .error (stop f p) else checkDown get d stop fs (p + 1) (f :: before)

def KvDesc.up (d : KvDesc) (f : Nat) : KvAct := .up (frameEntry d f)
def KvDesc.down (d : KvDesc) (f : Nat) : KvAct := .down (frameEntry d f) d.free f
/-- Write a page list. -/
def putPages (plist : Nat) (fs : List Nat) : List KvAct := fs.zipIdx.map fun e => .put (plist + 4 * e.2) 4 e.1

/-! ### What the operations read, check and write (R283 to R287) -/

/-- The descriptor of a kv operation; with none every operation stops with reason 5 (R279). -/
def kvNeed (get : KvGet) (at_ : Nat) : Except KvFail KvDesc :=
  match kvDescBy get at_ with
  | .error e => .error e
  | .ok none => .error (kvBounds none { seq := 0, reason := 5, pos := 0, frame := noFrame, page := 0, fbase := 0, rstride := 0 })
  | .ok (some d) => .ok d

/-- `kv.fork` (R284). -/
def forkPlan (t : Word) (get : KvGet) (at_ : Nat) : KvPlan := do
  let d ← kvNeed get at_
  let src := bits t.toNat 15 0
  let dst := bits t.toNat 31 16
  if d.nseq ≤ src then .error (kvStop d src 5 0 noFrame 0)
  else if d.nseq ≤ dst then .error (kvStop d dst 5 0 noFrame 0)
  else
    let a ← kvSeqBy get d src
    let b ← kvSeqBy get d dst
    if b.length ≠ 0 then .error (kvStop d dst 7 b.length noFrame 0)
    else if b.cap < pagesOf a.length then .error (kvStop d dst 2 a.length noFrame (pagesOf a.length))
    else
      let fs ← pageList get a
      let _ ← checkUp get d (fun f p => kvStop d src 6 a.length f p) fs 0 []
      .ok ((fs.zipIdx.map fun e => [.put (b.plist + 4 * e.2) 4 e.1, d.up e.1]).flatten ++ [.put (d.lengthVa dst) 4 a.length])

/-- Take `need` frames off the stack: the frames, and the frame below the last (R285). -/
def takeFrames (get : KvGet) (d : KvDesc) (stop : Nat → KvFail) : Nat → Nat → Nat → Except KvFail (List Nat × Nat)
  | 0, _, top => .ok ([], top)
  | need + 1, j, top =>
    if top = noFrame then .error (stop j)
    else do
      let w ← get (frameEntry d top) 8
      let r ← takeFrames get d stop need (j + 1) (bits w 63 32)
      .ok (top :: r.1, r.2)

/-- FREE with its tag advanced and another top (R281). -/
def freeWith (h top : Nat) : Nat := (bits h 63 32 + 1) % 2 ^ 32 * 2 ^ 32 + top

/-- `kv.app` (R285); for no token it does nothing.  The exchange of FREE is the first write, made in the step that
read it. -/
def appPlan (t : Word) (get : KvGet) (at_ : Nat) : KvPlan :=
  if bits t.toNat 31 16 = 0 then .ok [] else do
  let d ← kvNeed get at_
  let n := bits t.toNat 15 0
  if d.nseq ≤ n then .error (kvStop d n 5 0 noFrame 0)
  else
    let e ← kvSeqBy get d n
    let len := e.length + bits t.toNat 31 16
    let first := pagesOf e.length
    if e.cap < pagesOf len then .error (kvStop d n 2 len noFrame (pagesOf len))
    else if pagesOf len = first then .ok [.put (d.lengthVa n) 4 len]
    else
      let h ← get d.free 8
      let fs ← takeFrames get d (fun j => kvStop d n 3 len noFrame (first + j)) (pagesOf len - first) 0 (bits h 31 0)
      .ok (.put d.free 8 (freeWith h fs.2) ::
        ((fs.1.zipIdx.map fun x => [.put (frameEntry d x.1) 8 (noFrame * 2 ^ 32 + 1), .put (e.plist + 4 * (first + x.2)) 4 x.1]).flatten ++
          [.put (d.lengthVa n) 4 len]))

/-- `kv.free` (R286). -/
def freePlan (t : Word) (get : KvGet) (at_ : Nat) : KvPlan := do
  let d ← kvNeed get at_
  let n := bits t.toNat 15 0
  if d.nseq ≤ n then .error (kvStop d n 5 0 noFrame 0)
  else
    let e ← kvSeqBy get d n
    if e.length = 0 then .ok []
    else
      let fs ← pageList get e
      let _ ← checkDown get d (fun f p => kvStop d n 6 e.length f p) fs 0 []
      .ok (fs.map d.down ++ [.put (d.lengthVa n) 4 0])

/-- The parents of a reordered group: a lane whose guard bit is 0 keeps its own (R287). -/
def parentOf (m : Word) (t : Vec) (i : Nat) : Nat := if m.getLsbD i then (lane t i).toNat else i

/-- The beams whose new frames are counted up, one list after another (R287). -/
def checkBeams (get : KvGet) (d : KvDesc) (stop : Nat → Nat → Nat → KvFail) :
    List (Nat × List Nat) → List Nat → Except KvFail Unit
  | [], _ => .ok ()
  | (i, fs) :: rest, before =>
    match checkUp get d (stop i) fs 0 before with
    | .error e => .error e
    | .ok _ => checkBeams get d stop rest (fs ++ before)

/-- `kv.perm` (R287). -/
def permPlan (m : Word) (t : Vec) (kvo : Word) (get : KvGet) (at_ : Nat) : KvPlan := do
  let d ← kvNeed get at_
  let first := bits kvo.toNat 15 0
  let b := bits kvo.toNat 22 16
  if b = 0 || 64 < b || d.nseq < first + b then .error (kvStop d first 5 b noFrame 0)
  else
    match (List.range b).find? fun i => b ≤ parentOf m t i with
    | some i => .error (kvStop d (first + i) 4 (parentOf m t i) noFrame 0)
    | none =>
      let es ← (List.range b).mapM fun i => kvSeqBy get d (first + i)
      let entry := fun (i : Nat) => es.getD i ({ length := 0, cap := 0, plist := 0 } : KvSeq)
      let parent := fun (i : Nat) => entry (parentOf m t i)
      match (List.range b).find? fun i => (entry i).cap < pagesOf (parent i).length with
      | some i => .error (kvStop d (first + i) 2 (parent i).length noFrame (pagesOf (parent i).length))
      | none =>
        let lists ← (List.range b).mapM fun i => pageList get (entry i)
        let new := fun (i : Nat) => lists.getD (parentOf m t i) []
        let _ ← checkBeams get d (fun i f p => kvStop d (first + i) 6 (parent i).length f p) ((List.range b).map fun i => (i, new i)) []
        .ok (((List.range b).map fun i => (new i).map d.up).flatten ++ ((List.range b).map fun i => (lists.getD i []).map d.down).flatten ++
          ((List.range b).map fun i => putPages (entry i).plist (new i) ++ [.put (d.lengthVa (first + i)) 4 (parent i).length]).flatten)

/-- The plan of an operation, from what it reads of the tables and KVDESC. -/
def KvOp.plan : KvOp → KvGet → Nat → KvPlan
  | .fork t => forkPlan t
  | .free t => freePlan t
  | .app t => appPlan t
  | .perm m t kvo => permPlan m t kvo

/-! ### The writes (R281, R286) -/

/-- Where table words stand, by the right that an access needs, address and bytes. -/
abbrev KvWhere := Right → Nat → Nat → Except KvFail Loc

/-- The words that an update reads or writes. -/
def KvAct.touches : KvAct → List (Nat × Nat)
  | .put va n _ => [(va, n)]
  | .up entry => [(entry, 8)]
  | .down entry free _ | .push entry free _ | .give entry free _ _ => [(entry, 8), (entry + 4, 4), (free, 8)]

/-- The first write of an update, and what is left of it.  A COUNT that is lowered from 0 takes a value that no rule gives
(log entry 58). -/
def KvAct.first (a : KvAct) (at_ : KvWhere) (c q : Nat) (s : State) : Except KvFail (List KvAct × State) :=
  let get := fun (s : State) (va n : Nat) => (at_ .load va n).bind (s.kvGetAt c va n)
  let put := fun (s : State) (va n v : Nat) => (at_ .store va n).map (s.kvPutAt c q n v)
  match a with
  | .put va n v => do
    let s ← put s va n v
    .ok ([], s)
  | .up entry => do
    let w ← get s entry 8
    let s ← put s entry 2 ((w + 1) % 65536)
    .ok ([], s)
  | .down entry free f => do
    let w ← get s entry 8
    let low : Nat × State := if w % 65536 = 0 then let r := s.freshWord; (r.1.toNat % 65536, r.2) else (w % 65536 - 1, s)
    let s ← put low.2 entry 2 low.1
    .ok (if low.1 = 0 && !bitAt w 16 then [.push entry free f] else [], s)
  | .push entry free f => do
    let h ← get s free 8
    let s ← put s (entry + 4) 4 (bits h 31 0)
    .ok ([.give entry free f h], s)
  | .give entry free f h => do
    let now ← get s free 8
    if now = h then do
      let s ← put s free 8 (freeWith h f)
      .ok ([], s)
    else .ok ([.push entry free f], s)

/-- Updates made without a pause: at most so many writes. -/
def actsOn (at_ : KvWhere) (c q : Nat) : Nat → List KvAct → State → KvStep
  | 0, _, s => .ok s
  | _ + 1, [], s => .ok s
  | n + 1, a :: as, s => match a.first at_ c q s with
    | .ok r => actsOn at_ c q n (r.1 ++ as) r.2
    | .error e => .error e

/-- One update of the tables, made without a pause. -/
def KvAct.run (a : KvAct) (at_ : KvWhere) (c q : Nat) (s : State) : KvStep := actsOn at_ c q 3 [a] s

def actsFrom (at_ : KvWhere) (c q : Nat) : List KvAct → State → KvStep
  | [], s => .ok s
  | a :: as, s => match a.run at_ c q s with
    | .ok s => actsFrom at_ c q as s
    | .error e => .error e

/-- Updates made at once, with every place found in the beginning (R283). -/
def runActs (c q : Nat) (as : List KvAct) (s : State) : KvStep := actsFrom (s.kvPlace c q) c q as s

/-- Table words as a waiting operation has read them, and the others as they stand. -/
def readOr (log : List ((Nat × Nat) × Nat)) (get : KvGet) : KvGet := fun va n =>
  match log.lookup (va, n) with
  | some v => .ok v
  | none => get va n

/-- The words that a waiting operation has read go. -/
def State.kvClear (s : State) (c q : Nat) : State :=
  if (s.seq c q).kvRead.isEmpty then s else s.modSeq c q fun x => { x with kvRead := [] }

/-- FREE is no longer what a waiting operation has read: its exchange would fail (R281, R285). -/
def State.kvMoved (s : State) (c q : Nat) : Bool :=
  match (s.seq c q).kvRead.lookup (s.kvAt c q + 24, 8) with
  | some h => (match s.kvGet c q (s.kvAt c q + 24) 8 with | .ok v => v != h | .error _ => true)
  | none => false

/-- After a failed exchange FREE and the stack are read again (R285). -/
def State.kvAgain (s : State) (c q : Nat) : State :=
  if s.kvMoved c q then
    s.modSeq c q fun x => { x with kvRead := x.kvRead.takeWhile fun e => e.1 != (s.kvAt c q + 24, 8) }
  else s

/-- A kv operation as a whole, or what is left of one: it reads and checks everything before it writes (R283). -/
def State.runKv (s : State) (c q : Nat) (op : KvOp) : KvStep :=
  let s := s.kvAgain c q
  match op.plan (readOr (s.seq c q).kvRead (s.kvGet c q)) (s.kvAt c q) with
  | .ok as => runActs c q as (s.kvClear c q)
  | .error e => .error e

/-! ### The operations -/

/-- Where the words stand that a kv operation has still to write, as its checks have found. -/
def Seq.kvWhere (x : Seq) : KvWhere := fun _ va _ => match x.kvPlaces.lookup va with
  | some l => .ok l
  | none => .error (.access .translation va)

/-- The next write of an operation that has made its checks; it makes none of them again, and passes by a word that has been
poisoned since, as an atomic does (R221, R283; log entry 134). -/
def State.kvWrite (s : State) (c q : Nat) (as : List KvAct) : State :=
  match as with
  | [] => s
  | a :: rest => match a.first (s.seq c q).kvWhere c q s with
    | .ok r => r.2.modSeq c q fun x => { x with kvLeft := some (r.1 ++ rest) }
    | .error _ => s.modSeq c q fun x => { x with kvLeft := some rest }

/-- What an operation that has made its checks has still to write, written without a pause: so many writes at most. -/
def State.kvWrites (s : State) (c q : Nat) : Nat → State
  | 0 => s
  | fuel + 1 => match (s.seq c q).kvLeft.getD [] with
    | [] => s
    | as => (s.kvWrite c q as).kvWrites c q fuel

/-- Everything that is left of a kv operation is written, and it is over. -/
def State.kvRest (s : State) (c q : Nat) : State :=
  (s.kvWrites c q (3 * ((s.seq c q).kvLeft.getD []).length)).modSeq c q fun x => { x with kvLeft := none, kvPlaces := [] }

/-- A kv operation places a marker in both queues and drops the cached frames; its bundle waits until it has been
performed (R283, R121).  What it has not written yet when its slot goes on, it writes there. -/
def kvOp (st : State) (op : KvOp) : SlotRes :=
  let c := st.cur.core
  let q := st.cur.q
  if st.me.done then
    match st.me.kvLeft with
    | some _ => .ok (st.kvRest c q)
    | none => kvThen (st.kvClear c q) (st.runKv c q op) .ok
  else .wait (.kv op) ((st.modMe Seq.dropFrames).marker.modMyCore fun k => { k with kvTurn := k.kvTurn + 1 })

/-- The turn of a `kv.map` that is not performed. -/
def LoadEntry.mapTurn (e : LoadEntry) : Option Nat :=
  match e.kind with
  | .kvMap _ _ _ _ turn => if e.performed then none else some turn
  | _ => none

/-- A kv operation of the other sequencer that was triggered before the one of a turn is not performed (R283). -/
def Core.kvBehind (k : Core) (q turn : Nat) : Bool :=
  (k.seq (1 - q)).allLoads.any fun e => e.mapTurn.any (· < turn)

/-- A waiting kv operation may be performed: everything that its sequencer has triggered is, and every `kv.map` of the
core, and none of the other sequencer is left half written (R283). -/
def Core.kvReady (k : Core) (q : Nat) : Bool :=
  (k.seq q).allPerformed && !k.kvBehind q k.kvTurn && (k.seq (1 - q)).kvOver

/-- The places that the checks of an operation have found for what it writes. -/
def State.placesOf (s : State) (c q : Nat) (as : List KvAct) : List (Nat × Loc) :=
  (as.map KvAct.touches).flatten.filterMap fun w => match s.kvPlace c q .store w.1 w.2 with
    | .ok l => some (w.1, l)
    | .error _ => none

/-- The first of the words that updates may write which misses in the TLB (R203). -/
def State.actsMiss (s : State) (c q : Nat) (as : List KvAct) : Option Nat :=
  (as.map KvAct.touches).flatten.findSome? fun w => match s.kvPlace c q .store w.1 w.2 with
    | .error (.miss va) => some va
    | _ => none

/-- A waiting kv operation reads its next table word, if it needs one; else it makes its checks with its first write. -/
def State.kvLook (s : State) (c q : Nat) (op : KvOp) : State :=
  match op.plan (readOr (s.seq c q).kvRead fun va n => .error (.need va n)) (s.kvAt c q) with
  | .error (.need va n) => (match s.kvGet c q va n with
    | .ok v => s.modSeq c q fun x => { x with kvRead := x.kvRead ++ [((va, n), v)] }
    | .error _ => s)
  | .error _ => s
  | .ok as =>
    if s.kvMoved c q then s.kvAgain c q
    else if (s.actsMiss c q as).isSome then s
    else match runActs c q as s with
      | .ok _ => ((s.kvClear c q).modSeq c q fun x => { x with kvPlaces := s.placesOf c q as }).kvWrite c q as
      | .error _ => s

/-- A kv operation goes on by one table word, read or written; one whose unit has stopped after its checks writes on
(R35, R281, R283, R340). -/
def State.kvForward (s : State) (c q : Nat) : State :=
  let x := s.seq c q
  match x.kvLeft, x.hold with
  | some as, _ => s.kvWrite c q as
  | none, some (.kv op) => if (s.core c).kvReady q then s.kvLook c q op else s
  | _, _ => s

/-- `kv.map` enters the load queue; its tables are read when it is performed (R288). -/
def mapLoad (t : Word) (st : State) : SlotRes :=
  let st := st.modMe Seq.dropFrames
  withLoadRoom st (.ok ((st.addLoad
    (.kvMap (bits t.toNat 15 0) (bits t.toNat 47 16) (bits t.toNat 63 48) st.myCore.kvo st.myCore.kvTurn) .s [] none).modMyCore
      fun k => { k with kvTurn := k.kvTurn + 1 }))

/-- What `kv.map` reads (R288): an address, or a failure. -/
def kvMapped (get : KvGet) (at_ kseq pos rstride : Nat) (base : Word) : Except KvFail Word := do
  let r ← kvFrameBy get at_ kseq pos 0 0 none
  .ok (frameRow base.toNat (BitVec.ofNat 64 rstride) r.2 pos)

/-- The address that a waiting kv operation misses: that of the word it reads next, or one that its checks of what it will
write come upon (R203, R283). -/
def State.kvMiss (s : State) (c q : Nat) : Option Nat :=
  let x := s.seq c q
  match x.kvLeft, x.hold with
  | none, some (.kv op) =>
    if (s.core c).kvReady q then
      match op.plan (readOr x.kvRead fun va n => .error (.need va n)) (s.kvAt c q) with
      | .error (.need va n) => (match s.kvGet c q va n with | .error (.miss va) => some va | _ => none)
      | .ok as => if s.kvMoved c q then none else s.actsMiss c q as
      | .error (.fault _ faults _) => s.recordMiss c q faults
      | .error _ => none
    else none
  | _, _ => none

/-- The sequencer as a `kv.map` translates: its TLB, and the walks that the entry has waited for (R203, R288). -/
def State.mapView (s : State) (c q : Nat) (e : LoadEntry) : State := s.modSeq c q fun x => { x with walks := e.walks }

/-- What a `kv.map` comes to, with the words that it has read so far (R288). -/
def State.mapLook (s : State) (c q : Nat) (e : LoadEntry) : Except KvFail Word :=
  match e.kind with
  | .kvMap kseq pos rstride base _ => kvMapped (readOr e.words fun va n => .error (.need va n)) (s.kvAt c q) kseq pos rstride base
  | _ => .ok 0

/-- The address that a `kv.map` misses (R203). -/
def State.mapMissOf (s : State) (c q : Nat) (e : LoadEntry) : Option Nat :=
  let v := s.mapView c q e
  match s.mapLook c q e with
  | .error (.need va n) => (match v.kvGet c q va n with | .error (.miss va) => some va | _ => none)
  | .error (.fault _ faults _) => v.recordMiss c q faults
  | _ => none

/-- KV_FORK (R284). -/
def semKvFork (g : BitVec 7) (s : BitVec 12) : Sem :=
  leased .kv (trigS g s fun t st => kvOp st (.fork t))
def execKvFork (g : BitVec 7) (s : BitVec 12) (st : State) : Out := runSlot (semKvFork g s) st

/-- KV_FREE (R286). -/
def semKvFree (g : BitVec 7) (s : BitVec 12) : Sem :=
  leased .kv (trigS g s fun t st => kvOp st (.free t))
def execKvFree (g : BitVec 7) (s : BitVec 12) (st : State) : Out := runSlot (semKvFree g s) st

/-- KV_PERM (R287). -/
def semKvPerm (g : BitVec 7) (s : BitVec 12) : Sem :=
  leased .kv (trigV g s fun m t st => kvOp st (.perm m t st.myCore.kvo))
def execKvPerm (g : BitVec 7) (s : BitVec 12) (st : State) : Out := runSlot (semKvPerm g s) st

/-- KV_APP (R285). -/
def semKvApp (g : BitVec 7) (s : BitVec 12) : Sem :=
  leased .kv (trigS g s fun t st => kvOp st (.app t))
def execKvApp (g : BitVec 7) (s : BitVec 12) (st : State) : Out := runSlot (semKvApp g s) st

/-- KV_MAP (R288). -/
def semKvMap (g : BitVec 7) (s : BitVec 12) : Sem :=
  leased .kv (trigS g s mapLoad)
def execKvMap (g : BitVec 7) (s : BitVec 12) (st : State) : Out := runSlot (semKvMap g s) st

end Sys2Proof.Machine
end

