-- ==== Sys2Proof/Machine/ZeroPack.lean ====
section
/-! DEFINITION. The zero-packed format (R311): chunks of 256 dense bytes behind a 64-bit header. -/
namespace Sys2Proof.Machine

/-- Groups of eight elements in a chunk, for a SZ code. -/
def zGroups (sz : Nat) : Nat := 32 / 2 ^ sz

/-- Payload bytes that a header calls for (R311). -/
def zLen (raw : Bool) (sz map : Nat) : Nat := if raw then 256 else popCount map 32 * 8 * 2 ^ sz

/-- A header is well formed (R311). -/
def zHeaderOk (h : Nat) : Bool :=
  let sz := bits h 62 60
  let map := bits h 31 0
  sz ≤ 2 && bits h 47 32 == 0 && bits h 59 48 == zLen (bitAt h 63) sz map && map < 2 ^ zGroups sz

/-- The payload bytes after a well-formed header. -/
def zPayload (h : Nat) : Nat := bits h 59 48

/-- Spread the payload over the groups of the map, from group `g` on. -/
def zSpread (gb map : Nat) : Nat → Nat → List Byte → List Byte
  | 0, _, _ => []
  | k + 1, g, bs =>
    if bitAt map g then bs.take gb ++ zSpread gb map k (g + 1) (bs.drop gb)
    else List.replicate gb 0 ++ zSpread gb map k (g + 1) bs

/-- The 256 bytes of a chunk with header `h` and the given payload (R311). -/
def zExpandOne (h : Nat) (payload : List Byte) : List Byte :=
  if bitAt h 63 then payload.take 256
  else
    let sz := bits h 62 60
    zSpread (8 * 2 ^ sz) (bits h 31 0) (zGroups sz) 0 payload

/-- Expand up to `n` chunks: the dense bytes, the packed bytes used, and whether a header was not well
formed. -/
def zExpand : Nat → List Byte → List Byte × Nat × Bool
  | 0, _ => ([], 0, false)
  | n + 1, bs =>
    let h := leNat (bs.take 8)
    if !zHeaderOk h then ([], 8, true)
    else
      let r := zExpand n (bs.drop (8 + zPayload h))
      (zExpandOne h (bs.drop 8) ++ r.1, 8 + zPayload h + r.2.1, r.2.2)

/-- How far into a packed stream of `n` chunks the bytes had so far show that it reaches. -/
def zNeed : Nat → Nat → List Byte → Nat
  | 0, pos, _ => pos
  | n + 1, pos, bs =>
    if bs.length < 8 then pos + 8
    else
      let h := leNat (bs.take 8)
      if !zHeaderOk h then pos + 8 else zNeed n (pos + 8 + zPayload h) (bs.drop (8 + zPayload h))

/-- Pack 256 dense bytes, elements of `2^sz` bytes (R311): raw when the payload would pass 192 bytes. -/
def zPackOne (sz : Nat) (bs : List Byte) : List Byte :=
  let gb := 8 * 2 ^ sz
  let groups := chunks gb (zGroups sz) bs
  let live := groups.map fun g => g.any (· != 0)
  let len := (live.filter id).length * gb
  if 192 < len then natBytes 8 (2 ^ 63 + sz * 2 ^ 60 + 256 * 2 ^ 48) ++ bs
  else
    natBytes 8 (sz * 2 ^ 60 + len * 2 ^ 48 + bitsNat live) ++
      ((groups.filter fun g => g.any (· != 0)).flatten)

/-- The SZ code of a format (R311). -/
def zSize (fmt : Nat) : Nat :=
  match elemBytes fmt with
  | 1 => 0
  | 2 => 1
  | _ => 2

end Sys2Proof.Machine
end

