-- ==== Sys2Proof/Machine/Tiles.lean ====
section
/-! DEFINITION. Tile registers, the scoreboard and the tf unit (R164 to R178). -/
namespace Sys2Proof.Machine

/-! ### The scoreboard (R166, R167) -/

def Core.setTile (k : Core) (t : Nat) (x : Tile) : Core := { k with tiles := mapSet Tile.init k.tiles t x }
def Core.claimsOf (k : Core) (t : Nat) : Nat := mapGet 0 k.claims t

/-- The ready tag of a tile (R166: set at the start). -/
def Core.tileReady (k : Core) (t : Nat) : Bool := !mapGet false k.notReady t
def Core.setTileReady (k : Core) (t : Nat) (b : Bool) : Core := { k with notReady := mapSet false k.notReady t !b }

/-- The tiles of an operation are free for it, and its unit has room (R167). -/
def Core.tilesFree (k : Core) (w r : List Nat) (tf : Bool) : Bool :=
  r.all k.tileReady && w.all (fun t => k.tileReady t && k.claimsOf t == 0) &&
    (if tf then k.tfOps.length < 8 else k.mxOps.length < 4)

/-- The waits of R167, as a flag-wait. -/
def withTiles (w r : List Nat) (tf : Bool) (st : State) (f : SlotRes) : SlotRes :=
  if st.myCore.tilesFree w r tf then f else .wait (.tiles w r tf) st

/-- One more read claim on each listed tile (R167). -/
def Core.claim_ (k : Core) (ts : List Nat) : Core :=
  { k with claims := ts.foldl (fun m t => mapSet 0 m t (mapGet 0 m t + 1)) k.claims }
def Core.unclaim (k : Core) (ts : List Nat) : Core :=
  { k with claims := ts.foldl (fun m t => mapSet 0 m t (mapGet 0 m t - 1)) k.claims }

/-! ### The pool (R165) -/

/-- Bytes of a tile (R134, R165). -/
def tileBytes (fmt rows cols : Nat) : Nat :=
  match hxOf fmt with
  | some h => rows * cols / 16 * h.bytes
  | none => rows * cols * elemBytes fmt
def granulesOf (fmt rows cols : Nat) : Nat := (tileBytes fmt rows cols + 255) / 256

/-- Granules that tiles other than `t` hold. -/
def Core.granulesBut (k : Core) (t : Nat) : Nat :=
  (List.range 16).foldl (fun n i => if i = t then n else n + (k.tile i).granules) 0
def Core.poolHas (k : Core) (t n : Nat) : Bool := k.granulesBut t + n ≤ 40 * k.operandBanks

/-- Lines pinned for tiles other than `t` (R173). -/
def Core.pinnedBut (k : Core) (t : Nat) : Nat :=
  (List.range 16).foldl (fun n i => if i = t then n else n + (k.tile i).lines.length) 0

/-- What the trigger of an operation that writes tile `t` does to its storage: a binding ends, and the
tile takes its new granules or its new lines (R165). -/
def State.takeTile (s : State) (c t n : Nat) (lines : List Nat) : State :=
  let x := (s.core c).tile t
  let s := s.unpin c x
  s.modCore c fun k =>
    let x := if x.state = .bound || !lines.isEmpty then { Tile.init with lines := lines } else x
    (k.setTile t { x with granules := n }).setTileReady t false

/-! ### The order of a tile's bytes -/

/-- Cut a list into pieces of `n`, `k` of them. -/
def cutList {α : Type} (n : Nat) : Nat → List α → List (List α)
  | 0, _ => []
  | k + 1, xs => xs.take n :: cutList n k (xs.drop n)

/-- Columns of a list of rows, as rows. -/
def transposeRows {α : Type} (cols : Nat) (rows : List (List α)) : List (List α) :=
  (List.range cols).map fun j => (rows.map fun r => r[j]?).reduceOption

/-- From memory order to tile order: elements of `size`, `rows` memory rows of `cols`; TRANS turns memory
rows into tile columns, and HX blocks stay in memory order (R168). -/
def arrange {α : Type} (fmt rows cols : Nat) (trans : Bool) (xs : List α) : List α :=
  if trans && (hxOf fmt).isNone then
    let n := elemBytes fmt
    ((transposeRows cols (cutList cols rows (cutList n (rows * cols) xs))).flatten).flatten
  else xs

/-- A line as a bound tile has read it. -/
def Tile.copy (x : Tile) (line : Nat) : List Byte × List Nat := (x.copies.lookup line).getD ([], [])

/-- The bytes of a tile, as it holds or has read them, and whether any is poisoned (R174, R206). -/
def Tile.contents (x : Tile) : List Byte × Bool :=
  match x.state with
  | .bound =>
    (x.src.map fun pa => (x.copy (pa / 256)).1.getD (pa % 256) 0, x.src.any fun pa => (x.copy (pa / 256)).2.contains (pa % 256 / 32))
  | _ => (x.data, !x.bad.isEmpty)

/-- A bound tile with one of its lines read again, where it is pinned: a line of its own die (R174). -/
def Tile.reread (x : Tile) (line : Nat) (l : List Byte × List Nat) : Tile :=
  { x with copies := x.copies.map fun e => if e.1 = line then (line, l) else e }

/-- Whether each element of a tile has a poisoned byte, an element of a block any byte of its block; row by row (R206). -/
def Tile.badElems (x : Tile) : List (List Bool) :=
  let hit := fun (size k : Nat) => x.bad.any fun b => b / size == k
  match hxOf x.fmt with
  | some h =>
    let of := fun (rows cols : Nat) => cutList cols rows
      (((List.range (rows * cols / 16)).map fun k => List.replicate 16 (hit h.bytes k)).flatten)
    if x.bdir then transposeRows x.rows (of x.cols x.rows) else of x.rows x.cols
  | none => cutList x.cols x.rows ((List.range (x.rows * x.cols)).map fun k => hit (elemBytes x.fmt) k)

/-- The places of the poisoned bytes of lines of elements in a format (R206). -/
def badPlaces (fmt : Nat) (ls : List (List Bool)) : List Nat :=
  let of := fun (size : Nat) (units : List Bool) =>
    (units.zipIdx.map fun e => if e.1 then (List.range size).map (size * e.2 + ·) else []).flatten
  match hxOf fmt with
  | some h => of h.bytes ((ls.map fun l => (cutList 16 (l.length / 16) l).map (·.any id)).flatten)
  | none => of (elemBytes fmt) ls.flatten

/-- Rows of elements, as raw patterns, of a tile of formats 1 to 9. -/
def rawRows (fmt rows cols : Nat) (bs : List Byte) : List (List Nat) :=
  cutList cols rows ((cutList (elemBytes fmt) (rows * cols) bs).map leNat)

/-- Rows along the blocks of an HX tile, as values (R135). -/
def hxRows (h : Hx) (rows cols : Nat) (bs : List Byte) : List (List FVal) :=
  cutList cols rows ((cutList h.bytes (rows * cols / 16) bs).map fun b =>
    (List.range 16).map fun i => h.elem (leNat b) i).flatten

/-- The values of a tile of a float format, row by row (R164, R168). -/
def tileVals (fmt rows cols : Nat) (bdir : Bool) (bs : List Byte) : List (List FVal) :=
  match hxOf fmt with
  | some h => if bdir then transposeRows rows (hxRows h cols rows bs) else hxRows h rows cols bs
  | none =>
    let f := if fmt == 8 then Fmt.f16 else if fmt == 9 then Fmt.bf16 else Fmt.f32
    (rawRows fmt rows cols bs).map fun r => r.map f.read

/-- The lane values of a tile, row by row (R114, R187): elements of n8, i8, n16, i16 and n32 as integers (log entry 125). -/
def tileLanes (fmt rows cols : Nat) (bdir : Bool) (bs : List Byte) : List (List Lane) :=
  match hxOf fmt with
  | some _ => (tileVals fmt rows cols bdir bs).map fun r => r.map fun x => BitVec.ofNat 32 (Fmt.f32.write .rne x).1
  | none => (rawRows fmt rows cols bs).map fun r => r.map (widenElem fmt)

/-! ### Conversions (R133, R136, R171, R176) -/

/-- The formats that conversions go between (R171). -/
def convFmt (f : Nat) : Bool := 7 ≤ f && f ≤ 12

/-- A line of values, widened exactly to f32 and then rounded to a format or blocked (R171). -/
def convertLine (cf : Nat) (rm : RM) (xs : List FVal) : List Byte × Flags :=
  let wide := xs.map fun x => (Fmt.f32.read (Fmt.f32.write .rne x).1, snanFlag [x])
  let nv := wide.foldl (fun f x => f ||| x.2) (0 : Flags)
  match hxOf cf with
  | some h =>
    let bs := (cutList 16 (xs.length / 16) (wide.map (·.1))).map fun b => h.encode rm b
    ((bs.map fun b => natBytes h.bytes b.1).flatten, bs.foldl (fun f b => f ||| b.2) nv)
  | none =>
    let f := if cf == 8 then Fmt.f16 else if cf == 9 then Fmt.bf16 else Fmt.f32
    let rs := wide.map fun x => f.finish rm (x.1, 0)
    ((rs.map fun r => natBytes (elemBytes cf) r.1).flatten, rs.foldl (fun f r => f ||| r.2) nv)

/-- Lines of values in a format. -/
def convertLines (cf : Nat) (rm : RM) (ls : List (List FVal)) : List Byte × Flags :=
  ls.foldr (fun l a => let r := convertLine cf rm l; (r.1 ++ a.1, r.2 ||| a.2)) ([], 0)

/-! ### Records, rows and checks (R168) -/

/-- The checks of the record (R168). -/
def tileRecord (st : State) (f : Shape → SlotRes) : SlotRes :=
  readRecord st.myCore.tfo st fun b =>
    if !recordValid b || field b 40 1 / 4 != 0 || field b 41 23 != 0 then .plain .shapeRecord st
    else
      let d := parseShape b
      if d.rows = 0 || 64 < d.rows then .plain .tileShape st else f d

/-- The address of source row `r` (R121, R168). -/
def State.tileRow (st : State) (d : Shape) (r : Nat) : Except KvFail (Word × Option (KvDesc × Nat)) :=
  let pos := (d.pos + r) % 2 ^ 32
  if d.mode = 0 then .ok (BitVec.ofNat 64 d.base + BitVec.ofNat 64 pos * d.rstride, none)
  else
    (st.kvFrame st.cur.core st.cur.q d.kvseq pos d.base d.rstride.toNat none).map fun k =>
      (frameRow d.base d.rstride k.2 pos, some k)

def State.tileRowsOf (st : State) (d : Shape) : Except KvFail (List (Word × Option (KvDesc × Nat))) :=
  (List.range d.rows).mapM fun r => st.tileRow d r

/-- The runs of bytes of the rows of a source or destination, in memory order. -/
def Shape.runs (d : Shape) (rows : List Word) : List (Nat × Nat) :=
  (rows.map fun a => rowRuns d.fmt d.cols a d.sstride).flatten

/-- The chunks of a zero-packed source, and its largest extent (R171). -/
def Shape.zChunks (d : Shape) : Nat := (d.rows * d.cols * elemBytes d.fmt + 255) / 256
def Shape.zRuns (d : Shape) : List (Nat × Nat) := [(d.base, 264 * d.zChunks)]

/-- The rows and columns of the tile (R168). -/
def Shape.tileDims (d : Shape) : Nat × Nat := if d.trans then (d.cols, d.rows) else (d.rows, d.cols)

/-- Add an operation to tf, clearing the ready tags of the tiles it writes and claiming what it reads. -/
def State.startTf (st : State) (op : TileOp) : State :=
  st.modMyCore fun k => { (k.claim_ op.reads) with tfOps := k.tfOps ++ [op] }

def newTileOp (st : State) (kind : TileKind) (w r : List Nat) : TileOp :=
  { kind := kind, q := st.cur.q, rm := RM.code st.me.rm, writes := w, reads := r, order := st.me.order, got := [],
    ready := false, poisoned := false }

/-! ### `tf.tld` (R171) -/

/-- The conversion is allowed, and the source may be zero-packed (R171 step 2). -/
def loadAllowed (d : Shape) (cf : Nat) : Bool :=
  (cf == 0 || cf == d.fmt || (convFmt d.fmt && convFmt cf && ((hxOf cf).isNone || d.cols % 16 == 0))) &&
    !(d.zpack && (hxOf d.fmt).isSome)

/-- The contiguity of a zero-packed source; a mode other than 0 is no valid record either (R171; log entry 100). -/
def packAllowed (d : Shape) : Bool :=
  !d.zpack || (d.mode == 0 && d.rstride.toNat == d.cols * elemBytes d.fmt)

/-- `KV_BOUNDS` of a mode-1 source stands before the queue and the address checks (R168, R171; log entry 60). -/
def tileLoad (t : Word) (st : State) : SlotRes :=
  let n := bits t.toNat 3 0
  let cf := bits t.toNat 7 4
  withTiles [n] [] true st (tileRecord st fun d =>
    if !loadAllowed d cf then .plain .tileShape st
    else if !packAllowed d then .plain .shapeRecord st
    else kvThen st (if d.zpack then .ok [] else st.tileRowsOf d) fun rows =>
      withLoadRoom st
        (let runs := if d.zpack then d.zRuns else d.runs (rows.map (·.1))
         checkRuns st Stream.init .load runs fun ps =>
           withStamp st ((runs.map (·.1)).headD 0) (ps.map (·.1)) fun k =>
             if k.isSome && (d.zpack || 1 < ((runs.map cutRun).flatten.map fun p => p.1 / 256).eraseDups.length) then
               .trap .misaligned (BitVec.ofNat 64 ((runs.map (·.1)).headD 0)) none st
             else
               let tf := if cf = 0 then d.fmt else cf
               let g := granulesOf tf d.tileDims.1 d.tileDims.2
               if !st.myCore.poolHas n g then .plain .tileShape st
               else .ok (((st.startTf (newTileOp st (.load n cf d) [n] [])).takeTile st.cur.core n g []).addLoad
                 .tileLoad .s (partsOf ps) k)))

/-! ### `tf.tbind` (R173) -/

def bindFmt (f : Nat) : Bool := f == 1 || f == 2 || f == 8 || f == 9 || (10 ≤ f && f ≤ 12)

def paOf : Loc → Option Nat
  | .mem pa => some pa
  | .spad _ _ => none

/-- The physical address of each source byte, in memory order. -/
def bytesOf (ps : List (Loc × Nat)) : List Nat :=
  (ps.map fun p => match p.1 with | .mem pa => (List.range p.2).map (pa + ·) | .spad _ _ => []).flatten

def tileBind (t : Word) (st : State) : SlotRes :=
  let n := bits t.toNat 3 0
  withTiles [n] [] true st (tileRecord st fun d =>
    if d.zpack || !bindFmt d.fmt then .plain .tileShape st
    else kvThen st (st.tileRowsOf d) fun rows =>
      withLoadRoom st (checkRuns st Stream.init .load (d.runs (rows.map (·.1))) fun ps =>
        let home := dieOf st.cur.core
        let src := bytesOf ps
        let lines := (src.map lineIndex).eraseDups
        if ps.any (fun p => (paOf p.1).isNone) then .plain .tileShape st
        else if (st.die home).remways = 0 && lines.any (fun l => homeDie (l * 256) != home) then .plain .tileShape st
        else if 256 < st.myCore.pinnedBut n + lines.length then .plain .tileShape st
        else .ok (((st.startTf (newTileOp st (.bind n d (arrange d.fmt d.rows d.cols d.trans src) lines) [n] [])).takeTile
          st.cur.core n 0 lines).addLoad .bind .s [] none)))

/-! ### `tf.tst` (R175) -/

/-- A byte that a store writes, and whether it carries poison (R206). -/
abbrev TileByte := Byte × Bool

/-- The tile's bytes in memory order, for a record with TRANS. -/
def Tile.memoryOrder (x : Tile) (trans : Bool) : List TileByte :=
  let bs := x.data.zipIdx.map fun e => (e.1, x.bad.contains e.2)
  if trans then arrange x.fmt x.rows x.cols true bs else bs

/-- Lay a run's bytes into the parts of a store, one part for each line, a later row over an earlier one. -/
def layPart (m : NMap (Loc × List (Option TileByte))) (va : Nat) (l : Loc) (bs : List TileByte) : NMap (Loc × List (Option TileByte)) :=
  let off := va % 256
  let base := match l with | .mem pa => Loc.mem (pa - off) | .spad c o => Loc.spad c (o - off)
  let old := match m.lookup (va / 256) with | some p => p.2 | none => List.replicate 256 none
  mapInsert (va / 256) (base, old.mapIdx fun j b => if off ≤ j then (match bs[j - off]? with | some v => some v | none => b) else b) m

def layParts : List (Nat × Nat) → List Loc → List TileByte → NMap (Loc × List (Option TileByte)) → NMap (Loc × List (Option TileByte))
  | p :: ps, l :: ls, bs, m => layParts ps ls (bs.drop p.2) (layPart m p.1 l (bs.take p.2))
  | _, _, _, m => m

/-- The parts of a tile store, in ascending address (R210). -/
def tileParts (runs : List (Nat × Nat)) (ls : List Loc) (bs : List TileByte) : List StorePart :=
  (layParts (runs.map cutRun).flatten ls bs []).map fun e =>
    { loc := e.2.1, bytes := e.2.2.map fun b => b.map (·.1),
      bad := (e.2.2.zipIdx.filter fun b => b.1.any (·.2)).map (·.2) }

/-- The frame checks of a mode-1 store, in page order (R175). -/
def tileFrames (st : State) (d : Shape) (rows : List (Word × Option (KvDesc × Nat))) : Except KvFail Unit :=
  rows.zipIdx.foldlM (fun _ e => match e.1.2 with
    | some (k, f) => st.kvFrameCheck st.cur.core st.cur.q k f d.kvseq ((d.pos + e.2) % 2 ^ 32) d.base d.rstride.toNat e.1.1.toNat
    | none => .ok ()) ()

def tileStore (t : Word) (st : State) : SlotRes :=
  let n := bits t.toNat 3 0
  withStoreRoom st (withTiles [] [n] true st (tileRecord st fun d =>
    let x := st.myCore.tile n
    if x.state ≠ .resident || d.zpack || d.fmt ≠ x.fmt || d.tileDims ≠ (x.rows, x.cols) ||
        ((hxOf x.fmt).isSome && x.bdir ≠ d.trans) then .plain .tileShape st
    else kvThen st (st.tileRowsOf d) fun rows =>
      let runs := d.runs (rows.map (·.1))
      checkRuns st Stream.init .store runs fun ps =>
        kvThen st (tileFrames st d rows) fun _ =>
          let parts := tileParts runs (ps.map (·.1)) (x.memoryOrder d.trans)
          .ok (((st.startTf (newTileOp st (.store n) [] [n])).signLocs (parts.map (·.loc))).addStore (.tile n) parts)))

/-! ### `tf.tcvt` and `tf.trel` (R176, R177) -/

def tileConvert (t : Word) (st : State) : SlotRes :=
  let dn := bits t.toNat 3 0
  let cf := bits t.toNat 7 4
  let sn := bits t.toNat 11 8
  let bcol := bitAt t.toNat 12
  withTiles [dn] [sn] true st
    (let x := st.myCore.tile sn
     let ok := x.state = .resident && cf ≠ 0 && (cf = x.fmt || (convFmt cf && convFmt x.fmt)) &&
       ((hxOf cf).isNone || (if bcol then x.rows else x.cols) % 16 = 0)
     if !ok then .plain .tileShape st
     else
       let g := granulesOf cf x.rows x.cols
       if !st.myCore.poolHas dn g then .plain .tileShape st
       else .ok ((st.startTf (newTileOp st (.convert dn sn cf bcol) [dn] [sn])).takeTile st.cur.core dn g []))

def tileRelease (t : Word) (st : State) : SlotRes :=
  let n := bits t.toNat 3 0
  withTiles [n] [] true st
    (.ok ((st.unpin st.cur.core (st.myCore.tile n)).modMyCore fun k => k.setTile n Tile.init))

/-! ### Completions of tf (R167, R171 to R176) -/

/-- The status of a load or a bind (R172). -/
def tileStatus (rows cols t : Nat) (exp : Bool) (err : Nat) : Word :=
  BitVec.ofNat 64 (rows + cols * 2 ^ 8 + t * 2 ^ 16 + (if exp then 2 ^ 20 else 0) + err * 2 ^ 21)

/-- Bytes of a loaded source in memory order, and whether a chunk header was not well formed; chunks follow one
another from BASE on, whatever its low bits are (R171, R172, R311; log entry 126). -/
def sourceBytes (d : Shape) (got : List Byte) : List Byte × Bool :=
  if d.zpack then
    let r := zExpand d.zChunks got
    (r.1.take (d.rows * d.cols * elemBytes d.fmt), r.2.2)
  else (got, false)

/-- The loaded tile, and its flags (R171). -/
def loadedTile (d : Shape) (cf rm : Nat) (bs : List Byte) : Tile × Flags :=
  let dims := d.tileDims
  let make := fun (fmt : Nat) (bs : List Byte) =>
    ({ state := .resident, fmt := fmt, rows := dims.1, cols := dims.2, bdir := (hxOf fmt).isSome && d.trans,
       data := arrange fmt d.rows d.cols d.trans bs, src := [], lines := [], copies := [],
       granules := granulesOf fmt dims.1 dims.2, bad := [] } : Tile)
  if cf = 0 || cf = d.fmt then (make d.fmt bs, 0)
  else
    let r := convertLines cf (RM.ofCode rm) (tileVals d.fmt d.rows d.cols false bs)
    (make cf r.1, r.2)

/-- The converted tile, and its flags (R176).  An element whose format does not change is not converted, as in
R171; HX elements keep theirs while they are blocked the same way.  Poison follows the elements (R206). -/
def convertedTile (x : Tile) (cf rm : Nat) (bcol : Bool) : Tile × Flags :=
  let hx := (hxOf cf).isSome
  if cf = x.fmt && (!hx || x.bdir == bcol) then
    ({ x with state := .resident, bdir := hx && bcol, granules := granulesOf cf x.rows x.cols }, 0)
  else
    let vals := tileVals x.fmt x.rows x.cols x.bdir x.data
    let bad := if x.bad.isEmpty then [] else x.badElems
    let r := convertLines cf (RM.ofCode rm) (if hx && bcol then transposeRows x.cols vals else vals)
    ({ x with state := .resident, fmt := cf, bdir := hx && bcol, data := r.1, granules := granulesOf cf x.rows x.cols,
              bad := badPlaces cf (if hx && bcol then transposeRows x.cols bad else bad) }, r.2)

/-- The entry of an operation, in either load queue of its sequencer. -/
def State.finishEntry (s : State) (c q order : Nat) (f : LoadEntry → LoadEntry) : State :=
  s.modSeq c q fun x => { x with loads := x.loads.map (fun e => if e.order = order then f e else e) }

/-- Flags that an asynchronous operation sets, in the sequencer that triggered it (R131). -/
def State.orFlagsOf (s : State) (c q : Nat) (f : Flags) : State :=
  s.modSeq c q fun x => { x with fpctl := orFlags x.fpctl f, clockFlags := (s.clock, x.flagsOf s.clock ||| f) }

/-- A tile as an operation leaves it, its ready tag set (R167). -/
def State.putTile (s : State) (c t : Nat) (x : Tile) : State := s.modCore c fun k => (k.setTile t x).setTileReady t true

/-- The head operation of tf, done. -/
def State.dropTf (s : State) (c : Nat) (op : TileOp) : State :=
  s.modCore c fun k => { (k.unclaim op.reads) with tfOps := k.tfOps.tail }

/-- An operation of tf completes (R167): a load whose entry has been performed, a conversion, or the read
of a stored tile.  A bind completes in `TBIND_PINNED`.  A status with ERR 1 has EXP 0 (log entry 126).
Contents that are undefined raise the flags of the bytes as they stand (log entry 138). -/
def State.completeTf (s : State) (c : Nat) (op : TileOp) : State :=
  match op.kind with
  | .load t cf d =>
    if !op.ready then s
    else
      let s := s.dropTf c op
      let src := sourceBytes d op.got
      let r := loadedTile d cf op.rm src.1
      let err := src.2 && !op.poisoned
      let s : State := if op.poisoned || err then
          let fresh := s.freshBytes (tileBytes r.1.fmt r.1.rows r.1.cols)
          fresh.2.putTile c t { r.1 with data := fresh.1 }
        else s.putTile c t r.1
      let s := s.orFlagsOf c op.q r.2
      let dims := d.tileDims
      s.finishEntry c op.q op.order fun e =>
        { e with arrived := true, value := .s (tileStatus dims.1 dims.2 t (d.zpack && !err) (if err then 1 else 0)),
                 mark := if op.poisoned then some .eccUncorrectable else none }
  | .convert d sn cf bcol =>
    let r := convertedTile ((s.core c).tile sn) cf op.rm bcol
    ((s.dropTf c op).putTile c d r.1).orFlagsOf c op.q r.2
  | .store _ => s.dropTf c op
  | _ => s

/-- Pin a line of another die, fetched afresh; another binding that pins it keeps what it has read itself (R173, R174,
R305; log entry 132). -/
def State.pinLine (s : State) (die line : Nat) : State :=
  let r := s.lineFromHome line
  let s := s.homeUse (line * 256)
  let x := s.die die
  match x.remote.find? fun l => l.line == line with
  | some l =>
    let l' := { l with data := r.1, poisoned := r.2, pins := l.pins + 1, used := s.clock, asOf := s.merges }
    s.modDie die fun x => { x with remote := x.remote.map (fun m => if m.line == line then l' else m) }
  | none =>
    match x.remoteVictim line with
    | none => s
    | some (old, w) =>
      let new : RemoteLine := { line := line, way := w, data := r.1, poisoned := r.2, pins := 1, used := s.clock, asOf := s.merges }
      s.modDie die fun x => { x with remote := new :: (match old with
        | some o => x.remote.filter fun m => m.line != o.line
        | none => x.remote) }

/-- A line where it is pinned: at its home slice, or in a remote-line way of the die (R174). -/
def State.pinnedLine (s : State) (die line : Nat) : List Byte × List Nat :=
  match (s.die die).remote.find? fun l => l.line == line && homeDie (line * 256) != die with
  | some l => (l.data, l.poisoned)
  | none => s.lineFromHome line

/-- The lines of its own die that a core's bound tiles and the products on them may read once more (R174). -/
def Core.ownLines (k : Core) (die : Nat) : List Nat :=
  (((List.range 16).map fun t => (k.tile t).copies) ++ (k.mxOps.map fun op => (op.bound.map fun b => b.2.copies).flatten)).flatten.map
    (·.1) |>.eraseDups.filter fun l => homeDie (l * 256) == die

/-- A bound tile, or a product that was triggered on one, reads a line of its own die again (R174). -/
def State.rereadLine (s : State) (c line holder : Nat) : State :=
  let l := s.lineFromHome line
  (s.homeUse (line * 256)).modCore c fun k =>
    if holder < 16 then k.setTile holder ((k.tile holder).reread line l)
    else { k with mxOps := k.mxOps.mapIdx fun i op =>
      if i + 16 = holder then { op with bound := op.bound.map fun b => (b.1, b.2.reread line l) } else op }

/-- The lines that a bind has still to pin (R173). -/
def TileOp.unpinned (op : TileOp) : List Nat :=
  match op.kind with
  | .bind _ _ _ lines => lines.filter fun l => !op.pinned.any (·.1 == l)
  | _ => []

/-- A line can be pinned now: at its home slice, where a remote-line way holds it, or in a way that is free for it. -/
def State.pinnable (s : State) (die line : Nat) : Bool :=
  homeDie (line * 256) == die || (s.die die).remote.any (·.line == line) || ((s.die die).remoteVictim line).isSome

/-- A bind fetches and pins one of its lines, in one read (R173, R210). -/
def State.bindLine (s : State) (c line : Nat) : State :=
  let die := dieOf c
  let s := if homeDie (line * 256) = die then s.homeUse (line * 256) else s.pinLine die line
  let l := (line, s.pinnedLine die line)
  s.modCore c fun k => { k with tfOps := match k.tfOps with
    | op :: ops => { op with pinned := op.pinned ++ [l] } :: ops
    | [] => [] }

/-- A bind has pinned its last line (R173); what it has read of its lines so far is what stood there (R174). -/
def State.finishBind (s : State) (c t : Nat) (d : Shape) (src lines : List Nat) (op : TileOp) : State :=
  let dims := d.tileDims
  let x : Tile := { state := .bound, fmt := d.fmt, rows := dims.1, cols := dims.2, bdir := (hxOf d.fmt).isSome && d.trans,
                    data := [], src := src, lines := lines, copies := op.pinned,
                    granules := 0, bad := [] }
  ((s.dropTf c op).putTile c t x).finishEntry c op.q op.order fun e =>
    { e with performed := true, arrived := true, value := .s (tileStatus dims.1 dims.2 t false 0) }

/-- TF_TLD (R171). -/
def semTfTld (g : BitVec 7) (s : BitVec 12) : Sem :=
  leased .tf (trigS g s tileLoad)
def execTfTld (g : BitVec 7) (s : BitVec 12) (st : State) : Out := runSlot (semTfTld g s) st

/-- TF_TBIND (R173). -/
def semTfTbind (g : BitVec 7) (s : BitVec 12) : Sem :=
  leased .tf (trigS g s tileBind)
def execTfTbind (g : BitVec 7) (s : BitVec 12) (st : State) : Out := runSlot (semTfTbind g s) st

/-- TF_TST (R175). -/
def semTfTst (g : BitVec 7) (s : BitVec 12) : Sem :=
  leased .tf (trigS g s tileStore)
def execTfTst (g : BitVec 7) (s : BitVec 12) (st : State) : Out := runSlot (semTfTst g s) st

/-- TF_TREL (R177). -/
def semTfTrel (g : BitVec 7) (s : BitVec 12) : Sem :=
  leased .tf (trigS g s tileRelease)
def execTfTrel (g : BitVec 7) (s : BitVec 12) (st : State) : Out := runSlot (semTfTrel g s) st

/-- TF_TCVT (R176). -/
def semTfTcvt (g : BitVec 7) (s : BitVec 12) : Sem :=
  leased .tf (trigS g s tileConvert)
def execTfTcvt (g : BitVec 7) (s : BitVec 12) (st : State) : Out := runSlot (semTfTcvt g s) st

end Sys2Proof.Machine
end

