-- ==== Sys2Proof/Machine/Product.lean ====
section
/-! DEFINITION. What a matrix product computes (R139, R140, R180 to R188). -/
namespace Sys2Proof.Machine

/-! ### Exact sums (R139) -/

/-- The exact sum of finite terms, as a signed multiplier of a power of two. -/
def exactSum : List FVal → Int × Int
  | [] => (0, 0)
  | x :: xs =>
    let r := exactSum xs
    match x with
    | .fin n m e =>
      let lo := min e r.2
      let a : Int := m * 2 ^ (e - lo).toNat
      ((if n then -a else a) + r.1 * 2 ^ (r.2 - lo).toNat, lo)
    | _ => r

/-- The sign of a sum that is exactly zero: that of the terms when they agree, else + or, in RDN, − (R139). -/
def zeroSign (rm : RM) (ts : List FVal) : Bool :=
  if ts.all fIsNeg then !ts.isEmpty
  else if ts.any fIsNeg then rm == .rdn
  else false

/-- The sum of some terms, exact, with the NV of opposed infinities (R139). -/
def sumOf (rm : RM) (ts : List FVal) : Flagged FVal :=
  let pos := ts.any fun t => t == .inf false
  let neg := ts.any fun t => t == .inf true
  if pos && neg then (.nan false, Flag.nv)
  else if ts.any FVal.isNan then (.nan false, 0)
  else if pos then (.inf false, 0)
  else if neg then (.inf true, 0)
  else
    let r := exactSum ts
    if r.1 = 0 then (.fin (zeroSign rm ts) 0 0, 0) else (.fin (r.1 < 0) r.1.natAbs r.2, 0)

/-- How the sum of a chunk is rounded: to f32 in classical order, to 26 bits in recombined order. -/
abbrev Rounder := FVal → Flagged FVal

/-- One rounding to f32 (R132, R139). -/
def roundF32 (rm : RM) : Rounder := fun x =>
  let r := Fmt.f32.write rm x
  (Fmt.f32.read r.1, r.2)

/-- e26: a significand of 26 bits (R182). -/
def roundE26 (rm : RM) : Rounder
  | .fin n m e =>
    if m = 0 then (.fin n 0 0, 0)
    else
      let qe := e + bitLen m - 26
      let r := roundAt rm n m e qe false
      (.fin n r.1 qe, if r.2 then Flag.nx else 0)
  | x => (x, 0)

/-- The products of a chunk, with the flags of R127. -/
def products (as bs : List FVal) : List FVal × Flags :=
  let ps := (as.zip bs).map fun p => fMul p.1 p.2
  (ps.map (·.1), ps.foldl (fun f p => f ||| p.2) 0)

/-- The chunks of one element, from `acc` on, each of `n` products (R139). -/
def chunked (n : Nat) (rm : RM) (rnd : Rounder) : Nat → FVal → List FVal → List FVal → Flagged FVal
  | 0, acc, _, _ => (acc, 0)
  | fuel + 1, acc, as, bs =>
    if as.isEmpty then (acc, 0)
    else
      let p := products (as.take n) (bs.take n)
      let s := sumOf rm (acc :: p.1)
      let r := rnd s.1
      let rest := chunked n rm rnd fuel r.1 (as.drop n) (bs.drop n)
      (rest.1, p.2 ||| s.2 ||| r.2 ||| rest.2)

/-- An element in classical order, `n` products to a chunk, from c_0 (R139, R180, R185). -/
def classicalElem (n : Nat) (rm : RM) (c0 : Lane) (as bs : List FVal) : Flagged Lane :=
  let c := f32Of c0
  let r := chunked n rm (roundF32 rm) (as.length / n + 1) c as bs
  let w := Fmt.f32.write rm r.1
  if as.isEmpty then (c0, 0) else (BitVec.ofNat 32 w.1, r.2 ||| snanFlag [c])

/-- An element of i8 operands: the sum wraps (R139). -/
def intElem (c0 : Lane) (as bs : List Int) : Lane :=
  c0 + BitVec.ofInt 32 ((as.zip bs).foldl (fun n p => n + p.1 * p.2) 0)

/-! ### Recombined order (R182) -/

/-- floor(log₂|x|) of a nonzero magnitude. -/
def topExp (m : Nat) (e : Int) : Int := e + bitLen m - 1

/-- A pre-addition: the exact sum rounded to a multiple of 2^(emax − 10) (R182). -/
def preAdd (rm : RM) (x y : FVal) : Flagged FVal :=
  match x, y with
  | .fin na ma ea, .fin nb mb eb =>
    if ma = 0 && mb = 0 then (.fin (na && nb) 0 0, 0)
    else if ma = 0 then (y, 0)
    else if mb = 0 then (x, 0)
    else
      let qe := max (topExp ma ea) (topExp mb eb) - 10
      let s := exactSum [x, y]
      if s.1 = 0 then (.fin (rm == .rdn) 0 0, 0)
      else
        let r := roundAt rm (s.1 < 0) s.1.natAbs s.2 qe false
        (.fin (s.1 < 0) r.1 qe, if r.2 then Flag.nx else 0)
  | _, _ => fAdd rm x y

abbrev Block := List (List FVal)

/-- Element by element over two blocks. -/
def preBlock (rm : RM) (neg : Bool) (x y : Block) : Block × Flags :=
  let rows := (x.zip y).map fun r => (r.1.zip r.2).map fun p => preAdd rm p.1 (if neg then p.2.negate else p.2)
  (rows.map fun r => r.map (·.1), rows.foldl (fun f r => r.foldl (fun f p => f ||| p.2) f) 0)

/-- A block product: rows of `a` against columns of `b`, each chunk rounded by e26 (R182). -/
def prodBlock (rm : RM) (a b : Block × Flags) : Block × Flags :=
  let cols := transposeRows ((b.1.headD []).length) b.1
  let rows := a.1.map fun r => cols.map fun c => chunked 16 rm (roundE26 rm) (r.length / 16 + 1) (.fin false 0 0) r c
  (rows.map fun r => r.map (·.1), rows.foldl (fun f r => r.foldl (fun f p => f ||| p.2) f) (a.2 ||| b.2))

/-- A post-addition, or the difference, rounded by e26 (R182). -/
def postBlock (rm : RM) (neg : Bool) (x y : Block × Flags) : Block × Flags :=
  let rows := (x.1.zip y.1).map fun r => (r.1.zip r.2).map fun p =>
    let s := fAdd rm p.1 (if neg then p.2.negate else p.2)
    let e := roundE26 rm s.1
    (e.1, e.2 ||| s.2)
  (rows.map fun r => r.map (·.1), rows.foldl (fun f r => r.foldl (fun f p => f ||| p.2) f) (x.2 ||| y.2))

/-- Rows `r0` on and columns `c0` on of a block, `h` by `w`. -/
def subBlock (x : Block) (r0 h c0 w : Nat) : Block := ((x.drop r0).take h).map fun r => (r.drop c0).take w

/-- The sums X of recombined order, 64 by 64, with every flag but those of the last rounding (R182). -/
def recombine (rm : RM) (a b : Block) : Block × Flags :=
  let n := (a.headD []).length / 2
  let a11 := subBlock a 0 32 0 n
  let a12 := subBlock a 0 32 n n
  let a21 := subBlock a 32 32 0 n
  let a22 := subBlock a 32 32 n n
  let b11 := subBlock b 0 n 0 32
  let b12 := subBlock b 0 n 32 32
  let b21 := subBlock b n n 0 32
  let b22 := subBlock b n n 32 32
  let m1 := prodBlock rm (preBlock rm false a11 a22) (preBlock rm false b11 b22)
  let m2 := prodBlock rm (preBlock rm false a21 a22) (b11, 0)
  let m3 := prodBlock rm (a11, 0) (preBlock rm true b12 b22)
  let m4 := prodBlock rm (a22, 0) (preBlock rm true b21 b11)
  let m5 := prodBlock rm (preBlock rm false a11 a12) (b22, 0)
  let m6 := prodBlock rm (preBlock rm true a21 a11) (preBlock rm false b11 b12)
  let m7 := prodBlock rm (preBlock rm true a12 a22) (preBlock rm false b21 b22)
  let x11 := postBlock rm false (postBlock rm true (postBlock rm false m1 m4) m5) m7
  let x12 := postBlock rm false m3 m5
  let x21 := postBlock rm false m2 m4
  let x22 := postBlock rm false (postBlock rm false (postBlock rm true m1 m2) m3) m6
  let top := (x11.1.zip x12.1).map fun r => r.1 ++ r.2
  let bottom := (x21.1.zip x22.1).map fun r => r.1 ++ r.2
  (top ++ bottom, x11.2 ||| x12.2 ||| x21.2 ||| x22.2)

/-- The last rounding, once for each element (R182). -/
def finishBlock (rm : RM) (c0 : List (List Lane)) (x : Block × Flags) : List (List Lane) × Flags :=
  let rows := (c0.zip x.1).map fun r => (r.1.zip r.2).map fun p =>
    let c := f32Of p.1
    let s := fAdd rm c p.2
    let w := Fmt.f32.write rm s.1
    ((BitVec.ofNat 32 w.1 : Lane), w.2 ||| s.2)
  (rows.map fun r => r.map (·.1), rows.foldl (fun f r => r.foldl (fun f p => f ||| p.2) f) x.2)

/-! ### Operands (R179) -/

/-- A tile as an operand: its shape and its bytes as they are read. -/
structure Operand where
  fmt : Nat
  rows : Nat
  cols : Nat
  bdir : Bool
  data : List Byte
  deriving DecidableEq, Repr

def Operand.vals (x : Operand) : Block := tileVals x.fmt x.rows x.cols x.bdir x.data

/-- Signed bytes, row by row. -/
def Operand.ints (x : Operand) : List (List Int) :=
  cutList x.cols x.rows (x.data.map fun b => b.toInt)

/-- Tiles side by side along K. -/
def besides {α : Type} : List (List (List α)) → List (List α)
  | [] => []
  | [x] => x
  | x :: xs => (x.zip (besides xs)).map fun r => r.1 ++ r.2

/-- The values named by a metadata row, at their dense places, from group `g` on (R185). -/
def named {α : Type} (meta_ : List Nat) (bs : List α) : Nat → Nat → List α
  | 0, _ => []
  | n + 1, g =>
    let nib := meta_.getD (g / 2) 0 / 2 ^ (4 * (g % 2)) % 16
    let pick := fun (i : Nat) => bs[4 * g + i]?
    [pick (nib % 4), pick (nib / 4)].reduceOption ++ named meta_ bs n (g + 1)

/-- The D of a product: its lanes row by row, with the flags. -/
abbrev Result := List (List Lane) × Flags

def gather (rows : List (List (Flagged Lane))) : Result :=
  (rows.map fun r => r.map (·.1), rows.foldl (fun f r => r.foldl (fun f p => f ||| p.2) f) 0)

/-- Each element from its row of A, its column of B and its c_0. -/
def eachElem {α : Type} (a bcols : List (List α)) (c0 : List (List Lane)) (f : Lane → List α → List α → Flagged Lane) : Result :=
  gather ((a.zip c0).map fun r => (bcols.zip r.2).map fun p => f p.2 r.1 p.1)

/-- Recombined order is taken (R181). -/
def recombinedTaken (m n k : Nat) (classical : Bool) : Bool := !classical && m == 64 && n == 64 && k % 32 == 0

/-- `mma` (R179 to R182). -/
def mmaResult (rm : RM) (classical : Bool) (as bs : List Operand) (c0 : List (List Lane)) : Result :=
  let m := (as.headD { fmt := 0, rows := 0, cols := 0, bdir := false, data := [] }).rows
  let n := (bs.headD { fmt := 0, rows := 0, cols := 0, bdir := false, data := [] }).cols
  let k := (as.map (·.cols)).foldl (· + ·) 0
  let rec_ := recombinedTaken m n k classical
  let flag : Flags := if rec_ then Flag.recomb else 0
  if (as.map (·.fmt)).headD 0 == 2 then
    let r := eachElem (besides (as.map (·.ints))) (transposeRows n (bs.map (·.ints)).flatten) c0 fun c x y => (intElem c x y, 0)
    (r.1, r.2 ||| flag)
  else
    let a := besides (as.map (·.vals))
    let b := (bs.map (·.vals)).flatten
    if rec_ then
      let r := finishBlock rm c0 (recombine rm a b)
      (r.1, r.2 ||| flag)
    else eachElem a (transposeRows n b) c0 (classicalElem 16 rm)

/-- `mmas` (R185): 8 products to a chunk of 16 dense positions. -/
def mmasResult (rm : RM) (as bs : List Operand) (mt : Operand) (c0 : List (List Lane)) : Result :=
  let n := (bs.headD { fmt := 0, rows := 0, cols := 0, bdir := false, data := [] }).cols
  let metas := cutList mt.cols mt.rows (mt.data.map (·.toNat))
  if (as.map (·.fmt)).headD 0 == 2 then
    let a := besides (as.map (·.ints))
    let cols := transposeRows n (bs.map (·.ints)).flatten
    gather ((a.zip (c0.zip metas)).map fun r => (cols.zip r.2.1).map fun p =>
      (intElem p.2 r.1 (named r.2.2 p.1 (r.1.length / 2) 0), 0))
  else
    let a := besides (as.map (·.vals))
    let cols := transposeRows n (bs.map (·.vals)).flatten
    gather ((a.zip (c0.zip metas)).map fun r => (cols.zip r.2.1).map fun p =>
      classicalElem 8 rm p.2 r.1 (named r.2.2 p.1 (r.1.length / 2) 0))

/-- The group of a row (R186). -/
def groupOf (off : List Nat) (g r : Nat) : Option Nat :=
  (List.range g).find? fun i => off.getD i 0 ≤ r && r < off.getD (i + 1) 0

/-- `mmag` (R186): a row outside every group keeps its c_0. -/
def mmagResult (rm : RM) (a : Operand) (bs : List Operand) (off : List Nat) (c0 : List (List Lane)) : Result :=
  let rowOf := fun {α : Type} (xs : List (List α)) (r : Nat) => xs.getD r []
  let rows := (List.range a.rows).map fun r =>
    match groupOf off bs.length r with
    | none => (rowOf c0 r).map fun c => ((c, 0) : Flagged Lane)
    | some g =>
      let b := bs.getD g { fmt := 0, rows := 0, cols := 0, bdir := false, data := [] }
      if a.fmt == 2 then
        ((transposeRows b.cols b.ints).zip (rowOf c0 r)).map fun p => (intElem p.2 (rowOf a.ints r) p.1, 0)
      else
        ((transposeRows b.cols b.vals).zip (rowOf c0 r)).map fun p => classicalElem 16 rm p.2 (rowOf a.vals r) p.1
  gather rows

end Sys2Proof.Machine
end

