-- ==== Sys2Proof/Machine/Matrix.lean ====
section
/-! DEFINITION. The mx unit: its triggers and the completion of its operations (R170, R179 to R189). -/
namespace Sys2Proof.Machine

/-! ### Trigger fields (R170) -/

def mxD (t : Word) : Nat := bits t.toNat 3 0
def mxA (t : Word) : Nat := bits t.toNat 7 4
def mxB (t : Word) : Nat := bits t.toNat 11 8
def mxAcc (t : Word) : Bool := bitAt t.toNat 12
def mxPairs (t : Word) : Nat := bits t.toNat 14 13 + 1
def mxX (t : Word) : Nat := bits t.toNat 18 15

/-- Tiles from `a` on. -/
def tilesFrom (a n : Nat) : List Nat := (List.range n).map (a + ·)

/-! ### Checks (R179) -/

/-- The output format of a product, when the operand format is one that products take (R179). -/
def productFmt (f : Nat) : Option Nat :=
  if f = 2 then some 6 else if f = 8 || f = 9 || f = 10 || f = 11 || f = 12 then some 7 else none

/-- What every operand of a product must be: not empty, of one format, and in the right direction (R179). -/
def operandOk (x : Tile) (fmt : Nat) (isB : Bool) : Bool :=
  x.state ≠ .empty && x.fmt == fmt && ((hxOf fmt).isNone || x.bdir == isB)

/-- D takes the output: not an operand, not bound, and with ACC resident in its shape and format (R179). -/
def outputOk (k : Core) (d m n fmt : Nat) (acc : Bool) (others : List Nat) : Bool :=
  let x := k.tile d
  !others.contains d && x.state ≠ .bound &&
    (!acc || (x.state == .resident && x.rows == m && x.cols == n && x.fmt == fmt)) && k.poolHas d (granulesOf fmt m n)

/-- The shapes of n pairs: one M, one N, and each COLS of A the ROWS of its B (R179). -/
def pairsOk (as bs : List Tile) (scale : Nat) : Bool :=
  as.all (fun a => a.rows == (as.headD Tile.init).rows) && bs.all (fun b => b.cols == (bs.headD Tile.init).cols) &&
    (as.zip bs).all fun p => p.1.cols * scale == p.2.rows

def sumNat (l : List Nat) : Nat := l.foldl (· + ·) 0

/-- The bound tiles among an operation's operands, as they stand (R174, R178). -/
def Core.boundOf (k : Core) (ts : List Nat) : List (Nat × Tile) :=
  (ts.filter fun t => (k.tile t).state == .bound).map fun t => (t, k.tile t)

/-- Start an mx operation: its output takes its storage, its operands their claims (R165, R167). -/
def State.startMx (st : State) (op : TileOp) (d g : Nat) : State :=
  (st.modMyCore fun k => { (k.claim_ op.reads) with mxOps := k.mxOps ++ [{ op with bound := k.boundOf op.reads }] }).takeTile
    st.cur.core d g []

/-- `mma` (R179).  Bits [18:16] of the trigger value, which programs write 0, have no effect (R170; log entry 101). -/
def mmaTrigger (t : Word) (st : State) : SlotRes :=
  let d := mxD t
  let n := mxPairs t
  let an := tilesFrom (mxA t) n
  let bn := tilesFrom (mxB t) n
  let reads := (an ++ bn).filter (· < 16)
  withTiles [d] reads false st
    (let k := st.myCore
     let as := an.map k.tile
     let bs := bn.map k.tile
     let fmt := (as.headD Tile.init).fmt
     let m := (as.headD Tile.init).rows
     let cols := (bs.headD Tile.init).cols
     match productFmt fmt with
     | none => .plain .tileShape st
     | some out =>
       if (an ++ bn).all (· < 16) && as.all (operandOk · fmt false) && bs.all (operandOk · fmt true) && pairsOk as bs 1 &&
           sumNat (as.map (·.cols)) ≤ 256 && outputOk k d m cols out (mxAcc t) (an ++ bn) then
         .ok (st.startMx (newTileOp st (.product d (mxA t) (mxB t) n (mxAcc t) (bitAt (mxX t) 0)) [d] (an ++ bn)) d (granulesOf out m cols))
       else .plain .tileShape st)

/-- Every nibble of the metadata names two positions in rising order (R185). -/
def metaOk (meta_ : Tile) (m groups : Nat) : Bool :=
  (List.range m).all fun r => (List.range groups).all fun g =>
    let nib := (meta_.data.getD (r * meta_.cols + g / 2) 0).toNat / 2 ^ (4 * (g % 2)) % 16
    nib % 4 < nib / 4

/-- `mmas` (R185). -/
def mmasTrigger (t : Word) (st : State) : SlotRes :=
  let d := mxD t
  let n := mxPairs t
  let mt := mxX t
  let an := tilesFrom (mxA t) n
  let bn := tilesFrom (mxB t) n
  let reads := ((an ++ bn).filter (· < 16)) ++ [mt]
  withTiles [d] reads false st
    (let k := st.myCore
     let as := an.map k.tile
     let bs := bn.map k.tile
     let x := k.tile mt
     let fmt := (as.headD Tile.init).fmt
     let m := (as.headD Tile.init).rows
     let cols := (bs.headD Tile.init).cols
     let kk := sumNat (bs.map (·.rows))
     let out := if fmt = 2 then 6 else 7
     if (an ++ bn).all (· < 16) && (fmt == 2 || fmt == 8 || fmt == 9) && as.all (operandOk · fmt false) && bs.all (operandOk · fmt true) &&
         pairsOk as bs 2 && bs.all (fun b => b.rows % 4 == 0) && kk % 8 == 0 && kk ≤ 256 &&
         x.state == .resident && x.fmt == 1 && x.rows == m && x.cols == kk / 8 &&
         outputOk k d m cols out (mxAcc t) (an ++ bn ++ [mt]) then
       if metaOk x m (kk / 4) then
         .ok (st.startMx (newTileOp st (.sparse d (mxA t) (mxB t) n mt (mxAcc t)) [d] (an ++ bn ++ [mt])) d (granulesOf out m cols))
       else .plain .sparseMeta st
     else .plain .tileShape st)

/-- The offsets of a grouped product (R186). -/
def offsetsOf (mxo : Word) (g : Nat) : List Nat := (List.range (g + 1)).map fun i => bits mxo.toNat (8 * i + 7) (8 * i)
def offsetsOk (off : List Nat) (g m : Nat) : Bool :=
  ((List.range g).all fun i => off.getD i 0 ≤ off.getD (i + 1) 0) && off.getD g 0 ≤ m

/-- `mmag` (R186).  Bit [18] of the trigger value, which programs write 0, has no effect (R170; log entry 101). -/
def mmagTrigger (t : Word) (st : State) : SlotRes :=
  let d := mxD t
  let g := mxX t % 8
  let an := [mxA t]
  let bn := tilesFrom (mxB t) g
  let reads := (an ++ bn).filter (· < 16)
  withTiles [d] reads false st
    (let k := st.myCore
     let a := k.tile (mxA t)
     let bs := bn.map k.tile
     let b := bs.headD Tile.init
     match productFmt a.fmt with
     | none => .plain .tileShape st
     | some out =>
       if mxPairs t == 1 && 1 ≤ g && bn.all (· < 16) && operandOk a a.fmt false && bs.all (operandOk · a.fmt true) &&
           bs.all (fun x => x.rows == a.cols && x.cols == b.cols) && a.cols ≤ 256 &&
           outputOk k d a.rows b.cols out (mxAcc t) (an ++ bn) then
         if offsetsOk (offsetsOf k.mxo g) g a.rows then
           .ok (st.startMx (newTileOp st (.grouped d (mxA t) (mxB t) g (mxAcc t) (offsetsOf k.mxo g)) [d] (an ++ bn)) d
             (granulesOf out a.rows b.cols))
         else .plain .groupOffsets st
       else .plain .tileShape st)

/-- The format of a TY code (R187). -/
def zeroFmt (ty : Nat) : Nat :=
  match ty with
  | 0 => 7
  | 1 => 6
  | 2 => 9
  | _ => 8

/-- `mzero` (R187). -/
def mzeroTrigger (t : Word) (st : State) : SlotRes :=
  let d := mxD t
  let fmt := zeroFmt (bits t.toNat 5 4)
  let rows := bits t.toNat 11 6 + 1
  let cols := bits t.toNat 17 12 + 1
  withTiles [d] [] false st
    (let g := granulesOf fmt rows cols
     if st.myCore.poolHas d g then .ok (st.startMx (newTileOp st (.zero d rows cols fmt) [d] []) d g)
     else .plain .tileShape st)

/-- A deferred `ECC_UNCORRECTABLE` for the sequencer that triggered an operation (R206). -/
def State.deferEcc (s : State) (c q : Nat) : State :=
  s.modSeq c q fun x => { x with pending := if x.pending.contains .eccUncorrectable then x.pending else x.pending ++ [.eccUncorrectable] }

/-- `mdrain` (R187); a poisoned tile drains undefined rows (R206). -/
def mdrainTrigger (t : Word) (st : State) : SlotRes :=
  let d := mxD t
  withTiles [] [d] false st
    (let x := st.myCore.tile d
     if x.state ≠ .resident then .plain .tileShape st
     else
       let rows := (tileLanes x.fmt x.rows x.cols x.bdir x.data).map fun r => r ++ List.replicate (64 - x.cols) 0
       let now := st.me.cycle
       let drain := fun (st : State) (rows : List Vec) => st.modMyCore fun k =>
         { k with drain := some { cycle := now, rows := rows, prev := k.drain.bind fun d => d.rowAt now } }
       if !x.bad.isEmpty then
         let fresh := rows.foldl (fun (a : List Vec × State) _ => let v := a.2.freshVec; (a.1 ++ [v.1], v.2)) ([], st)
         .ok (drain (fresh.2.deferEcc st.cur.core st.cur.q) fresh.1)
       else .ok (drain st rows))

/-! ### Completion (R167, R173, R188) -/

/-- The tile that an operation reads: a bound one as its trigger found it (R174, R178). -/
def Core.operandTile (k : Core) (op : TileOp) (t : Nat) : Tile := (op.bound.lookup t).getD (k.tile t)

/-- A tile as an operand, and whether it met poison. -/
def Core.operand (k : Core) (op : TileOp) (t : Nat) : Operand × Bool :=
  let x := k.operandTile op t
  let r := x.contents
  ({ fmt := x.fmt, rows := x.rows, cols := x.cols, bdir := x.bdir, data := r.1 }, r.2)

/-- The accumulator values of a product: D as it stands, or +0 (R180). -/
def accumulator (x : Tile) (acc : Bool) (m n : Nat) : List (List Lane) :=
  if acc then tileLanes x.fmt x.rows x.cols x.bdir x.data else List.replicate m (List.replicate n 0)

/-- A bound operand is unpinned and empty when the first product that reads it completes (R173). -/
def State.releaseBound (s : State) (c t : Nat) : State :=
  let x := (s.core c).tile t
  if x.state = .bound then (s.unpin c x).modCore c fun k => k.setTile t Tile.init else s

/-- D of a product: f32 or i32 lanes, row by row. -/
def resultTile (fmt m n : Nat) (rows : List (List Lane)) : Tile :=
  { state := .resident, fmt := fmt, rows := m, cols := n, bdir := false,
    data := (rows.map fun r => (r.map fun w => natBytes 4 w.toNat).flatten).flatten, src := [], lines := [], copies := [],
    granules := granulesOf fmt m n, bad := [] }

/-- A product is done: D, its tag and its flags; the bound operands go (R167, R173, R188, R206). -/
def State.putResult (s : State) (c : Nat) (op : TileOp) (d m n : Nat) (poisoned : Bool) (r : Result) : State :=
  let i8 := ((s.core c).operandTile op (op.reads.headD 0)).fmt == 2
  let s := op.reads.eraseDups.foldl (fun s t => s.releaseBound c t) s
  let s := s.modCore c fun k => { (k.unclaim op.reads) with mxOps := k.mxOps.tail }
  let x := resultTile (if i8 then 6 else 7) m n r.1
  if poisoned then
    let fresh := s.freshBytes x.data.length
    ((fresh.2.putTile c d { x with data := fresh.1 }).orFlagsOf c op.q r.2).deferEcc c op.q
  else (s.putTile c d x).orFlagsOf c op.q r.2

/-- The head operation of mx completes (R167).  Poisoned operands raise the flags of their bytes as they stand (log entry 138). -/
def State.completeMx (s : State) (c : Nat) (op : TileOp) : State :=
  let k := s.core c
  let rm := RM.ofCode op.rm
  let old := fun (d : Nat) (acc : Bool) => acc && !(k.tile d).bad.isEmpty
  match op.kind with
  | .product d a b n acc classical =>
    let as := (tilesFrom a n).map (k.operand op)
    let bs := (tilesFrom b n).map (k.operand op)
    let m := (as.map (·.1.rows)).headD 0
    let w := (bs.map (·.1.cols)).headD 0
    s.putResult c op d m w ((as ++ bs).any (·.2) || old d acc)
      (mmaResult rm classical (as.map (·.1)) (bs.map (·.1)) (accumulator (k.tile d) acc m w))
  | .sparse d a b n mt acc =>
    let as := (tilesFrom a n).map (k.operand op)
    let bs := (tilesFrom b n).map (k.operand op)
    let x := k.operand op mt
    let m := (as.map (·.1.rows)).headD 0
    let w := (bs.map (·.1.cols)).headD 0
    s.putResult c op d m w ((as ++ bs ++ [x]).any (·.2) || old d acc)
      (mmasResult rm (as.map (·.1)) (bs.map (·.1)) x.1 (accumulator (k.tile d) acc m w))
  | .grouped d a b g acc off =>
    let x := k.operand op a
    let bs := (tilesFrom b g).map (k.operand op)
    let w := (bs.map (·.1.cols)).headD 0
    s.putResult c op d x.1.rows w ((x :: bs).any (·.2) || old d acc) (mmagResult rm x.1 (bs.map (·.1)) off (accumulator (k.tile d) acc x.1.rows w))
  | .zero d rows cols fmt =>
    let s := s.modCore c fun k => { k with mxOps := k.mxOps.tail }
    s.putTile c d { Tile.init with
      state := .resident, fmt := fmt, rows := rows, cols := cols, data := List.replicate (tileBytes fmt rows cols) 0,
      granules := granulesOf fmt rows cols }
  | _ => s

/-- MX_MMA (R179). -/
def semMxMma (g : BitVec 7) (s : BitVec 12) : Sem :=
  leased .mx (trigS g s mmaTrigger)
def execMxMma (g : BitVec 7) (s : BitVec 12) (st : State) : Out := runSlot (semMxMma g s) st

/-- MX_MMAS (R185). -/
def semMxMmas (g : BitVec 7) (s : BitVec 12) : Sem :=
  leased .mx (trigS g s mmasTrigger)
def execMxMmas (g : BitVec 7) (s : BitVec 12) (st : State) : Out := runSlot (semMxMmas g s) st

/-- MX_MMAG (R186). -/
def semMxMmag (g : BitVec 7) (s : BitVec 12) : Sem :=
  leased .mx (trigS g s mmagTrigger)
def execMxMmag (g : BitVec 7) (s : BitVec 12) (st : State) : Out := runSlot (semMxMmag g s) st

/-- MX_MZERO (R187). -/
def semMxMzero (g : BitVec 7) (s : BitVec 12) : Sem :=
  leased .mx (trigS g s mzeroTrigger)
def execMxMzero (g : BitVec 7) (s : BitVec 12) (st : State) : Out := runSlot (semMxMzero g s) st

/-- MX_MDRAIN (R187). -/
def semMxMdrain (g : BitVec 7) (s : BitVec 12) : Sem :=
  leased .mx (trigS g s mdrainTrigger)
def execMxMdrain (g : BitVec 7) (s : BitVec 12) (st : State) : Out := runSlot (semMxMdrain g s) st

end Sys2Proof.Machine
end

