-- ==== Sys2Proof/Machine/Moves.lean ====
section
/-! DEFINITION. Moves, wide immediates, the header, and moves that pop or push a queue (R46 to R50,
R77, R98, R229). -/
namespace Sys2Proof.Machine

/-- MOVE (R46): the empty slot, the unguarded move s0 to s0, is never performed (R45). -/
def semMove (g : BitVec 7) (d : BitVec 11) (s : BitVec 12) : Sem := fun st =>
  if g = 0 && d = 0 && s = 0 then .ok st else moveTo g d.toNat s st
def execMove (g : BitVec 7) (d : BitVec 11) (s : BitVec 12) (st : State) : Out := runSlot (semMove g d s) st

/-- Where a wide immediate may go without a trigger: a register, an operand port or `cq.push`. -/
def wideTo (d : Nat) (w : Word) (st : State) : SlotRes :=
  if d = 0xB4 then pushCount w st
  else if 0xB5 ≤ d then .plain .reservedPort st
  else if !st.mayReach (destUnit d) then .plain .unitNotOwned st
  else .ok (writeDest d Word.ones (.s w) st)

/-- HEADER (R49): occupies slot 0, and extends the immediates of the slots after it (R50). -/
def headerExt (e1 e2 e3 : BitVec 1) (x1 x2 x3 : BitVec 8) : List (Option (BitVec 8)) :=
  [none, if e1 = 1 then some x1 else none, if e2 = 1 then some x2 else none, if e3 = 1 then some x3 else none]
def semHeader (_nm e1 e2 e3 : BitVec 1) (x1 x2 x3 : BitVec 8) : Sem := fun st =>
  .ok { st with cur := { st.cur with ext := headerExt e1 e2 e3 x1 x2 x3 } }
def execHeader (nm e1 e2 e3 : BitVec 1) (x1 x2 x3 : BitVec 8) (st : State) : Out :=
  runSlot (semHeader nm e1 e2 e3 x1 x2 x3) st

/-- LQ_POP (R98): the head of the load queue into a destination. -/
def semLqPop (g : BitVec 7) (d : BitVec 11) : Sem := fun st => moveTo g d.toNat 0x0A9 st
def execLqPop (g : BitVec 7) (d : BitVec 11) (st : State) : Out := runSlot (semLqPop g d) st

/-- CX_POP (R229): the head of the circuit receive queue into a destination. -/
def semCxPop (g : BitVec 7) (d : BitVec 11) : Sem := fun st => moveTo g d.toNat 0x0AA st
def execCxPop (g : BitVec 7) (d : BitVec 11) (st : State) : Out := runSlot (semCxPop g d) st

/-- CQ_POP (R77, R78): the head of the count queue into a destination. -/
def semCqPop (g : BitVec 7) (d : BitVec 11) : Sem := fun st => moveTo g d.toNat 0x0AC st
def execCqPop (g : BitVec 7) (d : BitVec 11) (st : State) : Out := runSlot (semCqPop g d) st

/-- CQ_PUSH (R77, R78). -/
def semCqPush (g : BitVec 7) (s : BitVec 12) : Sem := trigS g s pushCount
def execCqPush (g : BitVec 7) (s : BitVec 12) (st : State) : Out := runSlot (semCqPush g s) st

end Sys2Proof.Machine
end

