-- ==== Sys2Proof/Machine/Scalar.lean ====
section
/-! DEFINITION. The integer ALUs, multiply and divide, and the predicate unit (R71 to R76). -/
namespace Sys2Proof.Machine

/-! ### Integer ALUs (R71, R72) -/

def allWhen (b : Bool) : Word := if b then Word.ones else 0

/-- Leading zero bits of the low `k` bits of `n`. -/
def clzFrom (n : Nat) : Nat → Nat
  | 0 => 0
  | k + 1 => if n.testBit k then 0 else 1 + clzFrom n k
/-- Trailing zero bits, of `k` bits. -/
def ctzFrom (n : Nat) : Nat → Nat
  | 0 => 0
  | k + 1 => if n.testBit 0 then 0 else 1 + ctzFrom (n / 2) k

def clz64 (t : Word) : Word := BitVec.ofNat 64 (clzFrom t.toNat 64)
def ctz64 (t : Word) : Word := BitVec.ofNat 64 (ctzFrom t.toNat 64)
def popc64 (t : Word) : Word := BitVec.ofNat 64 (popCount t.toNat 64)

def shl64 (o t : Word) : Word := if 64 ≤ t.toNat then 0 else o <<< t.toNat
def shr64 (o t : Word) : Word := if 64 ≤ t.toNat then 0 else o >>> t.toNat
def sar64 (o t : Word) : Word := if 64 ≤ t.toNat then (if o.msb then Word.ones else 0) else o.sshiftRight t.toNat
def rotr64 (o t : Word) : Word := o.rotateRight (t.toNat % 64)

/-- Bits [n−1:0] of o, upper bits 0 (R72). -/
def zext64 (o t : Word) : Word :=
  if t.toNat = 0 then 0 else if 64 ≤ t.toNat then o else o &&& BitVec.ofNat 64 (2 ^ t.toNat - 1)
/-- Bits [n−1:0] of o, sign-extended from bit n−1 (R72). -/
def sext64 (o t : Word) : Word :=
  if t.toNat = 0 then 0 else if 64 ≤ t.toNat then o
  else (o <<< (64 - t.toNat)).sshiftRight (64 - t.toNat)

/-- An ia operation: L = 1, its result to the unit's port (R71). -/
def iaOp (g : BitVec 7) (u : BitVec 1) (s : BitVec 12) (f : Word → Word → Word) : Sem :=
  trigS g s fun t st =>
    let o := if u = 0 then st.me.ports.ia0o else st.me.ports.ia1o
    .ok (st.pushRes (ResPorts.onIa u) 1 (.s (f o t)))

/-- IA_ADD (R72). -/
def semIaAdd (g : BitVec 7) (u : BitVec 1) (s : BitVec 12) : Sem :=
  iaOp g u s fun o t => o + t
def execIaAdd (g : BitVec 7) (u : BitVec 1) (s : BitVec 12) (st : State) : Out := runSlot (semIaAdd g u s) st

/-- IA_SUB (R72). -/
def semIaSub (g : BitVec 7) (u : BitVec 1) (s : BitVec 12) : Sem :=
  iaOp g u s fun o t => o - t
def execIaSub (g : BitVec 7) (u : BitVec 1) (s : BitVec 12) (st : State) : Out := runSlot (semIaSub g u s) st

/-- IA_AND (R72). -/
def semIaAnd (g : BitVec 7) (u : BitVec 1) (s : BitVec 12) : Sem :=
  iaOp g u s fun o t => o &&& t
def execIaAnd (g : BitVec 7) (u : BitVec 1) (s : BitVec 12) (st : State) : Out := runSlot (semIaAnd g u s) st

/-- IA_OR (R72). -/
def semIaOr (g : BitVec 7) (u : BitVec 1) (s : BitVec 12) : Sem :=
  iaOp g u s fun o t => o ||| t
def execIaOr (g : BitVec 7) (u : BitVec 1) (s : BitVec 12) (st : State) : Out := runSlot (semIaOr g u s) st

/-- IA_XOR (R72). -/
def semIaXor (g : BitVec 7) (u : BitVec 1) (s : BitVec 12) : Sem :=
  iaOp g u s fun o t => o ^^^ t
def execIaXor (g : BitVec 7) (u : BitVec 1) (s : BitVec 12) (st : State) : Out := runSlot (semIaXor g u s) st

/-- IA_ANDN (R72). -/
def semIaAndn (g : BitVec 7) (u : BitVec 1) (s : BitVec 12) : Sem :=
  iaOp g u s fun o t => o &&& ~~~t
def execIaAndn (g : BitVec 7) (u : BitVec 1) (s : BitVec 12) (st : State) : Out := runSlot (semIaAndn g u s) st

/-- IA_SHL (R72). -/
def semIaShl (g : BitVec 7) (u : BitVec 1) (s : BitVec 12) : Sem :=
  iaOp g u s fun o t => shl64 o t
def execIaShl (g : BitVec 7) (u : BitVec 1) (s : BitVec 12) (st : State) : Out := runSlot (semIaShl g u s) st

/-- IA_SHR (R72). -/
def semIaShr (g : BitVec 7) (u : BitVec 1) (s : BitVec 12) : Sem :=
  iaOp g u s fun o t => shr64 o t
def execIaShr (g : BitVec 7) (u : BitVec 1) (s : BitVec 12) (st : State) : Out := runSlot (semIaShr g u s) st

/-- IA_SAR (R72). -/
def semIaSar (g : BitVec 7) (u : BitVec 1) (s : BitVec 12) : Sem :=
  iaOp g u s fun o t => sar64 o t
def execIaSar (g : BitVec 7) (u : BitVec 1) (s : BitVec 12) (st : State) : Out := runSlot (semIaSar g u s) st

/-- IA_ROTR (R72). -/
def semIaRotr (g : BitVec 7) (u : BitVec 1) (s : BitVec 12) : Sem :=
  iaOp g u s fun o t => rotr64 o t
def execIaRotr (g : BitVec 7) (u : BitVec 1) (s : BitVec 12) (st : State) : Out := runSlot (semIaRotr g u s) st

/-- IA_MIN (R72). -/
def semIaMin (g : BitVec 7) (u : BitVec 1) (s : BitVec 12) : Sem :=
  iaOp g u s fun o t => if o.slt t then o else t
def execIaMin (g : BitVec 7) (u : BitVec 1) (s : BitVec 12) (st : State) : Out := runSlot (semIaMin g u s) st

/-- IA_MAX (R72). -/
def semIaMax (g : BitVec 7) (u : BitVec 1) (s : BitVec 12) : Sem :=
  iaOp g u s fun o t => if o.slt t then t else o
def execIaMax (g : BitVec 7) (u : BitVec 1) (s : BitVec 12) (st : State) : Out := runSlot (semIaMax g u s) st

/-- IA_MINN (R72). -/
def semIaMinn (g : BitVec 7) (u : BitVec 1) (s : BitVec 12) : Sem :=
  iaOp g u s fun o t => if o.ult t then o else t
def execIaMinn (g : BitVec 7) (u : BitVec 1) (s : BitVec 12) (st : State) : Out := runSlot (semIaMinn g u s) st

/-- IA_MAXN (R72). -/
def semIaMaxn (g : BitVec 7) (u : BitVec 1) (s : BitVec 12) : Sem :=
  iaOp g u s fun o t => if o.ult t then t else o
def execIaMaxn (g : BitVec 7) (u : BitVec 1) (s : BitVec 12) (st : State) : Out := runSlot (semIaMaxn g u s) st

/-- IA_CMPEQ (R72). -/
def semIaCmpeq (g : BitVec 7) (u : BitVec 1) (s : BitVec 12) : Sem :=
  iaOp g u s fun o t => allWhen (o == t)
def execIaCmpeq (g : BitVec 7) (u : BitVec 1) (s : BitVec 12) (st : State) : Out := runSlot (semIaCmpeq g u s) st

/-- IA_CMPNE (R72). -/
def semIaCmpne (g : BitVec 7) (u : BitVec 1) (s : BitVec 12) : Sem :=
  iaOp g u s fun o t => allWhen (o != t)
def execIaCmpne (g : BitVec 7) (u : BitVec 1) (s : BitVec 12) (st : State) : Out := runSlot (semIaCmpne g u s) st

/-- IA_CMPLT (R72). -/
def semIaCmplt (g : BitVec 7) (u : BitVec 1) (s : BitVec 12) : Sem :=
  iaOp g u s fun o t => allWhen (o.slt t)
def execIaCmplt (g : BitVec 7) (u : BitVec 1) (s : BitVec 12) (st : State) : Out := runSlot (semIaCmplt g u s) st

/-- IA_CMPLE (R72). -/
def semIaCmple (g : BitVec 7) (u : BitVec 1) (s : BitVec 12) : Sem :=
  iaOp g u s fun o t => allWhen (o.sle t)
def execIaCmple (g : BitVec 7) (u : BitVec 1) (s : BitVec 12) (st : State) : Out := runSlot (semIaCmple g u s) st

/-- IA_CMPLTN (R72). -/
def semIaCmpltn (g : BitVec 7) (u : BitVec 1) (s : BitVec 12) : Sem :=
  iaOp g u s fun o t => allWhen (o.ult t)
def execIaCmpltn (g : BitVec 7) (u : BitVec 1) (s : BitVec 12) (st : State) : Out := runSlot (semIaCmpltn g u s) st

/-- IA_CMPLEN (R72). -/
def semIaCmplen (g : BitVec 7) (u : BitVec 1) (s : BitVec 12) : Sem :=
  iaOp g u s fun o t => allWhen (o.ule t)
def execIaCmplen (g : BitVec 7) (u : BitVec 1) (s : BitVec 12) (st : State) : Out := runSlot (semIaCmplen g u s) st

/-- IA_CLZ (R72). -/
def semIaClz (g : BitVec 7) (u : BitVec 1) (s : BitVec 12) : Sem :=
  iaOp g u s fun _ t => clz64 t
def execIaClz (g : BitVec 7) (u : BitVec 1) (s : BitVec 12) (st : State) : Out := runSlot (semIaClz g u s) st

/-- IA_CTZ (R72). -/
def semIaCtz (g : BitVec 7) (u : BitVec 1) (s : BitVec 12) : Sem :=
  iaOp g u s fun _ t => ctz64 t
def execIaCtz (g : BitVec 7) (u : BitVec 1) (s : BitVec 12) (st : State) : Out := runSlot (semIaCtz g u s) st

/-- IA_POPC (R72). -/
def semIaPopc (g : BitVec 7) (u : BitVec 1) (s : BitVec 12) : Sem :=
  iaOp g u s fun _ t => popc64 t
def execIaPopc (g : BitVec 7) (u : BitVec 1) (s : BitVec 12) (st : State) : Out := runSlot (semIaPopc g u s) st

/-- IA_SEXT (R72). -/
def semIaSext (g : BitVec 7) (u : BitVec 1) (s : BitVec 12) : Sem :=
  iaOp g u s fun o t => sext64 o t
def execIaSext (g : BitVec 7) (u : BitVec 1) (s : BitVec 12) (st : State) : Out := runSlot (semIaSext g u s) st

/-- IA_ZEXT (R72). -/
def semIaZext (g : BitVec 7) (u : BitVec 1) (s : BitVec 12) : Sem :=
  iaOp g u s fun o t => zext64 o t
def execIaZext (g : BitVec 7) (u : BitVec 1) (s : BitVec 12) (st : State) : Out := runSlot (semIaZext g u s) st

/-! ### Multiply and divide (R73, R74) -/

/-- Quotient and remainder as i64, rounded toward zero (R74). -/
def divS (o t : Word) : Word × Word :=
  if t = 0 then (Word.ones, o)
  else if o = BitVec.ofNat 64 (2 ^ 63) && t = Word.ones then (o, 0)
  else (BitVec.ofInt 64 (o.toInt.tdiv t.toInt), BitVec.ofInt 64 (o.toInt - o.toInt.tdiv t.toInt * t.toInt))

/-- Quotient and remainder as n64 (R74). -/
def divN (o t : Word) : Word × Word :=
  if t = 0 then (Word.ones, o)
  else (BitVec.ofNat 64 (o.toNat / t.toNat), BitVec.ofNat 64 (o.toNat - o.toNat / t.toNat * t.toNat))

/-- An operation of L = 3 that writes `im.r` only (R73). -/
def imOp (g : BitVec 7) (s : BitVec 12) (f : Word → Word → Word → Word) : Sem :=
  trigS g s fun t st => .ok (st.pushRes ResPorts.onImr 3 (.s (f st.me.ports.imo t st.me.ports.imp)))

/-- A divide of L = 24: one result to `im.r`, the other to `im.h` (R73). -/
def imDivOp (g : BitVec 7) (s : BitVec 12) (f : Word → Word → Word × Word) : Sem :=
  trigS g s fun t st =>
    let r := f st.me.ports.imo t
    .ok ((st.pushRes ResPorts.onImr 24 (.s r.1)).pushRes ResPorts.onImh 24 (.s r.2))

/-- IM_MUL (R73). -/
def semImMul (g : BitVec 7) (s : BitVec 12) : Sem :=
  imOp g s fun o t _ => o * t
def execImMul (g : BitVec 7) (s : BitVec 12) (st : State) : Out := runSlot (semImMul g s) st

/-- IM_MULHI (R73). -/
def semImMulhi (g : BitVec 7) (s : BitVec 12) : Sem :=
  imOp g s fun o t _ => BitVec.ofInt 64 (o.toInt * t.toInt / 2 ^ 64)
def execImMulhi (g : BitVec 7) (s : BitVec 12) (st : State) : Out := runSlot (semImMulhi g s) st

/-- IM_MULHN (R73). -/
def semImMulhn (g : BitVec 7) (s : BitVec 12) : Sem :=
  imOp g s fun o t _ => BitVec.ofNat 64 (o.toNat * t.toNat / 2 ^ 64)
def execImMulhn (g : BitVec 7) (s : BitVec 12) (st : State) : Out := runSlot (semImMulhn g s) st

/-- IM_DIV (R74). -/
def semImDiv (g : BitVec 7) (s : BitVec 12) : Sem :=
  imDivOp g s divS
def execImDiv (g : BitVec 7) (s : BitVec 12) (st : State) : Out := runSlot (semImDiv g s) st

/-- IM_DIVN (R74). -/
def semImDivn (g : BitVec 7) (s : BitVec 12) : Sem :=
  imDivOp g s divN
def execImDivn (g : BitVec 7) (s : BitVec 12) (st : State) : Out := runSlot (semImDivn g s) st

/-- IM_REM (R74). -/
def semImRem (g : BitVec 7) (s : BitVec 12) : Sem :=
  imDivOp g s fun o t => ((divS o t).2, (divS o t).1)
def execImRem (g : BitVec 7) (s : BitVec 12) (st : State) : Out := runSlot (semImRem g s) st

/-- IM_REMN (R74). -/
def semImRemn (g : BitVec 7) (s : BitVec 12) : Sem :=
  imDivOp g s fun o t => ((divN o t).2, (divN o t).1)
def execImRemn (g : BitVec 7) (s : BitVec 12) (st : State) : Out := runSlot (semImRemn g s) st

/-- IM_MAD (R73). -/
def semImMad (g : BitVec 7) (s : BitVec 12) : Sem :=
  imOp g s fun o t p => o * t + p
def execImMad (g : BitVec 7) (s : BitVec 12) (st : State) : Out := runSlot (semImMad g s) st

/-! ### Predicate unit (R75, R76) -/

/-- A pl operation: L = 1; bits that the guard does not select hold those of `pl.o` (R76). -/
def plOp (g : BitVec 7) (s : BitVec 12) (f : Word → Word → Word) : Sem :=
  trigP g s fun m t st =>
    let o := st.me.ports.plo
    .ok (st.pushRes ResPorts.onPlr 1 (.p (mergeBits m (f o t) o)))

def lowestBit (w : Word) : Word := w &&& (0 - w)

/-- Bit i is o[i] and (i < t) (R75). -/
def below (o t : Word) : Word := if 64 ≤ t.toNat then o else o &&& BitVec.ofNat 64 (2 ^ t.toNat - 1)

/-- PL_PAND (R75). -/
def semPlPand (g : BitVec 7) (s : BitVec 12) : Sem :=
  plOp g s fun o t => o &&& t
def execPlPand (g : BitVec 7) (s : BitVec 12) (st : State) : Out := runSlot (semPlPand g s) st

/-- PL_POR (R75). -/
def semPlPor (g : BitVec 7) (s : BitVec 12) : Sem :=
  plOp g s fun o t => o ||| t
def execPlPor (g : BitVec 7) (s : BitVec 12) (st : State) : Out := runSlot (semPlPor g s) st

/-- PL_PXOR (R75). -/
def semPlPxor (g : BitVec 7) (s : BitVec 12) : Sem :=
  plOp g s fun o t => o ^^^ t
def execPlPxor (g : BitVec 7) (s : BitVec 12) (st : State) : Out := runSlot (semPlPxor g s) st

/-- PL_PANDN (R75). -/
def semPlPandn (g : BitVec 7) (s : BitVec 12) : Sem :=
  plOp g s fun o t => o &&& ~~~t
def execPlPandn (g : BitVec 7) (s : BitVec 12) (st : State) : Out := runSlot (semPlPandn g s) st

/-- PL_PNOT (R75). -/
def semPlPnot (g : BitVec 7) (s : BitVec 12) : Sem :=
  plOp g s fun _ t => ~~~t
def execPlPnot (g : BitVec 7) (s : BitVec 12) (st : State) : Out := runSlot (semPlPnot g s) st

/-- PL_PALL (R75). -/
def semPlPall (g : BitVec 7) (s : BitVec 12) : Sem :=
  plOp g s fun o t => allWhen (o &&& t == o)
def execPlPall (g : BitVec 7) (s : BitVec 12) (st : State) : Out := runSlot (semPlPall g s) st

/-- PL_PANY (R75). -/
def semPlPany (g : BitVec 7) (s : BitVec 12) : Sem :=
  plOp g s fun o t => allWhen (o &&& t != 0)
def execPlPany (g : BitVec 7) (s : BitVec 12) (st : State) : Out := runSlot (semPlPany g s) st

/-- PL_PCNT (R75). -/
def semPlPcnt (g : BitVec 7) (s : BitVec 12) : Sem :=
  plOp g s fun o t => popc64 (o &&& t)
def execPlPcnt (g : BitVec 7) (s : BitVec 12) (st : State) : Out := runSlot (semPlPcnt g s) st

/-- PL_PFIRST (R75). -/
def semPlPfirst (g : BitVec 7) (s : BitVec 12) : Sem :=
  plOp g s fun o t => lowestBit (o &&& t)
def execPlPfirst (g : BitVec 7) (s : BitVec 12) (st : State) : Out := runSlot (semPlPfirst g s) st

/-- PL_PLT (R75). -/
def semPlPlt (g : BitVec 7) (s : BitVec 12) : Sem :=
  plOp g s fun o t => below o t
def execPlPlt (g : BitVec 7) (s : BitVec 12) (st : State) : Out := runSlot (semPlPlt g s) st

end Sys2Proof.Machine
end

