-- ==== Sys2Proof/Machine/Vector.lean ====
section
/-! DEFINITION. The vector unit's operations of fixed latency, and the trigger of `stopk` (R141 to R163). -/
namespace Sys2Proof.Machine

/-! ### The lane rule (R144) -/

def orAll (l : List Flags) : Flags := l.foldl (· ||| ·) 0

/-- Selected lanes take the computed value, the others lane i of `vx.o`; flags come from the selected
lanes (R55, R144). -/
def laneResult (m : Word) (o : Vec) (f : Nat → Flagged Lane) : Vec × Flags :=
  let rs := (List.range 64).map fun i => if m.getLsbD i then f i else (lane o i, 0)
  (rs.map (·.1), orAll (rs.map (·.2)))

/-- A vx trigger: vx held, then the operation on the mask and t. -/
def vxTrig (g : BitVec 7) (s : BitVec 12) (f : Word → Vec → Sem) : Sem :=
  leased .vx (trigV g s f)

/-- An elementwise operation of latency `l` writing `vx.r` (R142, R144). -/
def vxLanes (l : Nat) (g : BitVec 7) (s : BitVec 12) (f : State → Vec → Nat → Flagged Lane) : Sem :=
  vxTrig g s fun m t st =>
    let r := laneResult m st.myCore.vxo (f st t)
    .ok ((st.pushVxr l r.1).addFlags r.2)

def noFlag (x : Lane) : Flagged Lane := (x, 0)

/-- An integer operation of a = o[i] and b = t[i] (R145). -/
def vxInt (g : BitVec 7) (s : BitVec 12) (f : Lane → Lane → Lane) : Sem :=
  vxLanes 2 g s fun st t i => noFlag (f (lane st.myCore.vxo i) (lane t i))

/-- A compare: lane results, and `vx.m` of the selected lanes where it holds (R146, R149). -/
def vxCmpOp (l : Nat) (g : BitVec 7) (s : BitVec 12) (f : Lane → Lane → Bool × Flags) : Sem :=
  vxTrig g s fun m t st =>
    let o := st.myCore.vxo
    let hit := fun i => f (lane o i) (lane t i)
    let r := laneResult m o fun i => (if (hit i).1 then 0xFFFFFFFF else 0, (hit i).2)
    let mm := BitVec.ofNat 64 (bitsNat ((List.range 64).map fun i => m.getLsbD i && (hit i).1))
    .ok (((st.pushVxr l r.1).pushVxm l mm).addFlags r.2)

def vxCmp (g : BitVec 7) (s : BitVec 12) (f : Lane → Lane → Bool) : Sem :=
  vxCmpOp 2 g s fun a b => (f a b, 0)

/-- A floating operation of a, b and c = lane i of `vx.p` (R147). -/
def vxFloat (g : BitVec 7) (s : BitVec 12) (f : RM → Lane → Lane → Lane → Flagged Lane) : Sem :=
  vxLanes 4 g s fun st t i => f st.me.rm (lane st.myCore.vxo i) (lane t i) (lane st.myCore.vxp i)

/-- A transcendental operation or a conversion of b (R150, R151). -/
def vxUnary (g : BitVec 7) (s : BitVec 12) (f : RM → Lane → Flagged Lane) : Sem :=
  vxLanes 8 g s fun st t i => f st.me.rm (lane t i)

/-! ### Integer lanes (R145, R146) -/

def vshlLane (a b : Lane) : Lane := if 32 ≤ b.toNat then 0 else a <<< b.toNat
def vshrLane (a b : Lane) : Lane := if 32 ≤ b.toNat then 0 else a >>> b.toNat
def vsarLane (a b : Lane) : Lane :=
  if 32 ≤ b.toNat then (if a.msb then 0xFFFFFFFF else 0) else a.sshiftRight b.toNat
def leadingZeros (n : Nat) : Nat → Nat
  | 0 => 0
  | k + 1 => if n.testBit k then 0 else 1 + leadingZeros n k

/-! ### Floating lanes (R147 to R149) -/

/-- The sign of b changed; a NaN becomes canonical, a signalling one setting NV (R147). -/
def fSign (f : Lane → Lane) (b : Lane) : Flagged Lane :=
  match f32Of b with
  | .nan sig => (f32Nan, if sig then Flag.nv else 0)
  | _ => (f b, 0)

/-- A comparison of two f32: false with a NaN; a signalling one sets NV (R149). -/
def fCmp (f : Ordering → Bool) (a b : Lane) : Bool × Flags :=
  let x := f32Of a
  let y := f32Of b
  (!x.isNan && !y.isNan && f (fCompare x y), snanFlag [x, y])
def fUnordered (a b : Lane) : Bool × Flags :=
  let x := f32Of a
  let y := f32Of b
  (x.isNan || y.isNan, snanFlag [x, y])

/-! ### HX blocks (R152, R153) -/

/-- The bytes of a vector, lane i at bytes 4i to 4i + 3. -/
def vecBytes (v : Vec) : List Byte := (v.map fun x => natBytes 4 x.toNat).flatten
/-- A vector from bytes, zeros after them. -/
def bytesVec (bs : List Byte) : Vec := mkVec fun i => BitVec.ofNat 32 (leNat ((bs.drop (4 * i)).take 4))

/-- Quantise four blocks of sixteen lanes, unselected lanes entering as +0 (R152). -/
def quantise (h : Hx) (rm : RM) (m : Word) (t : Vec) : Vec × Flags :=
  let bs := (List.range 4).map fun b => h.encode rm ((List.range 16).map fun i =>
    if m.getLsbD (16 * b + i) then f32Of (lane t (16 * b + i)) else .fin false 0 0)
  (bytesVec (bs.map fun b => natBytes h.bytes b.1).flatten, orAll (bs.map (·.2)))

def vxQuantise (h : Hx) (g : BitVec 7) (s : BitVec 12) : Sem :=
  vxTrig g s fun m t st =>
    let r := quantise h st.me.rm m t
    .ok ((st.pushVxr 8 (laneResult m st.myCore.vxo fun i => noFlag (lane r.1 i)).1).addFlags r.2)

/-- Dequantise four blocks (R153). -/
def vxDequantise (h : Hx) (g : BitVec 7) (s : BitVec 12) : Sem :=
  vxLanes 8 g s fun _ t i => noFlag (h.lane (leNat (((vecBytes t).drop (i / 16 * h.bytes)).take h.bytes)) (i % 16))

/-! ### Permutes (R154) -/

/-- Lane n of o, an index of 64 or more selecting 0. -/
def pick (o : Vec) (n : Lane) : Lane := if 64 ≤ n.toNat then 0 else lane o n.toNat
def slidePick (o : Vec) (d : Lane) (i : Nat) : Lane :=
  let j : Int := i + d.toInt
  if 0 ≤ j && j < 64 then lane o j.toNat else 0
def vxPermute (g : BitVec 7) (s : BitVec 12) (f : Vec → Vec → Nat → Lane) : Sem :=
  vxLanes 2 g s fun st t i => noFlag (f st.myCore.vxo t i)

/-! ### Reductions and scans (R137, R138, R155, R156) -/

/-- One level of the pairwise tree, with flags. -/
def pairUpF (f : Lane → Lane → Flagged Lane) : List Lane → List Lane × Flags
  | a :: b :: rest =>
    let x := f a b
    let r := pairUpF f rest
    (x.1 :: r.1, x.2 ||| r.2)
  | l => (l, 0)
def treeF (f : Lane → Lane → Flagged Lane) : Nat → List Lane → Flagged Lane
  | 0, l => (l.getD 0 0, 0)
  | n + 1, l =>
    let r := pairUpF f l
    let t := treeF f n r.1
    (t.1, r.2 ||| t.2)

/-- The reduction over the lanes taking part, the others entering as a neutral value (R155). -/
def reduce (f : Lane → Lane → Flagged Lane) (neutral : Lane) (m : Word) (t : Vec) : Flagged Lane :=
  treeF f 6 ((List.range 64).map fun i => if m.getLsbD i then lane t i else neutral)

def vxReduce (g : BitVec 7) (s : BitVec 12) (neutral : Lane) (signed : Bool) (f : RM → Lane → Lane → Flagged Lane) : Sem :=
  vxTrig g s fun m t st =>
    let r := reduce (f st.me.rm) neutral m t
    let v := (laneResult m st.myCore.vxo fun _ => noFlag r.1).1
    .ok (((st.pushVxr 6 v).pushVxs 6 (if signed then r.1.signExtend 64 else r.1.zeroExtend 64)).addFlags r.2)

/-- The chain from the second lane on: running values, with flags (R156). -/
def scanFrom (f : Lane → Lane → Flagged Lane) : Lane → List Lane → List Lane × Flags
  | _, [] => ([], 0)
  | run, x :: xs =>
    let y := f run x
    let r := scanFrom f y.1 xs
    (y.1 :: r.1, y.2 ||| r.2)

def vxScan (g : BitVec 7) (s : BitVec 12) (neutral : Lane) (first : Lane → Flagged Lane)
    (f : RM → Lane → Lane → Flagged Lane) : Sem :=
  vxTrig g s fun m t st =>
    let xs := (List.range 64).map fun i => if m.getLsbD i then lane t i else neutral
    let h := first (xs.getD 0 0)
    let r := scanFrom (f st.me.rm) h.1 xs.tail
    let v := (laneResult m st.myCore.vxo fun i => noFlag ((h.1 :: r.1).getD i 0)).1
    .ok ((st.pushVxr 6 v).addFlags (h.2 ||| r.2))

/-- Lane 0 of `vfscan`: a NaN becomes canonical, a signalling one setting NV (R138). -/
def scanFirst (x : Lane) : Flagged Lane :=
  match f32Of x with
  | .nan sig => (f32Nan, if sig then Flag.nv else 0)
  | _ => (x, 0)

/-! ### Order keys and top k (R157, R158) -/

/-- Key types 0 f32, 1 i32, 2 and 3 n32 (R157). -/
def okey (x : Lane) (type : Nat) : Nat :=
  match type with
  | 0 =>
    if laneIsNan x then 0
    else
      let y := if x = 0x80000000 then 0 else x
      if y.msb then (~~~y).toNat else (y ^^^ 0x80000000).toNat
  | 1 => (x ^^^ 0x80000000).toNat
  | _ => x.toNat

/-- (key, index) a ranks before b (R157). -/
def ranksBefore (a b : Nat × Nat) : Bool := b.1 < a.1 || (a.1 == b.1 && a.2 < b.2)
def rankInsert (x : Nat × Nat) : List (Nat × Nat) → List (Nat × Nat)
  | [] => [x]
  | y :: ys => if ranksBefore x y then x :: y :: ys else y :: rankInsert x ys
/-- Sort by rank (R157). -/
def rankSort (l : List (Nat × Nat)) : List (Nat × Nat) := l.foldr rankInsert []

/-- The lanes that compete, in ranking order (R158). -/
def rankedLanes (m : Word) (t : Vec) (type : Nat) : List Nat :=
  (rankSort (((List.range 64).filter fun i => m.getLsbD i).map fun i => (okey (lane t i) type, i))).map (·.2)

def vtopkOp (m : Word) (t : Vec) (st : State) : SlotRes :=
  let cfg := (lane st.myCore.vxp 0).toNat
  let k := min (cfg % 128) 64
  let chosen := (rankedLanes m t (cfg / 256 % 4)).take k
  let v := (laneResult m st.myCore.vxo fun j =>
    noFlag (match chosen[j]? with | some i => BitVec.ofNat 32 i | none => 0xFFFFFFFF)).1
  let mm := BitVec.ofNat 64 (bitsNat ((List.range 64).map fun i => chosen.contains i))
  .ok (((st.pushVxr 8 v).pushVxm 8 mm).pushVxs 8 (BitVec.ofNat 64 chosen.length))

/-! ### stopk (R159 to R163) -/

/-- Whether a tile's ready tag is set (R167). -/
def Core.ready (k : Core) (t : Nat) : Bool := !mapGet false k.notReady t
def Core.setReady (k : Core) (t : Nat) (b : Bool) : Core := { k with notReady := mapSet false k.notReady t (!b) }

/-- `stopk` (R160 to R163).  A range that fails reports the address at which it starts (log entry 124). -/
def stopkOp (_m : Word) (t : Vec) (st : State) : SlotRes :=
  let f := fun i => (lane t i).toNat
  let koff := f 0
  let n := f 1
  let kk := f 2
  let ooff := f 3
  let ktype := f 4
  let tag := f 5
  let size := keyBytes ktype
  let k := min kk n
  let lim := st.myCore.spadBytes
  if 8 < ktype || n = 0 || 262144 < n || kk = 0 || 4096 < kk || 15 < tag then .plain .shapeRecord st
  else if koff % size != 0 then .trap .misaligned (BitVec.ofNat 64 (localBase + koff)) none st
  else if ooff % 8 != 0 then .trap .misaligned (BitVec.ofNat 64 (localBase + ooff)) none st
  else if lim < koff + n * size then .trap .scratchBounds (BitVec.ofNat 64 (localBase + koff)) none st
  else if lim < ooff + 8 * k then .trap .scratchBounds (BitVec.ofNat 64 (localBase + ooff)) none st
  else if st.myCore.stopk.isSome || !st.myCore.ready tag then .wait (.stopk tag) st
  else
    let x := st.me
    let op : Stopk := { q := st.cur.q, koff := koff, n := n, k := k, ooff := ooff, ktype := ktype, tag := tag,
                        epoch := x.epoch + 1, order := x.order, spoiled := false }
    .ok ((st.marker.modMyCore fun c => { (c.setReady tag false) with stopk := some op }))

/-- VX_VADD (R145). -/
def semVxVadd (g : BitVec 7) (s : BitVec 12) : Sem :=
  vxInt g s fun a b => a + b
def execVxVadd (g : BitVec 7) (s : BitVec 12) (st : State) : Out := runSlot (semVxVadd g s) st

/-- VX_VSUB (R145). -/
def semVxVsub (g : BitVec 7) (s : BitVec 12) : Sem :=
  vxInt g s fun a b => a - b
def execVxVsub (g : BitVec 7) (s : BitVec 12) (st : State) : Out := runSlot (semVxVsub g s) st

/-- VX_VMUL (R145). -/
def semVxVmul (g : BitVec 7) (s : BitVec 12) : Sem :=
  vxInt g s fun a b => a * b
def execVxVmul (g : BitVec 7) (s : BitVec 12) (st : State) : Out := runSlot (semVxVmul g s) st

/-- VX_VMULHI (R145). -/
def semVxVmulhi (g : BitVec 7) (s : BitVec 12) : Sem :=
  vxInt g s fun a b => BitVec.ofInt 32 (a.toInt * b.toInt / 2 ^ 32)
def execVxVmulhi (g : BitVec 7) (s : BitVec 12) (st : State) : Out := runSlot (semVxVmulhi g s) st

/-- VX_VMULHN (R145). -/
def semVxVmulhn (g : BitVec 7) (s : BitVec 12) : Sem :=
  vxInt g s fun a b => BitVec.ofNat 32 (a.toNat * b.toNat / 2 ^ 32)
def execVxVmulhn (g : BitVec 7) (s : BitVec 12) (st : State) : Out := runSlot (semVxVmulhn g s) st

/-- VX_VMIN (R145). -/
def semVxVmin (g : BitVec 7) (s : BitVec 12) : Sem :=
  vxInt g s fun a b => if a.slt b then a else b
def execVxVmin (g : BitVec 7) (s : BitVec 12) (st : State) : Out := runSlot (semVxVmin g s) st

/-- VX_VMAX (R145). -/
def semVxVmax (g : BitVec 7) (s : BitVec 12) : Sem :=
  vxInt g s fun a b => if a.slt b then b else a
def execVxVmax (g : BitVec 7) (s : BitVec 12) (st : State) : Out := runSlot (semVxVmax g s) st

/-- VX_VMINN (R145). -/
def semVxVminn (g : BitVec 7) (s : BitVec 12) : Sem :=
  vxInt g s fun a b => if a.ult b then a else b
def execVxVminn (g : BitVec 7) (s : BitVec 12) (st : State) : Out := runSlot (semVxVminn g s) st

/-- VX_VMAXN (R145). -/
def semVxVmaxn (g : BitVec 7) (s : BitVec 12) : Sem :=
  vxInt g s fun a b => if a.ult b then b else a
def execVxVmaxn (g : BitVec 7) (s : BitVec 12) (st : State) : Out := runSlot (semVxVmaxn g s) st

/-- VX_VAND (R145). -/
def semVxVand (g : BitVec 7) (s : BitVec 12) : Sem :=
  vxInt g s fun a b => a &&& b
def execVxVand (g : BitVec 7) (s : BitVec 12) (st : State) : Out := runSlot (semVxVand g s) st

/-- VX_VOR (R145). -/
def semVxVor (g : BitVec 7) (s : BitVec 12) : Sem :=
  vxInt g s fun a b => a ||| b
def execVxVor (g : BitVec 7) (s : BitVec 12) (st : State) : Out := runSlot (semVxVor g s) st

/-- VX_VXOR (R145). -/
def semVxVxor (g : BitVec 7) (s : BitVec 12) : Sem :=
  vxInt g s fun a b => a ^^^ b
def execVxVxor (g : BitVec 7) (s : BitVec 12) (st : State) : Out := runSlot (semVxVxor g s) st

/-- VX_VANDN (R145). -/
def semVxVandn (g : BitVec 7) (s : BitVec 12) : Sem :=
  vxInt g s fun a b => a &&& ~~~b
def execVxVandn (g : BitVec 7) (s : BitVec 12) (st : State) : Out := runSlot (semVxVandn g s) st

/-- VX_VSHL (R145). -/
def semVxVshl (g : BitVec 7) (s : BitVec 12) : Sem :=
  vxInt g s fun a b => vshlLane a b
def execVxVshl (g : BitVec 7) (s : BitVec 12) (st : State) : Out := runSlot (semVxVshl g s) st

/-- VX_VSHR (R145). -/
def semVxVshr (g : BitVec 7) (s : BitVec 12) : Sem :=
  vxInt g s fun a b => vshrLane a b
def execVxVshr (g : BitVec 7) (s : BitVec 12) (st : State) : Out := runSlot (semVxVshr g s) st

/-- VX_VSAR (R145). -/
def semVxVsar (g : BitVec 7) (s : BitVec 12) : Sem :=
  vxInt g s fun a b => vsarLane a b
def execVxVsar (g : BitVec 7) (s : BitVec 12) (st : State) : Out := runSlot (semVxVsar g s) st

/-- VX_VABS (R145). -/
def semVxVabs (g : BitVec 7) (s : BitVec 12) : Sem :=
  vxInt g s fun _ b => if b.msb then 0 - b else b
def execVxVabs (g : BitVec 7) (s : BitVec 12) (st : State) : Out := runSlot (semVxVabs g s) st

/-- VX_VNEG (R145). -/
def semVxVneg (g : BitVec 7) (s : BitVec 12) : Sem :=
  vxInt g s fun _ b => 0 - b
def execVxVneg (g : BitVec 7) (s : BitVec 12) (st : State) : Out := runSlot (semVxVneg g s) st

/-- VX_VCLZ (R145). -/
def semVxVclz (g : BitVec 7) (s : BitVec 12) : Sem :=
  vxInt g s fun _ b => BitVec.ofNat 32 (leadingZeros b.toNat 32)
def execVxVclz (g : BitVec 7) (s : BitVec 12) (st : State) : Out := runSlot (semVxVclz g s) st

/-- VX_VPOPC (R145). -/
def semVxVpopc (g : BitVec 7) (s : BitVec 12) : Sem :=
  vxInt g s fun _ b => BitVec.ofNat 32 (popCount b.toNat 32)
def execVxVpopc (g : BitVec 7) (s : BitVec 12) (st : State) : Out := runSlot (semVxVpopc g s) st

/-- VX_VCMPEQ (R146). -/
def semVxVcmpeq (g : BitVec 7) (s : BitVec 12) : Sem :=
  vxCmp g s fun a b => a == b
def execVxVcmpeq (g : BitVec 7) (s : BitVec 12) (st : State) : Out := runSlot (semVxVcmpeq g s) st

/-- VX_VCMPNE (R146). -/
def semVxVcmpne (g : BitVec 7) (s : BitVec 12) : Sem :=
  vxCmp g s fun a b => a != b
def execVxVcmpne (g : BitVec 7) (s : BitVec 12) (st : State) : Out := runSlot (semVxVcmpne g s) st

/-- VX_VCMPLT (R146). -/
def semVxVcmplt (g : BitVec 7) (s : BitVec 12) : Sem :=
  vxCmp g s fun a b => a.slt b
def execVxVcmplt (g : BitVec 7) (s : BitVec 12) (st : State) : Out := runSlot (semVxVcmplt g s) st

/-- VX_VCMPLE (R146). -/
def semVxVcmple (g : BitVec 7) (s : BitVec 12) : Sem :=
  vxCmp g s fun a b => a.sle b
def execVxVcmple (g : BitVec 7) (s : BitVec 12) (st : State) : Out := runSlot (semVxVcmple g s) st

/-- VX_VCMPLTN (R146). -/
def semVxVcmpltn (g : BitVec 7) (s : BitVec 12) : Sem :=
  vxCmp g s fun a b => a.ult b
def execVxVcmpltn (g : BitVec 7) (s : BitVec 12) (st : State) : Out := runSlot (semVxVcmpltn g s) st

/-- VX_VCMPLEN (R146). -/
def semVxVcmplen (g : BitVec 7) (s : BitVec 12) : Sem :=
  vxCmp g s fun a b => a.ule b
def execVxVcmplen (g : BitVec 7) (s : BitVec 12) (st : State) : Out := runSlot (semVxVcmplen g s) st

/-- VX_VFADD (R147). -/
def semVxVfadd (g : BitVec 7) (s : BitVec 12) : Sem :=
  vxFloat g s fun rm a b _ => f32Add rm a b
def execVxVfadd (g : BitVec 7) (s : BitVec 12) (st : State) : Out := runSlot (semVxVfadd g s) st

/-- VX_VFSUB (R147). -/
def semVxVfsub (g : BitVec 7) (s : BitVec 12) : Sem :=
  vxFloat g s fun rm a b _ => f32Sub rm a b
def execVxVfsub (g : BitVec 7) (s : BitVec 12) (st : State) : Out := runSlot (semVxVfsub g s) st

/-- VX_VFMUL (R147). -/
def semVxVfmul (g : BitVec 7) (s : BitVec 12) : Sem :=
  vxFloat g s fun rm a b _ => f32Mul rm a b
def execVxVfmul (g : BitVec 7) (s : BitVec 12) (st : State) : Out := runSlot (semVxVfmul g s) st

/-- VX_VFMA (R147). -/
def semVxVfma (g : BitVec 7) (s : BitVec 12) : Sem :=
  vxFloat g s fun rm a b c => f32Fma rm a b c
def execVxVfma (g : BitVec 7) (s : BitVec 12) (st : State) : Out := runSlot (semVxVfma g s) st

/-- VX_VFMIN (R148). -/
def semVxVfmin (g : BitVec 7) (s : BitVec 12) : Sem :=
  vxFloat g s fun _ a b _ => f32MinMax false a b
def execVxVfmin (g : BitVec 7) (s : BitVec 12) (st : State) : Out := runSlot (semVxVfmin g s) st

/-- VX_VFMAX (R148). -/
def semVxVfmax (g : BitVec 7) (s : BitVec 12) : Sem :=
  vxFloat g s fun _ a b _ => f32MinMax true a b
def execVxVfmax (g : BitVec 7) (s : BitVec 12) (st : State) : Out := runSlot (semVxVfmax g s) st

/-- VX_VFABS (R147). -/
def semVxVfabs (g : BitVec 7) (s : BitVec 12) : Sem :=
  vxFloat g s fun _ _ b _ => fSign (fun x => x &&& 0x7FFFFFFF) b
def execVxVfabs (g : BitVec 7) (s : BitVec 12) (st : State) : Out := runSlot (semVxVfabs g s) st

/-- VX_VFNEG (R147). -/
def semVxVfneg (g : BitVec 7) (s : BitVec 12) : Sem :=
  vxFloat g s fun _ _ b _ => fSign negLane b
def execVxVfneg (g : BitVec 7) (s : BitVec 12) (st : State) : Out := runSlot (semVxVfneg g s) st

/-- VX_VFRCP (R150). -/
def semVxVfrcp (g : BitVec 7) (s : BitVec 12) : Sem :=
  vxUnary g s f32Rcp
def execVxVfrcp (g : BitVec 7) (s : BitVec 12) (st : State) : Out := runSlot (semVxVfrcp g s) st

/-- VX_VFRSQRT (R150). -/
def semVxVfrsqrt (g : BitVec 7) (s : BitVec 12) : Sem :=
  vxUnary g s f32Rsqrt
def execVxVfrsqrt (g : BitVec 7) (s : BitVec 12) (st : State) : Out := runSlot (semVxVfrsqrt g s) st

/-- VX_VFSQRT (R150). -/
def semVxVfsqrt (g : BitVec 7) (s : BitVec 12) : Sem :=
  vxUnary g s f32Sqrt
def execVxVfsqrt (g : BitVec 7) (s : BitVec 12) (st : State) : Out := runSlot (semVxVfsqrt g s) st

/-- VX_VFEXP2 (R150). -/
def semVxVfexp2 (g : BitVec 7) (s : BitVec 12) : Sem :=
  vxUnary g s f32Exp2
def execVxVfexp2 (g : BitVec 7) (s : BitVec 12) (st : State) : Out := runSlot (semVxVfexp2 g s) st

/-- VX_VFLOG2 (R150). -/
def semVxVflog2 (g : BitVec 7) (s : BitVec 12) : Sem :=
  vxUnary g s f32Log2
def execVxVflog2 (g : BitVec 7) (s : BitVec 12) (st : State) : Out := runSlot (semVxVflog2 g s) st

/-- VX_VFCMPEQ (R149). -/
def semVxVfcmpeq (g : BitVec 7) (s : BitVec 12) : Sem :=
  vxCmpOp 4 g s (fCmp (· == .eq))
def execVxVfcmpeq (g : BitVec 7) (s : BitVec 12) (st : State) : Out := runSlot (semVxVfcmpeq g s) st

/-- VX_VFCMPLT (R149). -/
def semVxVfcmplt (g : BitVec 7) (s : BitVec 12) : Sem :=
  vxCmpOp 4 g s (fCmp (· == .lt))
def execVxVfcmplt (g : BitVec 7) (s : BitVec 12) (st : State) : Out := runSlot (semVxVfcmplt g s) st

/-- VX_VFCMPLE (R149). -/
def semVxVfcmple (g : BitVec 7) (s : BitVec 12) : Sem :=
  vxCmpOp 4 g s (fCmp (· != .gt))
def execVxVfcmple (g : BitVec 7) (s : BitVec 12) (st : State) : Out := runSlot (semVxVfcmple g s) st

/-- VX_VFCMPUN (R149). -/
def semVxVfcmpun (g : BitVec 7) (s : BitVec 12) : Sem :=
  vxCmpOp 4 g s fUnordered
def execVxVfcmpun (g : BitVec 7) (s : BitVec 12) (st : State) : Out := runSlot (semVxVfcmpun g s) st

/-- VX_VCVTIF (R151). -/
def semVxVcvtif (g : BitVec 7) (s : BitVec 12) : Sem :=
  vxUnary g s i32ToF32
def execVxVcvtif (g : BitVec 7) (s : BitVec 12) (st : State) : Out := runSlot (semVxVcvtif g s) st

/-- VX_VCVTFI (R151). -/
def semVxVcvtfi (g : BitVec 7) (s : BitVec 12) : Sem :=
  vxUnary g s f32ToI32
def execVxVcvtfi (g : BitVec 7) (s : BitVec 12) (st : State) : Out := runSlot (semVxVcvtfi g s) st

/-- VX_VCVTFBF (R151). -/
def semVxVcvtfbf (g : BitVec 7) (s : BitVec 12) : Sem :=
  vxUnary g s (f32Narrow .bf16)
def execVxVcvtfbf (g : BitVec 7) (s : BitVec 12) (st : State) : Out := runSlot (semVxVcvtfbf g s) st

/-- VX_VCVTBFF (R151). -/
def semVxVcvtbff (g : BitVec 7) (s : BitVec 12) : Sem :=
  vxUnary g s fun _ b => f32Widen .bf16 (b.toNat % 65536)
def execVxVcvtbff (g : BitVec 7) (s : BitVec 12) (st : State) : Out := runSlot (semVxVcvtbff g s) st

/-- VX_VCVTFH (R151). -/
def semVxVcvtfh (g : BitVec 7) (s : BitVec 12) : Sem :=
  vxUnary g s (f32Narrow .f16)
def execVxVcvtfh (g : BitVec 7) (s : BitVec 12) (st : State) : Out := runSlot (semVxVcvtfh g s) st

/-- VX_VCVTHF (R151). -/
def semVxVcvthf (g : BitVec 7) (s : BitVec 12) : Sem :=
  vxUnary g s fun _ b => f32Widen .f16 (b.toNat % 65536)
def execVxVcvthf (g : BitVec 7) (s : BitVec 12) (st : State) : Out := runSlot (semVxVcvthf g s) st

/-- VX_VQNT2 (R152). -/
def semVxVqnt2 (g : BitVec 7) (s : BitVec 12) : Sem :=
  vxQuantise .hx2 g s
def execVxVqnt2 (g : BitVec 7) (s : BitVec 12) (st : State) : Out := runSlot (semVxVqnt2 g s) st

/-- VX_VQNT4 (R152). -/
def semVxVqnt4 (g : BitVec 7) (s : BitVec 12) : Sem :=
  vxQuantise .hx4 g s
def execVxVqnt4 (g : BitVec 7) (s : BitVec 12) (st : State) : Out := runSlot (semVxVqnt4 g s) st

/-- VX_VQNT7 (R152). -/
def semVxVqnt7 (g : BitVec 7) (s : BitVec 12) : Sem :=
  vxQuantise .hx7 g s
def execVxVqnt7 (g : BitVec 7) (s : BitVec 12) (st : State) : Out := runSlot (semVxVqnt7 g s) st

/-- VX_VDEQ2 (R153). -/
def semVxVdeq2 (g : BitVec 7) (s : BitVec 12) : Sem :=
  vxDequantise .hx2 g s
def execVxVdeq2 (g : BitVec 7) (s : BitVec 12) (st : State) : Out := runSlot (semVxVdeq2 g s) st

/-- VX_VDEQ4 (R153). -/
def semVxVdeq4 (g : BitVec 7) (s : BitVec 12) : Sem :=
  vxDequantise .hx4 g s
def execVxVdeq4 (g : BitVec 7) (s : BitVec 12) (st : State) : Out := runSlot (semVxVdeq4 g s) st

/-- VX_VDEQ7 (R153). -/
def semVxVdeq7 (g : BitVec 7) (s : BitVec 12) : Sem :=
  vxDequantise .hx7 g s
def execVxVdeq7 (g : BitVec 7) (s : BitVec 12) (st : State) : Out := runSlot (semVxVdeq7 g s) st

/-- VX_VPERM (R154). -/
def semVxVperm (g : BitVec 7) (s : BitVec 12) : Sem :=
  vxPermute g s fun o t i => pick o (lane t i)
def execVxVperm (g : BitVec 7) (s : BitVec 12) (st : State) : Out := runSlot (semVxVperm g s) st

/-- VX_VBCAST (R154). -/
def semVxVbcast (g : BitVec 7) (s : BitVec 12) : Sem :=
  vxPermute g s fun o t _ => pick o (lane t 0)
def execVxVbcast (g : BitVec 7) (s : BitVec 12) (st : State) : Out := runSlot (semVxVbcast g s) st

/-- VX_VSLIDE (R154). -/
def semVxVslide (g : BitVec 7) (s : BitVec 12) : Sem :=
  vxPermute g s fun o t i => slidePick o (lane t 0) i
def execVxVslide (g : BitVec 7) (s : BitVec 12) (st : State) : Out := runSlot (semVxVslide g s) st

/-- VX_VGET (R154). -/
def semVxVget (g : BitVec 7) (s : BitVec 12) : Sem :=
  vxTrig g s fun _ t st => .ok (st.pushVxs 2 ((pick st.myCore.vxo (lane t 0)).zeroExtend 64))
def execVxVget (g : BitVec 7) (s : BitVec 12) (st : State) : Out := runSlot (semVxVget g s) st

/-- VX_VREDADD (R155). -/
def semVxVredadd (g : BitVec 7) (s : BitVec 12) : Sem :=
  vxReduce g s 0 true fun _ a b => noFlag (a + b)
def execVxVredadd (g : BitVec 7) (s : BitVec 12) (st : State) : Out := runSlot (semVxVredadd g s) st

/-- VX_VREDMIN (R155). -/
def semVxVredmin (g : BitVec 7) (s : BitVec 12) : Sem :=
  vxReduce g s 0x7FFFFFFF true fun _ a b => noFlag (if a.slt b then a else b)
def execVxVredmin (g : BitVec 7) (s : BitVec 12) (st : State) : Out := runSlot (semVxVredmin g s) st

/-- VX_VREDMAX (R155). -/
def semVxVredmax (g : BitVec 7) (s : BitVec 12) : Sem :=
  vxReduce g s 0x80000000 true fun _ a b => noFlag (if a.slt b then b else a)
def execVxVredmax (g : BitVec 7) (s : BitVec 12) (st : State) : Out := runSlot (semVxVredmax g s) st

/-- VX_VFREDADD (R155). -/
def semVxVfredadd (g : BitVec 7) (s : BitVec 12) : Sem :=
  vxReduce g s 0x80000000 false fun rm a b => f32Add rm a b
def execVxVfredadd (g : BitVec 7) (s : BitVec 12) (st : State) : Out := runSlot (semVxVfredadd g s) st

/-- VX_VFREDMIN (R155). -/
def semVxVfredmin (g : BitVec 7) (s : BitVec 12) : Sem :=
  vxReduce g s 0x7F800000 false fun _ a b => f32MinMax false a b
def execVxVfredmin (g : BitVec 7) (s : BitVec 12) (st : State) : Out := runSlot (semVxVfredmin g s) st

/-- VX_VFREDMAX (R155). -/
def semVxVfredmax (g : BitVec 7) (s : BitVec 12) : Sem :=
  vxReduce g s 0xFF800000 false fun _ a b => f32MinMax true a b
def execVxVfredmax (g : BitVec 7) (s : BitVec 12) (st : State) : Out := runSlot (semVxVfredmax g s) st

/-- VX_VSCAN (R156). -/
def semVxVscan (g : BitVec 7) (s : BitVec 12) : Sem :=
  vxScan g s 0 noFlag fun _ run x => noFlag (run + x)
def execVxVscan (g : BitVec 7) (s : BitVec 12) (st : State) : Out := runSlot (semVxVscan g s) st

/-- VX_VFSCAN (R156). -/
def semVxVfscan (g : BitVec 7) (s : BitVec 12) : Sem :=
  vxScan g s 0x80000000 scanFirst fun rm run x => f32Add rm run x
def execVxVfscan (g : BitVec 7) (s : BitVec 12) (st : State) : Out := runSlot (semVxVfscan g s) st

/-- VX_VTOPK (R158). -/
def semVxVtopk (g : BitVec 7) (s : BitVec 12) : Sem :=
  vxTrig g s vtopkOp
def execVxVtopk (g : BitVec 7) (s : BitVec 12) (st : State) : Out := runSlot (semVxVtopk g s) st

/-- VX_STOPK (R161). -/
def semVxStopk (g : BitVec 7) (s : BitVec 12) : Sem :=
  vxTrig g s stopkOp
def execVxStopk (g : BitVec 7) (s : BitVec 12) (st : State) : Out := runSlot (semVxStopk g s) st

end Sys2Proof.Machine
end

