-- ==== Sys2Proof/Machine/SlotDispatch.lean ====
section
/-! DEFINITION. The meaning that each slot word has as a slot of the bundle being issued, and the wide
immediate move, which can start any unit (R48, R65). -/
namespace Sys2Proof.Machine

/-- What a slot does; steps that are no slot words do nothing in a slot, and the wide immediate is below. -/
def plainSem : Instr → Sem
  | .move g d s => semMove g d s
  | .wideImmediateMove _ _ => fun st => .ok st
  | .header nm e1 e2 e3 x1 x2 x3 => semHeader nm e1 e2 e3 x1 x2 x3
  | .lqPop g d => semLqPop g d
  | .cxPop g d => semCxPop g d
  | .cqPop g d => semCqPop g d
  | .cqPush g s => semCqPush g s
  | .iaAdd g u s => semIaAdd g u s
  | .iaSub g u s => semIaSub g u s
  | .iaAnd g u s => semIaAnd g u s
  | .iaOr g u s => semIaOr g u s
  | .iaXor g u s => semIaXor g u s
  | .iaAndn g u s => semIaAndn g u s
  | .iaShl g u s => semIaShl g u s
  | .iaShr g u s => semIaShr g u s
  | .iaSar g u s => semIaSar g u s
  | .iaRotr g u s => semIaRotr g u s
  | .iaMin g u s => semIaMin g u s
  | .iaMax g u s => semIaMax g u s
  | .iaMinn g u s => semIaMinn g u s
  | .iaMaxn g u s => semIaMaxn g u s
  | .iaCmpeq g u s => semIaCmpeq g u s
  | .iaCmpne g u s => semIaCmpne g u s
  | .iaCmplt g u s => semIaCmplt g u s
  | .iaCmple g u s => semIaCmple g u s
  | .iaCmpltn g u s => semIaCmpltn g u s
  | .iaCmplen g u s => semIaCmplen g u s
  | .iaClz g u s => semIaClz g u s
  | .iaCtz g u s => semIaCtz g u s
  | .iaPopc g u s => semIaPopc g u s
  | .iaSext g u s => semIaSext g u s
  | .iaZext g u s => semIaZext g u s
  | .imMul g s => semImMul g s
  | .imMulhi g s => semImMulhi g s
  | .imMulhn g s => semImMulhn g s
  | .imDiv g s => semImDiv g s
  | .imDivn g s => semImDivn g s
  | .imRem g s => semImRem g s
  | .imRemn g s => semImRemn g s
  | .imMad g s => semImMad g s
  | .plPand g s => semPlPand g s
  | .plPor g s => semPlPor g s
  | .plPxor g s => semPlPxor g s
  | .plPandn g s => semPlPandn g s
  | .plPnot g s => semPlPnot g s
  | .plPall g s => semPlPall g s
  | .plPany g s => semPlPany g s
  | .plPcnt g s => semPlPcnt g s
  | .plPfirst g s => semPlPfirst g s
  | .plPlt g s => semPlPlt g s
  | .lqLdb g s => semLqLdb g s
  | .lqLdbs g s => semLqLdbs g s
  | .lqLdh g s => semLqLdh g s
  | .lqLdhs g s => semLqLdhs g s
  | .lqLdw g s => semLqLdw g s
  | .lqLdws g s => semLqLdws g s
  | .lqLdd g s => semLqLdd g s
  | .lqVld g s => semLqVld g s
  | .lqVldbf g s => semLqVldbf g s
  | .lqVldhf g s => semLqVldhf g s
  | .lqVldb g s => semLqVldb g s
  | .lqGth g s => semLqGth g s
  | .sqStb g s => semSqStb g s
  | .sqSth g s => semSqSth g s
  | .sqStw g s => semSqStw g s
  | .sqStd g s => semSqStd g s
  | .sqVst g s => semSqVst g s
  | .sqVstbf g s => semSqVstbf g s
  | .sqVsthf g s => semSqVsthf g s
  | .sqSct g s => semSqSct g s
  | .lqMark g s => semLqMark g s
  | .agSld g s => semAgSld g s
  | .agSst g s => semAgSst g s
  | .agSrld g s => semAgSrld g s
  | .agSset g s => semAgSset g s
  | .agSadv g s => semAgSadv g s
  | .agRfence g s => semAgRfence g s
  | .vxVadd g s => semVxVadd g s
  | .vxVsub g s => semVxVsub g s
  | .vxVmul g s => semVxVmul g s
  | .vxVmulhi g s => semVxVmulhi g s
  | .vxVmulhn g s => semVxVmulhn g s
  | .vxVmin g s => semVxVmin g s
  | .vxVmax g s => semVxVmax g s
  | .vxVminn g s => semVxVminn g s
  | .vxVmaxn g s => semVxVmaxn g s
  | .vxVand g s => semVxVand g s
  | .vxVor g s => semVxVor g s
  | .vxVxor g s => semVxVxor g s
  | .vxVandn g s => semVxVandn g s
  | .vxVshl g s => semVxVshl g s
  | .vxVshr g s => semVxVshr g s
  | .vxVsar g s => semVxVsar g s
  | .vxVabs g s => semVxVabs g s
  | .vxVneg g s => semVxVneg g s
  | .vxVclz g s => semVxVclz g s
  | .vxVpopc g s => semVxVpopc g s
  | .vxVcmpeq g s => semVxVcmpeq g s
  | .vxVcmpne g s => semVxVcmpne g s
  | .vxVcmplt g s => semVxVcmplt g s
  | .vxVcmple g s => semVxVcmple g s
  | .vxVcmpltn g s => semVxVcmpltn g s
  | .vxVcmplen g s => semVxVcmplen g s
  | .vxVfadd g s => semVxVfadd g s
  | .vxVfsub g s => semVxVfsub g s
  | .vxVfmul g s => semVxVfmul g s
  | .vxVfma g s => semVxVfma g s
  | .vxVfmin g s => semVxVfmin g s
  | .vxVfmax g s => semVxVfmax g s
  | .vxVfabs g s => semVxVfabs g s
  | .vxVfneg g s => semVxVfneg g s
  | .vxVfrcp g s => semVxVfrcp g s
  | .vxVfrsqrt g s => semVxVfrsqrt g s
  | .vxVfsqrt g s => semVxVfsqrt g s
  | .vxVfexp2 g s => semVxVfexp2 g s
  | .vxVflog2 g s => semVxVflog2 g s
  | .vxVfcmpeq g s => semVxVfcmpeq g s
  | .vxVfcmplt g s => semVxVfcmplt g s
  | .vxVfcmple g s => semVxVfcmple g s
  | .vxVfcmpun g s => semVxVfcmpun g s
  | .vxVcvtif g s => semVxVcvtif g s
  | .vxVcvtfi g s => semVxVcvtfi g s
  | .vxVcvtfbf g s => semVxVcvtfbf g s
  | .vxVcvtbff g s => semVxVcvtbff g s
  | .vxVcvtfh g s => semVxVcvtfh g s
  | .vxVcvthf g s => semVxVcvthf g s
  | .vxVqnt2 g s => semVxVqnt2 g s
  | .vxVqnt4 g s => semVxVqnt4 g s
  | .vxVqnt7 g s => semVxVqnt7 g s
  | .vxVdeq2 g s => semVxVdeq2 g s
  | .vxVdeq4 g s => semVxVdeq4 g s
  | .vxVdeq7 g s => semVxVdeq7 g s
  | .vxVperm g s => semVxVperm g s
  | .vxVbcast g s => semVxVbcast g s
  | .vxVslide g s => semVxVslide g s
  | .vxVget g s => semVxVget g s
  | .vxVredadd g s => semVxVredadd g s
  | .vxVredmin g s => semVxVredmin g s
  | .vxVredmax g s => semVxVredmax g s
  | .vxVfredadd g s => semVxVfredadd g s
  | .vxVfredmin g s => semVxVfredmin g s
  | .vxVfredmax g s => semVxVfredmax g s
  | .vxVscan g s => semVxVscan g s
  | .vxVfscan g s => semVxVfscan g s
  | .vxVtopk g s => semVxVtopk g s
  | .vxStopk g s => semVxStopk g s
  | .mxMma g s => semMxMma g s
  | .mxMmas g s => semMxMmas g s
  | .mxMmag g s => semMxMmag g s
  | .mxMzero g s => semMxMzero g s
  | .mxMdrain g s => semMxMdrain g s
  | .tfTld g s => semTfTld g s
  | .tfTbind g s => semTfTbind g s
  | .tfTst g s => semTfTst g s
  | .tfTrel g s => semTfTrel g s
  | .tfTcvt g s => semTfTcvt g s
  | .dgDq g s => semDgDq g s
  | .dgDqr g s => semDgDqr g s
  | .dgDqz g s => semDgDqz g s
  | .dgDfence g s => semDgDfence g s
  | .dgDrebuild g s => semDgDrebuild g s
  | .dgDregion g s => semDgDregion g s
  | .syAadd g s => semSyAadd g s
  | .syAmin g s => semSyAmin g s
  | .syAmax g s => semSyAmax g s
  | .syAminn g s => semSyAminn g s
  | .syAmaxn g s => semSyAmaxn g s
  | .syAand g s => semSyAand g s
  | .syAor g s => semSyAor g s
  | .syAxor g s => semSyAxor g s
  | .syAswp g s => semSyAswp g s
  | .syAcas g s => semSyAcas g s
  | .syAincb g s => semSyAincb g s
  | .syRel g s => semSyRel g s
  | .syAcq g s => semSyAcq g s
  | .syBget g s => semSyBget g s
  | .syBarv g s => semSyBarv g s
  | .syBwait g s => semSyBwait g s
  | .syBfree g s => semSyBfree g s
  | .sySstep g s => semSySstep g s
  | .sySpawn g s => semSySpawn g s
  | .cxSend g s => semCxSend g s
  | .cxMcst g s => semCxMcst g s
  | .kvFork g s => semKvFork g s
  | .kvFree g s => semKvFree g s
  | .kvPerm g s => semKvPerm g s
  | .kvApp g s => semKvApp g s
  | .kvMap g s => semKvMap g s
  | .epHist g s => semEpHist g s
  | .epRep g s => semEpRep g s
  | .epDone g s => semEpDone g s
  | .epGrad g s => semEpGrad g s
  | .xkKick g s => semXkKick g s
  | .crRd g s => semCrRd g s
  | .crWr g s => semCrWr g s
  | .crTlbinv g s => semCrTlbinv g s
  | .crCinv g s => semCrCinv g s
  | .crTrace g s => semCrTrace g s
  | .nop cond inv rest => semNop cond inv rest
  | .br cond inv pop off => semBr cond inv pop off
  | .brx cond inv pop reg => semBrx cond inv pop reg
  | .call cond inv off => semCall cond inv off
  | .ret cond inv => semRet cond inv
  | .loop reg fin => semLoop reg fin
  | .loopq fin => semLoopq fin
  | .halt cond inv => semHalt cond inv
  | .trap cond inv code => semTrap cond inv code
  | .rft => semRft
  | .wake cond inv off => semWake cond inv off
  | .cede mask => semCede mask
  | .wait ld st tiles => semWait ld st tiles
  | .brk cond inv code => semBrk cond inv code
  | .remwaysWrite _ _ => fun st => .ok st
  | .digbaseWrite _ => fun st => .ok st
  | .bundleIssue _ _ => fun st => .ok st
  | .fixedLatencyResult _ _ _ => fun st => .ok st
  | .loadPerformed _ _ => fun st => .ok st
  | .loadDataArrival _ _ _ => fun st => .ok st
  | .freezeEnd _ _ => fun st => .ok st
  | .flagWaitEnd _ _ => fun st => .ok st
  | .tlbWalk _ _ => fun st => .ok st
  | .merge _ _ => fun st => .ok st
  | .recordRead _ _ => fun st => .ok st
  | .recordCacheEmpty _ _ => fun st => .ok st
  | .tileOpComplete _ _ => fun st => .ok st
  | .tbindPinned _ _ => fun st => .ok st
  | .stopkComplete _ => fun st => .ok st
  | .mdrainRow _ => fun st => .ok st
  | .releasePerform _ _ => fun st => .ok st
  | .acquirePerform _ _ => fun st => .ok st
  | .atomicApply _ _ => fun st => .ok st
  | .remoteAtomicBatch _ => fun st => .ok st
  | .barrierArrival _ _ => fun st => .ok st
  | .bwaitLimitExpiry _ _ => fun st => .ok st
  | .communicationStepBegin _ => fun st => .ok st
  | .computationStepBegin _ => fun st => .ok st
  | .cxSendDepart _ => fun st => .ok st
  | .cxVectorArrive _ => fun st => .ok st
  | .cxMcstLand _ => fun st => .ok st
  | .circuitQueueEnlarge _ => fun st => .ok st
  | .trapEntry _ _ _ _ _ => fun st => .ok st
  | .deferredTrap _ _ => fun st => .ok st
  | .cancel _ _ => fun st => .ok st
  | .handlerBudgetExpiry _ _ => fun st => .ok st
  | .unitComplete _ _ => fun st => .ok st
  | .phaseRecordPost _ => fun st => .ok st
  | .startVector _ => fun st => .ok st
  | .childLaunchAccept _ _ => fun st => .ok st
  | .schedulerSelect _ => fun st => .ok st
  | .tokenAccrual _ => fun st => .ok st
  | .drainRedecision _ => fun st => .ok st
  | .safePointStop _ _ => fun st => .ok st
  | .checkpointWithdraw _ => fun st => .ok st
  | .checkpointSave _ => fun st => .ok st
  | .launchRestore _ => fun st => .ok st
  | .xformRequest _ _ => fun st => .ok st
  | .xformCompletion _ _ => fun st => .ok st
  | .histCountArrive => fun st => .ok st
  | .trestleWindowEnd => fun st => .ok st
  | .trestlePublish => fun st => .ok st
  | .epRepServe _ _ => fun st => .ok st
  | .slotRetire _ _ => fun st => .ok st
  | .epGradMerge _ _ => fun st => .ok st
  | .drebuildPerform _ _ => fun st => .ok st
  | .linkRowReceive _ _ _ => fun st => .ok st
  | .linkDown _ => fun st => .ok st
  | .routerDrain => fun st => .ok st
  | .throttleStepDown _ => fun st => .ok st
  | .throttleStepUp _ => fun st => .ok st
  | .thermalStop _ => fun st => .ok st
  | .coldReset _ _ => fun st => .ok st
  | .warmReset _ _ => fun st => .ok st
  | .attestationRequest _ => fun st => .ok st
  | .feataccWrite _ => fun st => .ok st
  | .imageLoad _ _ _ _ => fun st => .ok st
  | .imageUnload _ => fun st => .ok st
  | .hostWrite _ _ _ => fun st => .ok st
  | .hostRelease _ _ _ => fun st => .ok st
  | .hostTlbInvalidate _ _ _ => fun st => .ok st
  | .tcfgWrite _ => fun st => .ok st
  | .tresWrite _ => fun st => .ok st
  | .hostRegisterWrite _ _ => fun st => .ok st
  | .scratchpadStorePerformed _ _ => fun st => .ok st
  | .barrierEntryFree _ _ => fun st => .ok st
  | .softError _ _ => fun st => .ok st

/-- A wide immediate as the extension and the source of a move (R47, R50). -/
def wideSource (imm : BitVec 19) : BitVec 12 := 1#1 ++ (imm.truncate 11 : BitVec 11)
def State.wideExt (st : State) (imm : BitVec 19) : State :=
  { st with cur := { st.cur with ext := (List.range 4).map fun k =>
      if k = st.cur.slot then some ((imm >>> 11).truncate 8) else st.cur.ext.getD k none } }

/-- WIDE_IMMEDIATE_MOVE (R48): unguarded; a trigger port starts its unit with the immediate. -/
def semWideImmediateMove (d : BitVec 11) (imm : BitVec 19) : Sem := fun st =>
  match triggerOf 0 d.toNat (wideSource imm) with
  | some i => plainSem i (st.wideExt imm)
  | none => wideTo d.toNat (imm.signExtend 64) st
def execWideImmediateMove (d : BitVec 11) (imm : BitVec 19) (st : State) : Out := runSlot (semWideImmediateMove d imm) st

/-- What a slot does. -/
def slotSem : Instr → Sem
  | .wideImmediateMove d imm => semWideImmediateMove d imm
  | i => plainSem i

end Sys2Proof.Machine
end

