-- ==== Sys2Proof/Machine/Bundle.lean ====
section
/-! DEFINITION. The bundle: fetch (R86, R202, R206), the checks of R62 to R64 and R271, the freeze before
any slot commits (R98, R99), issue and the loop stack (R65, R66, R88). -/
namespace Sys2Proof.Machine

/-! ### Fields of slot words -/

def wordFormat (w : BitVec 32) : Nat := (fieldOf w 30 2).toNat
def wordGuard (w : BitVec 32) : Nat := (fieldOf w 23 6).toNat
/-- The destination of a move or a wide immediate. -/
def wordDest (w : BitVec 32) : Nat := if wordFormat w = 0 then (fieldOf w 12 11).toNat else (fieldOf w 19 11).toNat
def wordSource (w : BitVec 32) : Nat := (fieldOf w 0 12).toNat
def isMoveWord (w : BitVec 32) : Bool := w != 0 && wordFormat w < 2
def isHeaderWord (w : BitVec 32) : Bool := wordFormat w == 3
/-- A control word other than `nop` (R45). -/
def isControlWord (w : BitVec 32) : Bool := wordFormat w == 3 && (fieldOf w 25 5).toNat != 0
def controlCode (w : BitVec 32) : Nat := (fieldOf w 25 5).toNat

/-- Slot `k` of the bundle is not empty (R21, R45). -/
def slotOccupied (b : BitVec 128) (k : Nat) : Bool :=
  let w := slotWord b k
  w != 0 && !(k == 3 && isHeaderWord w && controlCode w == 0)

/-- The header's extensions, if slot 0 holds a header (R49). -/
def bundleExt (b : BitVec 128) : List (Option (BitVec 8)) :=
  let w := slotWord b 0
  if isHeaderWord w then headerExt (fieldOf w 28 1) (fieldOf w 27 1) (fieldOf w 26 1) (fieldOf w 16 8) (fieldOf w 8 8) (fieldOf w 0 8)
  else [none, none, none, none]

/-- The header sets the no-merge flag (R24, R49). -/
def bundleNoMerge (b : BitVec 128) : Bool := isHeaderWord (slotWord b 0) && fieldOf (slotWord b 0) 29 1 == 1

/-- The positions that the slots from `k` on occupy, with slot 0 for a header (R45). -/
def bundleOccupies (b : BitVec 128) (k : Nat) : List Nat :=
  (List.range 4).filter fun j => slotOccupied b j && (k ≤ j || (j == 0 && isHeaderWord (slotWord b 0)))

/-! ### What a slot reads, writes and triggers (R61, R63) -/

/-- The unit of a trigger address (R59). -/
def triggerUnit (d : Nat) : Option UnitId :=
  if !isTrigger d then none
  else if d < 0x140 then some .ia0
  else if d < 0x180 then some .ia1
  else if d < 0x1A0 then some .im
  else if d < 0x1C0 then some .pl
  else if d < 0x1CC then some .lq
  else if d < 0x1D4 then some .sq
  else if d < 0x1D5 then some .lq
  else if d < 0x200 then some .ag
  else if d < 0x300 then some .vx
  else if d < 0x305 then some .mx
  else if d < 0x340 then some .tf
  else if d < 0x360 then some .dg
  else if d < 0x373 then some .sy
  else if d < 0x3A0 then some .cx
  else if d < 0x3A5 then some .kv
  else if d < 0x3A9 then some .ep
  else if d < 0x3C0 then some .xk
  else some .cr

/-- The units that a slot triggers: `lq.mark` counts for lq and sq (R63). -/
def triggerUnits (d : Nat) : List UnitId := if d = 0x1D4 then [.lq, .sq] else (triggerUnit d).toList

/-- The operand ports of a unit, by destination address (R58, R61). -/
def unitPorts : UnitId → List Nat
  | .ia0 => [0xA0]
  | .ia1 => [0xA1]
  | .im => [0xA2, 0xA3]
  | .pl => [0xA4]
  | .vx => [0xA5, 0xA6]
  | .mx => [0xA7]
  | .tf => [0xA8]
  | .lq => [0xA9, 0xAA]
  | .sq => [0xAB]
  | .ag => [0xAC]
  | .dg => [0xAD]
  | .sy => [0xAE, 0xAF]
  | .cx => [0xB0]
  | .kv => [0xB1]
  | .ep => [0xB2]
  | .cr => [0xB3]
  | .xk => []

/-- Triggers that take a load-queue entry, and so read `lq.a` and `lq.b` (R61). -/
def takesLoad (d : Nat) : Bool :=
  (0x1C0 ≤ d && d ≤ 0x1CB) || d == 0x1D5 || d == 0x1D7 || (0x305 ≤ d && d ≤ 0x307) ||
  (0x340 ≤ d && d ≤ 0x342) || (0x360 ≤ d && d ≤ 0x36A) || d == 0x36C || d == 0x36D || d == 0x36F ||
  d == 0x3A4 || d == 0x3A6 || d == 0x3A7

/-- The queues, in the numbering of destinations: `cq.push` is the count queue. -/
def loadQueueKey : Nat := 0x1000
def circuitKey : Nat := 0x1001
def countKey : Nat := 0xB4

/-- A predicate as something read or written; p0 is neither (R63). -/
def predKey (n : Nat) : List Nat := if n = 0 then [] else [0x60 + n]

/-- The queue of a pop source (R57). -/
def popKey (a : Nat) : List Nat :=
  if a = 0xA9 then [loadQueueKey] else if a = 0xAA then [circuitKey] else if a = 0xAC then [countKey] else []

/-- What a source address reads: registers and queues; nothing in a bundle writes a result port. -/
def sourceKeys (a : Nat) : List Nat :=
  if a < 0x60 then [a] else if a < 0xA0 then predKey (a - 0x60) else popKey a

/-- What the destination of a move reads when it is a trigger (R61). -/
def triggerReads (d : Nat) : List Nat :=
  ((triggerUnits d).map unitPorts).flatten ++ (if takesLoad d then [0xA9, 0xAA] else [])

/-- What the destination of a move writes; `ag.sst` writes `sq.o` (R122), and `ep.hist`
pushes onto the count queue (R294). -/
def destKeys (d : Nat) : List Nat :=
  if 0x60 ≤ d && d < 0xA0 then predKey (d - 0x60)
  else if d < 0xB5 then [d]
  else if d = 0x1D6 then [0xAB]
  else if d = 0x3A5 then [countKey]
  else []

/-- Control operations that use a condition (R84). -/
def usesCondition (op : Nat) : Bool := (1 ≤ op && op ≤ 4) || op == 7 || op == 8 || op == 10 || op == 13

/-- What a control word reads and writes (R84 to R87). -/
def controlReads (w : BitVec 32) : List Nat :=
  let op := controlCode w
  (if usesCondition op then predKey (fieldOf w 19 6).toNat else []) ++
    (match op with
    | 2 => [(fieldOf w 0 6).toNat]
    | 4 => [63]
    | 5 => [(fieldOf w 12 6).toNat]
    | 6 => [countKey]
    | _ => [])
def controlWrites (w : BitVec 32) : List Nat :=
  match controlCode w with
  | 3 => [63]
  | 6 => [countKey]
  | _ => []

def slotReads (b : BitVec 128) (k : Nat) : List Nat :=
  let w := slotWord b k
  if isMoveWord w then
    (if wordFormat w = 0 then predKey (wordGuard w) ++ sourceKeys (wordSource w) else []) ++ triggerReads (wordDest w)
  else if k = 3 && isControlWord w then controlReads w
  else []

def slotWrites (b : BitVec 128) (k : Nat) : List Nat :=
  let w := slotWord b k
  if isMoveWord w then destKeys (wordDest w) ++ (if wordFormat w = 0 then popKey (wordSource w) else [])
  else if k = 3 && isControlWord w then controlWrites w
  else []

def slotUnits (b : BitVec 128) (k : Nat) : List UnitId :=
  let w := slotWord b k
  if isMoveWord w then triggerUnits (wordDest w) else []

/-- Slot `k` reads what an earlier slot writes, or triggers a unit that an earlier slot triggers (R63). -/
def slotClashes (b : BitVec 128) (k : Nat) : Bool :=
  (List.range k).any fun j =>
    (slotReads b k).any (fun r => (slotWrites b j).contains r) || (slotUnits b k).any (fun u => (slotUnits b j).contains u)

/-! ### Decode checks (R62 to R64, R271) -/

/-- An extension stands before a slot that is no move of an immediate (R50). -/
def extensionBroken (b : BitVec 128) : Bool :=
  [1, 2, 3].any fun k => ((bundleExt b).getD k none).isSome &&
    !(wordFormat (slotWord b k) == 0 && 0x800 ≤ wordSource (slotWord b k))

/-- The instructions of the four slots, when each slot word is one (R44). -/
def decodeBundle (b : BitVec 128) : Option (List Instr) :=
  match decodeSlot 0 (slotWord b 0), decodeSlot 1 (slotWord b 1), decodeSlot 2 (slotWord b 2), decodeSlot 3 (slotWord b 3) with
  | .ok i, .ok j, .ok k, .ok l => some [i, j, k, l]
  | _, _, _, _ => none

/-- In handler mode only a move in slot 0 and a control word in slot 3 (R271). -/
def handlerBundleOk (b : BitVec 128) : Bool :=
  !isHeaderWord (slotWord b 0) && !slotOccupied b 1 && !slotOccupied b 2 && !isMoveWord (slotWord b 3)

/-- R62, with R271 in handler mode. -/
def bundleIllegal (handler : Bool) (b : BitVec 128) : Bool :=
  (decodeBundle b).isNone || extensionBroken b || [1, 2, 3].any (slotClashes b) || (handler && !handlerBundleOk b)

/-- A reserved source or destination address (R56, R58, R59). -/
def slotReserved (b : BitVec 128) (k : Nat) : Bool :=
  let w := slotWord b k
  isMoveWord w &&
    ((0xB5 ≤ wordDest w && !isTrigger (wordDest w)) ||
      (wordFormat w == 0 && 0xB8 ≤ wordSource w && wordSource w < 0x800))

/-- A leased unit that the sequencer may not reach (R14, R270). -/
def State.slotNotOwned (s : State) (b : BitVec 128) (k : Nat) : Bool :=
  let w := slotWord b k
  isMoveWord w &&
    !(s.mayReach (destUnit (wordDest w)) && s.mayReach (triggerUnit (wordDest w)) &&
      (wordFormat w != 0 || s.mayReach (srcUnit (wordSource w))))

/-- The checks of R62 to R64 in their order, for the slots from `k` on. -/
def State.bundleCheck (s : State) (b : BitVec 128) (k : Nat) : Option Cause :=
  let rest := (List.range 4).filter (k ≤ ·)
  if bundleIllegal s.me.handler b then some .illegalBundle
  else if rest.any (slotReserved b) then some .reservedPort
  else if rest.any (s.slotNotOwned b) then some .unitNotOwned
  else none

/-! ### Fetch -/

/-- What fetching a bundle comes to. -/
inductive Fetched where
  | bundle (b : BitVec 128)
  | miss (va : Nat)
  | trap (c : Cause) (fault : Word)
  deriving DecidableEq, Repr

/-- Fetch the bundle at an address, at its place (R86, R202, R206). -/
def State.fetch (s : State) (c q : Nat) (a : Word) : Fetched :=
  match s.resolve c q .fetch a.toNat with
  | .miss => .miss (a.toNat / 65536 * 65536)
  | .trap k => .trap k a
  | .at l =>
    let r := s.readLoc l 16
    if r.2 || (match l with | .mem pa => s.cut (dieOf c) pa | .spad _ _ => false) then .trap .eccUncorrectable 0 else .bundle (BitVec.ofNat 128 (leNat r.1))

/-! ### Issue (R65) -/

/-- The issue starts: predicates as they stand at the start of the cycle, the header in force. -/
def State.startIssue (s : State) (c q : Nat) (ext : List (Option (BitVec 8))) : State :=
  let x := s.seq c q
  { s with cur := { core := c, q := q, addr := x.pc, slot := x.slot, ext := ext, preds := (x.start.map (·.1)).getD x.pregs,
                    order := (x.start.map (·.2)).getD x.order, popped := none, next := none, live := true } }

/-- The first freeze among the slots to be issued, each judged as if the slots before it had gone on (R98, R99). -/
def firstFreeze : List Sem → State → Option Hold
  | [], _ => none
  | m :: ms, s =>
    match m s with
    | .freeze h => some h
    | .ok s' => firstFreeze ms { s' with cur := { s'.cur with slot := s.cur.slot + 1, popped := none, taken := {}, takenAt := 0, live := true } }
    | .trap _ _ _ _ => firstFreeze ms { s with cur := { s.cur with slot := s.cur.slot + 1 } }
    | .after _ _ => firstFreeze ms { s with cur := { s.cur with slot := s.cur.slot + 1 } }
    | .wait _ _ => firstFreeze ms { s with cur := { s.cur with slot := s.cur.slot + 1 } }

/-- The slots commit in ascending order (R65). -/
def commitSlots (is : List Instr) (s : State) : State := is.foldl (fun s i => slotStep (slotSem i) s) s

/-- The loop stack after slot 3 (R88): the stack it leaves, and where the back edge leads. -/
def loopStep (a : Word) : List LoopEntry → List LoopEntry × Option Word
  | [] => ([], none)
  | e :: es =>
    if e.stop = a then
      if e.remaining - 1 = 0 then loopStep a es
      else ({ e with passes := e.passes + 1, remaining := e.remaining - 1 } :: es, some e.start)
    else (e :: es, none)

/-- The end of a bundle whose slots have all committed: the loop stack, then the next cycle (R67, R88). -/
def State.endBundle (s : State) : State :=
  if s.cur.live then
    match s.cur.next with
    | some a => (s.finishCycle s.cur.core s.cur.q a).endIssue
    | none =>
      let r := loopStep s.cur.addr s.me.loopStack
      ((s.modMe fun x => x.setLoopStack r.1).finishCycle s.cur.core s.cur.q (r.2.getD (s.cur.addr + 16))).endIssue
  else s

/-- Issue the slots of a bundle that has passed its checks and does not freeze. -/
def State.issueSlots (s : State) (c q : Nat) (b : BitVec 128) (is : List Instr) : State :=
  let k := (s.seq c q).slot
  (commitSlots (is.drop k) ((s.traceStallEnd c q).startIssue c q (bundleExt b))).endBundle

/-- What a sequencer's next bundle comes to before any slot commits. -/
inductive Ready where
  /-- The bundle has passed its checks and no slot freezes. -/
  | slots (b : BitVec 128) (is : List Instr)
  /-- The bundle fails a check of R62 to R64. -/
  | bad (b : BitVec 128) (c : Cause)
  /-- No bundle is there to issue: the fetch misses, or a slot freezes. -/
  | freeze (h : Hold)
  /-- The fetch traps. -/
  | fault (c : Cause) (fault : Word)
  deriving DecidableEq, Repr

/-- Fetch, check and look for a freeze. -/
def State.readyBundle (s : State) (c q : Nat) : Ready :=
  let x := s.seq c q
  match s.fetch c q x.pc with
  | .miss va => .freeze (.walk x.asid va)
  | .trap k a => .fault k a
  | .bundle b =>
    let s' := s.startIssue c q (bundleExt b)
    match s'.bundleCheck b x.slot with
    | some k => .bad b k
    | none =>
      match decodeBundle b with
      | none => .bad b .illegalBundle
      | some is =>
        match firstFreeze ((is.drop x.slot).map slotSem) s' with
        | some h => .freeze h
        | none => .slots b is

/-- The fault record of a handler's trap is not performed: its first bundle waits (R289). -/
def Seq.recordDue (x : Seq) : Bool := x.handler && x.stores.any fun st => x.faultOrder == some st.order

/-- The sequencer may issue: running, with no hold, no deferred trap due and no fault record awaited (R21, R289). -/
def Seq.mayIssue (x : Seq) : Bool := x.run == .running && x.hold.isNone && !x.deferredReady && !x.recordDue

/-- A bundle that the merge stage let go on issues, whatever has become pending since: that waits for the next boundary
(R23, R268). -/
def Seq.issuesGranted (x : Seq) : Bool := x.run == .running && x.hold.isNone && !x.recordDue

/-- q1 issues: its lost-merge count returns to 0 (R22). -/
def State.resetLost (s : State) (c q : Nat) : State := if q = 1 then s.modCore c fun k => { k with lost := 0 } else s

/-- The grants of the sequencer for this clock are used up. -/
def State.dropGrant (s : State) (c q : Nat) : State :=
  s.modCore c fun k => { k with grants := k.grants.filter fun g => g % 2 != q }

/-- The slot that a trap of the fetch reports: slot 0 for a poisoned bundle, the first uncommitted slot otherwise (R206,
R266). -/
def fetchSlot (c : Cause) (slot : Nat) : Nat := if c = .eccUncorrectable then 0 else slot

/-- A granted bundle issues; one that the merge stage did not look at, for its fetch missed or it froze,
only freezes or traps (R21, R65).  A bundle that fails a check of R62 to R64 reports slot 0, on a reissue too (R64). -/
def State.bundleIssue (s : State) (c q : Nat) : State :=
  let gs := (s.core c).grants
  if !(s.seq c q).issuesGranted then s.dropGrant c q
  else
    let s' := if gs.contains q then (s.dropGrant c q).resetLost c q else s.dropGrant c q
    let x := s'.seq c q
    let trap := fun (k : Cause) (slot : Nat) (a : Word) =>
      ((s'.traceStallEnd c q).takeTrap c q k slot a none false x.pc)
    match s'.readyBundle c q with
    | .freeze h => ((s'.startIssue c q []).holdAt h false)
    | .fault k a => trap k (fetchSlot k x.slot) a
    | .bad _ k => if gs.contains q then trap k 0 0 else s'
    | .slots b is => if gs.contains q then s'.issueSlots c q b is else s'

/-- BUNDLE_ISSUE (R65): only in a clock in which the merge stage lets the sequencer issue (R23). -/
def execBundleIssue (core q : Nat) (s : State) : Out :=
  if (s.core core).grants.any fun g => g % 2 == q then .next (s.bundleIssue core q) else .next s

end Sys2Proof.Machine
end

