-- ==== Sys2Proof/Machine/Barriers.lean ====
section
/-! DEFINITION. The queues' order of performance (R101, R102), and the barrier tables (R223 to R227). -/
namespace Sys2Proof.Machine

/-! ### The order of performance (R101, R102) -/

/-- The load-class entry to be performed next. -/
def Seq.nextLoad (x : Seq) : Option LoadEntry := x.allLoads.find? fun e => !e.performed

/-- The markers and the last `dg.dfence` before an entry hold it back no longer (R102, R247). -/
def Seq.loadMayGo (x : Seq) (e : LoadEntry) : Bool := x.stores.all fun st => e.epoch ≤ st.epoch && e.fence ≤ st.order

/-- The markers before a store-class entry hold it back no longer (R102). -/
def Seq.storeMayGo (x : Seq) (st : StoreEntry) : Bool := x.allLoads.all fun e => e.performed || st.epoch ≤ e.epoch

/-- The store-class entry at the head, when it may be performed. -/
def Seq.nextStore (x : Seq) : Option StoreEntry :=
  match x.stores with
  | st :: _ => if x.storeMayGo st then some st else none
  | [] => none

/-- Rewrite the entry of an order number; an entry that leaves nothing to pop goes once it is performed (R96). -/
def editLoads (order : Nat) (f : LoadEntry → LoadEntry) (l : List LoadEntry) : List LoadEntry :=
  (l.map fun e => if e.order = order then f e else e).filter fun e => !(e.silent && e.performed)

def Seq.editLoad (x : Seq) (order : Nat) (f : LoadEntry → LoadEntry) : Seq :=
  { x with loads := editLoads order f x.loads, handlerLoads := editLoads order f x.handlerLoads }

def State.editLoad (s : State) (c q order : Nat) (f : LoadEntry → LoadEntry) : State :=
  s.modSeq c q fun x => x.editLoad order f

/-- An entry is performed with its value; what it delivers may arrive later (R101). -/
def State.performed (s : State) (c q order : Nat) (v : Value) (mark : Option Cause) : State :=
  s.editLoad c q order fun e => { e with performed := true, value := v, mark := mark, parts := [] }

/-- The head of the store queue has been performed (R96). -/
def State.dropStore (s : State) (c q : Nat) : State := s.modSeq c q fun x => { x with stores := x.stores.tail }

/-! ### What an acquire orders and drops (R212, R218) -/

/-- An acquire by the entry of an order number: the copies that the signature names go, and cached frames; it takes over
`chain` where it synchronises (R121, R212, R218, R219). -/
def State.acquires (s : State) (c q order scope : Nat) (sig : BitVec 1024) (chain : Past) : State :=
  let s := (s.dropNamed c scope sig).modCore c fun k => k.join q (order + 1) chain
  s.modSeq c q fun x => { x with streams := x.streams.map fun e => (e.1, { e.2 with frame := none }) }

/-- The dirty sectors of the lines that an acquire drops wait for their stores first (R198, R218). -/
def State.dropWaits (s : State) (c scope : Nat) (sig : BitVec 1024) : Bool := 2 ≤ scope && (s.core c).dirtyNamed sig

/-! ### Handles (R223) -/

def handleIndex (h : Word) : Nat := bits h.toNat 11 0
def handleDie (h : Word) : Nat := bits h.toNat 19 18
def handleGen (h : Word) : Nat := bits h.toNat 31 20

def State.barrierAt (s : State) (d i : Nat) : Barrier := mapGet Barrier.init (s.die d).barriers i
def State.setBarrier (s : State) (d i : Nat) (b : Barrier) : State :=
  s.modDie d fun x => { x with barriers := mapSet Barrier.init x.barriers i b }

/-- The entry that a live handle names (R223). -/
def State.liveBarrier (s : State) (h : Word) : Option Barrier :=
  let b := s.barrierAt (handleDie h) (handleIndex h)
  if bits h.toNat 17 12 = 0 && b.taken && b.gen == handleGen h then some b else none

/-- The job of the launch on a core (R224). -/
def State.jobOf (s : State) (c : Nat) : Option Nat := (s.core c).launch.bind fun id => (s.launch id).map (·.vec.job)

/-- Take the lowest free entry of a die's table: its handle, or 0 (R224). -/
def State.takeBarrier (s : State) (c p : Nat) : Word × State :=
  let d := dieOf c
  match (List.range Config.barriers).find? fun i => !(s.barrierAt d i).taken with
  | some i =>
    if p = 0 then (0, s)
    else
      let gen := (s.barrierAt d i).gen % 4095 + 1
      (BitVec.ofNat 64 (i + d * 2 ^ 18 + gen * 2 ^ 20),
       s.setBarrier d i { Barrier.init with gen := gen, taken := true, parties := p, job := s.jobOf c })
  | none => (0, s)

/-! ### Waits (R226) -/

/-- What the arrivals up to a completed phase hand on to a waiter (R212, R213). -/
def Barrier.chainAt (b : Barrier) (c q scope p : Nat) : Past := chainOf (mapGet [] b.doneArrivals p) (c, q) scope

/-- A wait is decided: 0 acts as an acquire of the completed phase's signature, 1 orders nothing. -/
def State.waitZero (s : State) (c q order scope : Nat) (b : Barrier) (p : Nat) : State :=
  (s.acquires c q order scope (mapGet 0 b.doneSigs p) (b.chainAt c q scope p)).performed c q order (.s 0) none
/-- A wait whose phase has completed waits on for dirty sectors of what it drops (R198). -/
def State.zeroWaits (s : State) (c scope : Nat) (b : Barrier) (p : Nat) : Bool := s.dropWaits c scope (mapGet 0 b.doneSigs p)
def State.waitOne (s : State) (c q order : Nat) : State := s.performed c q order (.s 1) none

/-- A wait that has reached the table is decided once its phase has completed, or its handle is freed; one at another die's
table is lost when a ring link on the way goes down (R319). -/
def State.settleWait (s : State) (c q : Nat) : State :=
  match (s.seq c q).nextLoad with
  | some e =>
    match e.kind with
    | .bwait h _ _ scope (some p) =>
      if s.ringCut (dieOf c) (handleDie h) then s.performed c q e.order (.s 0) (some .eccUncorrectable) else
      match s.liveBarrier h with
      | none => s.waitOne c q e.order
      | some b => if p < b.phase && !s.zeroWaits c scope b p then s.waitZero c q e.order scope b p else s
    | _ => s
  | none => s

/-- The phase of a wait at the table, and the entry; none once its handle is freed. -/
def State.awaiting (s : State) (c q : Nat) : Option (Nat × Nat × Option Barrier) :=
  match (s.seq c q).nextLoad with
  | some e =>
    match e.kind with
    | .bwait h _ _ scope (some p) => some (scope, p, s.liveBarrier h)
    | _ => none
  | none => none

/-- A link has lost a wait that is at another die's table (R319). -/
def State.waitCut (s : State) (c q : Nat) : Bool :=
  match (s.seq c q).nextLoad with
  | some e => (match e.kind with | .bwait h _ _ _ (some _) => s.ringCut (dieOf c) (handleDie h) | _ => false)
  | none => false

/-- The handle of a wait at the table has been freed, with its job or by name (R224, R226, R227). -/
def State.waitFreed (s : State) (c q : Nat) : Bool := match s.awaiting c q with | some (_, _, none) => true | _ => false
/-- The phase of a wait has completed. -/
def State.waitMet (s : State) (c q : Nat) : Bool := match s.awaiting c q with | some (_, p, some b) => p < b.phase | _ => false
/-- A wait whose phase has completed can be decided now. -/
def State.waitEndsNow (s : State) (c q : Nat) : Bool :=
  match s.awaiting c q with
  | some (scope, p, some b) => p < b.phase && !s.zeroWaits c scope b p
  | _ => false

/-- Decide every wait of the package that can be decided. -/
def State.settleWaits (s : State) : State :=
  (s.coreIds.map fun c => [(c, 0), (c, 1)]).flatten.foldl (fun s u => s.settleWait u.1 u.2) s

/-- A wait reaches the table (R226), or a link loses it (R319). -/
def State.reachTable (s : State) (c q : Nat) (e : LoadEntry) (h : Word) (limit deadline scope : Nat) : State :=
  if s.ringCut (dieOf c) (handleDie h) then s.performed c q e.order (.s 0) (some .eccUncorrectable) else
  match s.liveBarrier h with
  | none => s.performed c q e.order (.s 0) (some .barrierGeneration)
  | some b =>
    let p := match (s.seq c q).arrival with
      | some (h', p) => if h' = h then p else b.phase
      | none => b.phase
    if b.phase ≤ p && limit ≠ 0xFFFFFFFF && deadline < s.clock then s.waitOne c q e.order
    else (s.editLoad c q e.order fun e => { e with kind := .bwait h limit deadline scope (some p) }).settleWait c q

/-- The limit of a wait runs out at the end of this clock (R226). -/
def Seq.limitDue (x : Seq) (clock : Nat) : Bool :=
  match x.nextLoad with
  | some e => match e.kind with
    | .bwait _ limit deadline _ (some _) => limit ≠ 0xFFFFFFFF && deadline ≤ clock
    | _ => false
  | none => false

/-- A wait whose limit has run out returns 1 (R226). -/
def State.expireWait (s : State) (c q : Nat) : State :=
  let x := s.seq c q
  match x.nextLoad with
  | some e => if x.limitDue s.clock && !s.waitMet c q && !s.waitCut c q then s.waitOne c q e.order else s
  | none => s

/-- BWAIT_LIMIT_EXPIRY (R226). -/
def execBwaitLimitExpiry (core q : Nat) (s : State) : Out := .next (s.expireWait core q)

/-! ### Arrivals (R225) -/

/-- Count an arrival at a live entry; a phase that completes decides its waits. -/
def State.countArrival (s : State) (h : Word) (b : Barrier) (carried : BitVec 1024) (r : Release) : State :=
  let sig := b.sig ||| carried
  let all := r.addTo b.arrivals
  let d := handleDie h
  let i := handleIndex h
  if b.count + 1 = b.parties then
    (s.setBarrier d i { b with
      sig := 0, count := 0, phase := b.phase + 1, doneSigs := mapInsert b.phase sig b.doneSigs, arrivals := all,
      doneArrivals := mapInsert b.phase all b.doneArrivals }).settleWaits
  else s.setBarrier d i { b with sig := sig, count := b.count + 1, arrivals := all }

/-- BARRIER_ARRIVAL (R225). -/
def execBarrierArrival (core q : Nat) (s : State) : Out :=
  match (s.seq core q).nextStore with
  | some st =>
    match st.kind with
    | .arrival h carried scope =>
      let s := s.dropStore core q
      if s.ringCut (dieOf core) (handleDie h) then .next (s.modSeq core q fun x => x.addPending .link) else
      match s.liveBarrier h with
      | none => .next (s.modSeq core q fun x => { x with rsig := x.rsig ||| carried }.addPending .barrierGeneration)
      | some b =>
        .next ((s.modSeq core q fun x => { x with arrival := some (h, b.phase) }).countArrival
          h b carried { party := some (core, q), scope := scope, chain := s.past core q st.chain })
    | _ => .next s
  | none => .next s

/-- BARRIER_ENTRY_FREE (R227): the waits of the entry return 1. -/
def execBarrierEntryFree (core q : Nat) (s : State) : Out :=
  match (s.seq core q).nextStore with
  | some st =>
    match st.kind with
    | .bfree h =>
      let s := s.dropStore core q
      if s.ringCut (dieOf core) (handleDie h) then .next (s.modSeq core q fun x => x.addPending .link) else
      match s.liveBarrier h with
      | none => .next (s.modSeq core q fun x => x.addPending .barrierGeneration)
      | some b => .next ((s.setBarrier (handleDie h) (handleIndex h) { b with taken := false }).settleWaits)
    | _ => .next s
  | none => .next s

end Sys2Proof.Machine
end

