-- ==== Sys2Proof/Machine/LoadEvents.lean ====
section
/-! DEFINITION. How load-class operations are performed, and how their data arrives (R97, R101, R104 to R106,
R110, R111, R115, R120, R218, R220 to R222, R243 to R246, R288, R299, R301). -/
namespace Sys2Proof.Machine

/-! ### Values of entries -/

/-- Sign- or zero-extend the bytes read (R104). -/
def scalarValue (signed : Bool) (bs : List Byte) : Word :=
  let n := 8 * bs.length
  let v := leNat bs
  if signed && bitAt v (n - 1) then BitVec.ofInt 64 ((v : Int) - 2 ^ n) else BitVec.ofNat 64 v

/-- The lanes of a vector load (R105). -/
def vectorValue (form : VectorForm) (bs : List Byte) : Vec :=
  mkVec fun i => match form with
    | .words => BitVec.ofNat 32 (field bs (4 * i) 4)
    | .bf16 => widenElem 9 (field bs (2 * i) 2)
    | .f16 => widenElem 8 (field bs (2 * i) 2)
    | .bytes => BitVec.ofNat 32 (field bs i 1)

/-- The lanes of a gather: 0 where none was selected (R106). -/
def gatherValue (src : List Nat) (bs : List Byte) : Vec :=
  mkVec fun i => match src.getD i 0 with
    | 0 => 0
    | k + 1 => BitVec.ofNat 32 (field bs (4 * k) 4)

/-- The lanes of a stream row (R114, R120). -/
def rowValue (fmt cols : Nat) (bs : List Byte) : Vec :=
  let ls := (tileLanes fmt 1 cols false bs).headD []
  mkVec fun i => ls.getD i 0

/-- A digest record as its 16 bytes give it (R236). -/
def recordOfBytes (bs : List Byte) : DigestRec :=
  let w := leNat bs
  { payload := BitVec.ofNat 96 w, stamp := BitVec.ofNat 16 (w / 2 ^ 96), valid := bitAt w 123, kind := BitVec.ofNat 4 (w / 2 ^ 124), poisoned := false }

def recordsOf (n : Nat) (bs : List Byte) : List DigestRec := (chunks 16 n bs).map recordOfBytes

/-- Rank values, the lanes from N on ranking last (R246). -/
def rankValues (n : Nat) (qsk : BitVec 96) (etype kind : Nat) (bs : List Byte) : Vec :=
  let rs := recordsOf n bs
  mkVec fun j => match rs[j]? with
    | some r => rankValue etype kind qsk r
    | none => rankLast etype kind

/-- Valid records, or records with an empty zero map (R245). -/
def zeroBits (n : Nat) (vmap : Bool) (bs : List Byte) : Word :=
  BitVec.ofNat 64 (bitsNat ((recordsOf n bs).map fun r => r.valid && (vmap || r.payload.toNat % 2 ^ 32 == 0)))

/-- What the bytes read make of an entry. -/
def entryValue (k : LoadKind) (bs : List Byte) : Value :=
  match k with
  | .scalar _ signed => .s (scalarValue signed bs)
  | .vector form => .v (vectorValue form bs)
  | .gather src => .v (gatherValue src bs)
  | .row fmt cols => .v (rowValue fmt cols bs)
  | .dq => .v (mkVec fun i => if i < 4 then BitVec.ofNat 32 (field bs (4 * i) 4) else 0)
  | .dqr n qsk etype kind => .v (rankValues n qsk etype kind bs)
  | .dqz n vmap => .p (zeroBits n vmap bs)
  | _ => .s 0

/-! ### Reading parts (R197, R198, R210, R240) -/

/-- A record that has been written back leaves the digest cache, and is read from its backing store again (R235, R242). -/
def State.reloadRecord (s : State) (line : Nat) : State :=
  match s.backing line with
  | some pa =>
    if mapGet false s.unsaved line then s
    else
      let r : DigestRec := { recordOfBytes (s.readMem pa 16) with poisoned := s.placePoisoned pa }
      { s with digests := mapSet DigestRec.init s.digests line r }
  | none => s

/-- The record of a line as it stands; a line that is in no region reads as all zeros. -/
def State.lineRecord (s : State) (line : Nat) : DigestRec :=
  match s.recordOf line with
  | some r => s.digest r.2
  | none => DigestRec.init

/-- The record of a line for a query that found its region under a registration: once that registration is gone, all
zeros (R245). -/
def State.recordAt (s : State) (line serial : Nat) : DigestRec :=
  match s.recordOf line with
  | some r => if r.1.serial = serial then s.digest r.2 else DigestRec.init
  | none => DigestRec.init

/-- Read one part: at home for a checked access, else through the cache banks. -/
def State.readPart (s : State) (c : Nat) (home : Bool) (p : Part) : (List Byte × Bool) × State :=
  match p with
  | .record line serial => let r := s.recordAt line serial; ((natBytes 16 r.word, r.poisoned || s.cut (dieOf c) line), s)
  | .bytes (.mem pa) n => if home then (s.homeReadFrom (dieOf c) pa n, s) else s.cachedRead c pa n
  | .bytes (.spad o off) n => (((s.core o).readSpad off n, (s.core o).spadPoisonedAt off n), s)

/-- The bytes of a part. -/
def Part.length : Part → Nat
  | .bytes _ n => n
  | .record _ _ => 16

/-- The first bytes of a part. -/
def Part.front (p : Part) (n : Nat) : Part :=
  match p with
  | .bytes l k => .bytes l (min k n)
  | .record line serial => .record line serial

def State.readParts (s : State) (c : Nat) (home : Bool) (ps : List Part) : (List Byte × Bool) × State :=
  ps.foldl (fun a p =>
    let r := a.2.readPart c home p
    ((a.1.1 ++ r.1.1, a.1.2 || r.1.2), r.2)) (([], false), s)

/-- The parts that one step reads with the head: those that lie in its line, each by the number of parts from there to
the end (R198, R210, R241). -/
def partsOfLine (pa : Nat) (ps : List Part) : List (Nat × (Nat × Nat)) :=
  ps.zipIdx.filterMap fun e => match e.1 with
    | .bytes (.mem a) n => if lineIndex a = lineIndex pa then some (ps.length - e.2, (a, n)) else none
    | _ => none

/-- Read one of an entry's parts, and with it every part of its line. -/
def State.readAt (s : State) (c : Nat) (ps : List Part) (i : Nat) : List (Nat × (List Byte × Bool)) × State :=
  match ps[i]? with
  | none => ([], s)
  | some (.bytes (.mem pa) _) =>
    let here := partsOfLine pa ps
    let r := s.cachedRuns c (lineIndex pa) (here.map (·.2))
    ((here.map (·.1)).zip r.1, r.2)
  | some p => let r := s.readPart c false p; ([(ps.length - i, r.1)], r.2)

/-- The parts at the head that have been read: their bytes, whether any was poisoned, and the parts after them. -/
def takeRead (have_ : List (Nat × (List Byte × Bool))) : List Part → (List Byte × Bool) × List Part
  | [] => (([], false), [])
  | p :: ps =>
    match have_.lookup (ps.length + 1) with
    | none => (([], false), p :: ps)
    | some r => let t := takeRead have_ ps; ((r.1 ++ t.1.1, r.2 || t.1.2), t.2)

/-- The stamp of the line read is the one asked for; a poisoned record never is (R111, R242). -/
def State.stampHolds (s : State) (e : LoadEntry) : Bool :=
  match e.check, e.parts with
  | some k, .bytes (.mem pa) _ :: _ => let r := s.lineRecord (pa / 256 * 256); !r.poisoned && r.stamp == k.stamp
  | _, _ => false

/-- The operation of tf that an entry belongs to (R167). -/
def Core.tfOpOf (k : Core) (q order : Nat) : Option TileOp := k.tfOps.find? fun o => o.q == q && o.order == order

/-- The runs that an entry has still to read of a line. -/
def LoadEntry.runsIn (e : LoadEntry) (line : Nat) : List (Nat × Nat) := (partsOfLine (line * 256) e.parts).map (·.2)

/-- An entry's read of a line through the cache banks follows the stores that are ordered before it; a checked one is
performed at home (R111, R212). -/
def State.freshFor (s : State) (c : Nat) (e : LoadEntry) (line : Nat) : State :=
  if e.check.isSome then s else s.freshLine c line (e.runsIn line) e.chain

/-- The same for the line of one of its parts. -/
def State.freshPart (s : State) (c : Nat) (e : LoadEntry) (p : Part) : State :=
  match p with
  | .bytes (.mem pa) _ => s.freshFor c e (lineIndex pa)
  | _ => s

/-- The same for the part at a place of those still to be read. -/
def State.freshAt (s : State) (c : Nat) (e : LoadEntry) (i : Nat) : State :=
  match e.parts[i]? with
  | some p => s.freshPart c e p
  | none => s

/-- A copy that an entry's read would replace has dirty sectors (R198, R212). -/
def State.freshWaits (s : State) (c : Nat) (e : LoadEntry) (i : Nat) : Bool :=
  match e.parts[i]? with
  | some (.bytes (.mem pa) _) => (s.core c).freshWaits c (lineIndex pa) (e.runsIn (lineIndex pa)) e.chain
  | _ => false

/-- The chunks of the zero-packed source that an entry reads (R171). -/
def State.packedChunks (s : State) (c q : Nat) (e : LoadEntry) : Option Nat :=
  match e.kind, (s.core c).tfOpOf q e.order with
  | .tileLoad, some o => match o.kind with
    | .load _ _ d => if d.zpack then some d.zChunks else none
    | _ => none
  | _, _ => none

/-- How many bytes of a packed source's next part a read of its chunks takes, header after header; `k` of them so far, after
the bytes `got` of the parts before (R171).  Bytes that a held header calls for are read, whatever header comes with them
from home (R198). -/
def State.packedReach (s : State) (c chunks : Nat) (got : List Byte) (p : Part) : Nat → Nat → Nat
  | 0, k => k
  | fuel + 1, k =>
    let bs := (s.readPart c false (p.front k)).1.1
    let want := min p.length (zNeed chunks 0 (got ++ bs) - got.length)
    if want ≤ k then k else s.packedReach c chunks got p fuel want

/-- What an entry has still to read: a packed source ends with its last chunk (R171, R207). -/
def State.toRead (s : State) (c q : Nat) (e : LoadEntry) : List Part :=
  match s.packedChunks c q e, e.parts with
  | some n, p :: ps =>
    let k := s.packedReach c n e.got p 34 (min p.length (zNeed n 0 e.got - e.got.length))
    if k < p.length || zNeed n 0 (e.got ++ (s.readPart c false (p.front k)).1.1) ≤ e.got.length + k then [p.front k] else p :: ps
  | _, _ => e.parts

/-- The read of an entry's next line waits for stores of its own core (R198). -/
def State.readWaits (s : State) (c q : Nat) (e : LoadEntry) : Bool :=
  let t := s.freshAt c e 0
  match e.check, t.toRead c q e with
  | none, .bytes (.mem pa) n :: _ => s.freshWaits c e 0 ||
    (t.core c).bankWaits (lineIndex pa) (if (s.packedChunks c q e).isSome then [(pa, n)] else (partsOfLine pa e.parts).map (·.2))
  | _, _ => false

/-! ### LOAD_PERFORMED (R101) -/

/-- The last byte has been read. -/
def State.finishLoad (s : State) (c q : Nat) (e : LoadEntry) : State :=
  match e.kind with
  | .tileLoad =>
    (s.modCore c fun k => { k with tfOps := k.tfOps.map (fun o =>
      if o.q == q && o.order == e.order then { o with got := e.got, ready := true, poisoned := e.poisoned } else o) }).editLoad
        c q e.order fun _ => { e with performed := true, parts := [], got := [] }
  | k => s.editLoad c q e.order fun _ =>
    { e with performed := true, parts := [], got := [], value := entryValue k e.got,
             mark := if e.poisoned then some .eccUncorrectable else none }

/-- A checked access reads its whole line together with the stamp, at home (R111). -/
def State.checkedStep (s : State) (c q : Nat) (e : LoadEntry) : State :=
  let r := s.readParts c true e.parts
  r.2.finishLoad c q { e with got := e.got ++ r.1.1, parts := [], poisoned := e.poisoned || r.1.2, stampOk := s.stampHolds e }

/-- Read the next line of a packed source, as far as its chunks reach (R171). -/
def State.packedStep (s : State) (c q : Nat) (e : LoadEntry) : State :=
  match s.toRead c q e with
  | [] => s.finishLoad c q e
  | p :: ps =>
    let r := s.readPart c false p
    let e' := { e with got := e.got ++ r.1.1, parts := ps, poisoned := e.poisoned || r.1.2 }
    if ps.isEmpty then r.2.finishLoad c q e' else r.2.editLoad c q e.order fun _ => e'

/-- Read the line of one of an entry's parts; what stands at its head and has been read then leaves the parts (R101,
R210). -/
def State.partStep (s : State) (c q : Nat) (e : LoadEntry) (i : Nat) : State :=
  let r := (s.freshAt c e i).readAt c e.parts i
  let have_ := r.1 ++ e.ahead
  let t := takeRead have_ e.parts
  let e' := { e with got := e.got ++ t.1.1, parts := t.2, ahead := have_, poisoned := e.poisoned || t.1.2 }
  if t.2.isEmpty then r.2.finishLoad c q { e' with ahead := [] } else r.2.editLoad c q e.order fun _ => e'

/-- Read the next line of an entry, or the whole of a checked one (R101, R111, R210). -/
def State.loadStep (s : State) (c q : Nat) (e : LoadEntry) : State :=
  if e.check.isSome then s.checkedStep c q e
  else if (s.packedChunks c q e).isSome then (s.freshAt c e 0).packedStep c q e
  else s.partStep c q e 0

/-- The parts of an entry beyond the head's line that may be read before it: no rule orders the reads of one operation
(R101, R340).  A checked access reads all at once, and a packed source shows as it is read what follows (R111, R171). -/
def State.partsAhead (s : State) (c q : Nat) (e : LoadEntry) : List Nat :=
  if e.check.isSome || (s.packedChunks c q e).isSome then []
  else (List.range e.parts.length).filter fun i => 0 < i && (e.ahead.lookup (e.parts.length - i)).isNone &&
    (match e.parts[i]? with
      | some (.bytes (.mem pa) _) =>
        !(e.parts.head?.any fun p => match p with | .bytes (.mem a) _ => lineIndex a == lineIndex pa | _ => false) &&
          !s.freshWaits c e i && !((s.freshAt c e i).core c).bankWaits (lineIndex pa) ((partsOfLine pa e.parts).map (·.2))
      | some _ => true
      | none => false)

/-- A kv.map's entry is marked by a table word that fails its access (R288). -/
def State.mapFails (s : State) (c q : Nat) (e : LoadEntry) (cause : Cause) (va : Nat) : State :=
  s.editLoad c q e.order fun e => { e with performed := true, mark := some cause, markAddr := BitVec.ofNat 64 va }

/-- `kv.map` reads its next table word, or delivers what its words make (R288), after the kv operations of the core that
were triggered before it (R283). -/
def State.performMap (s : State) (c q : Nat) (e : LoadEntry) : State :=
  let v := s.mapView c q e
  match s.mapLook c q e with
  | .ok w => s.performed c q e.order (.s w) none
  | .error (.access cause va) => s.mapFails c q e cause va
  | .error (.fault cause faults r) =>
    if (v.recordMiss c q faults).isSome then s
    else ((v.kvRecord c q faults r).performed c q e.order (.s 0) (some cause)).modSeq c q fun x => { x with walks := (s.seq c q).walks }
  | .error (.need va n) => (match v.kvGet c q va n with
    | .ok w => s.editLoad c q e.order fun e => { e with words := e.words ++ [((va, n), w)] }
    | .error (.access cause va) => s.mapFails c q e cause va
    | .error _ => s)
  | .error (.miss _) => s

/-- A tile load is read once its operation is the one that tf serves (R167). -/
def Core.tfServes (k : Core) (q order : Nat) : Bool :=
  match k.tfOps with
  | o :: _ => o.q == q && o.order == order
  | [] => false

/-- A `kv.map` waits for the kv operations of the core that were triggered before it (R283). -/
def Core.mapWaits (k : Core) (q : Nat) (e : LoadEntry) : Bool :=
  match e.mapTurn with
  | some turn => k.kvBehind q turn || !(k.seq (1 - q)).kvOver
  | none => false

/-- The operations that LOAD_PERFORMED performs. -/
def LoadEntry.plainLoad (e : LoadEntry) : Bool :=
  match e.kind with
  | .scalar .. | .vector _ | .gather _ | .row .. | .tileLoad | .dq | .dqr .. | .dqz .. | .kvMap .. => true
  | .bwait _ _ _ _ awaited => awaited.isNone
  | .epDone t => !t.getLsbD 24
  | .record _ | .bind | .acquire _ | .atomic .. | .bget _ | .epRep _ => false

def State.performLoad (s : State) (c q : Nat) (e : LoadEntry) : State :=
  match e.kind with
  | .kvMap .. => s.performMap c q e
  | .bwait h limit deadline scope _ => s.reachTable c q e h limit deadline scope
  | .epDone t => (s.endRow t).performed c q e.order (.s 0) none
  | .tileLoad => if (s.core c).tfServes q e.order then s.loadStep c q e else s
  | _ => s.loadStep c q e

/-- The next load-class operation, when it may be performed and satisfies a test. -/
def Seq.loadReady (x : Seq) (p : LoadEntry → Bool) : Option LoadEntry :=
  match x.nextLoad with
  | some e => if x.loadMayGo e && p e then some e else none
  | none => none

/-- An operation that reads its parts one by one, and is not held back by its unit. -/
def Core.readsParts (k : Core) (q : Nat) (e : LoadEntry) : Bool :=
  match e.kind with
  | .scalar .. | .vector _ | .gather _ | .row .. | .dq | .dqr .. | .dqz .. => true
  | .tileLoad => k.tfServes q e.order
  | _ => false

/-- The next load-class operation of a sequencer reads a part before those that stand first (R340). -/
def State.readAhead (s : State) (c q i : Nat) : State :=
  match (s.seq c q).loadReady fun e => (s.core c).readsParts q e && (s.partsAhead c q e).contains i with
  | some e => s.partStep c q e i
  | none => s

/-- The parts that the next load-class operation of a sequencer may read before those that stand first. -/
def State.aheadOf (s : State) (c q : Nat) : List Nat :=
  match (s.seq c q).loadReady ((s.core c).readsParts q) with
  | some e => s.partsAhead c q e
  | none => []

/-- Nothing outside its queues holds a load back (R198, R203, R283). -/
def State.loadFree (s : State) (c q : Nat) (e : LoadEntry) : Bool :=
  !s.readWaits c q e && !(s.core c).mapWaits q e && !(e.mapTurn.isSome && (s.mapMissOf c q e).isSome)

/-- LOAD_PERFORMED (R101). -/
def execLoadPerformed (core q : Nat) (s : State) : Out :=
  match (s.seq core q).loadReady fun e => e.plainLoad && s.loadFree core q e with
  | some e => .next (s.performLoad core q e)
  | none => .next s

/-! ### LOAD_DATA_ARRIVAL (R97) -/

/-- Entries whose value comes on its own once performed; tile loads and binds set it when they complete, and the
reply of a remote atomic comes in a clock of its own (R222). -/
def LoadEntry.mayArrive (e : LoadEntry) (clock : Nat) : Bool :=
  e.performed && !e.arrived && e.landsAt ≤ clock && e.fillAt ≤ clock && (match e.kind with | .tileLoad | .bind => false | _ => true)

/-- LOAD_DATA_ARRIVAL (R97): the entry at a place of the queues. -/
def execLoadDataArrival (core q idx : Nat) (s : State) : Out :=
  match (s.seq core q).allLoads[idx]? with
  | some e => if e.mayArrive s.clock then .next (s.editLoad core q e.order fun e => { e with arrived := true }) else .next s
  | none => .next s

/-! ### RECORD_READ and RECORD_CACHE_EMPTY (R115, R117, R123) -/

def isRecord (e : LoadEntry) : Bool := match e.kind with | .record _ => true | _ => false

/-- The physical tag of a record; a record in a scratchpad is not kept. -/
def recordTag (e : LoadEntry) : Option Nat :=
  match e.parts with
  | .bytes (.mem pa) _ :: _ => some pa
  | _ => none

/-- The fences that were pending when a record read was triggered. -/
def fencesOf (e : LoadEntry) : List (Nat × Nat) := match e.kind with | .record fences => fences | _ => []

/-- The cached record of a tag.  A read that came after fences which are still pending hits only an entry that a read
after the same fences has filled (R123). -/
def Core.recordHit (k : Core) (fences : List (Nat × Nat)) (t : Nat) : Option (List Byte) :=
  let still := fences.filter k.rfences.contains
  if still.all (mapGet [] k.refills t).contains then k.records.lookup t else none

/-- Read a record through the record cache (R115, R123). -/
def State.readShape (s : State) (c : Nat) (e : LoadEntry) : Option (List Byte) × State :=
  let k := s.core c
  let hit := (recordTag e).bind (k.recordHit (fencesOf e))
  match hit, recordTag e with
  | some b, some t => (some b, s.setCore c { k with records := (t, b) :: k.records.filter fun r => r.1 != t })
  | _, tag =>
    let r := (e.parts.foldl (fun s p => s.freshPart c e p) s).readParts c false e.parts
    if r.1.2 then (none, r.2)
    else match tag with
      | some t => (some r.1.1, r.2.modCore c fun k =>
          { k with records := ((t, r.1.1) :: k.records.filter fun r => r.1 != t).take Config.recordEntries,
                   refills := mapInsert t (fencesOf e) k.refills })
      | none => (some r.1.1, r.2)

/-- What the `ag.rfence`s that stood before a record read wait for is performed: their stores before the read (R123,
R339). -/
def Core.fencesPassed (k : Core) (e : LoadEntry) : Bool :=
  (fencesOf e).all fun f => (k.seq f.1).stores.all (f.2 < ·.epoch)

/-- RECORD_READ (R115). -/
def execRecordRead (core q : Nat) (s : State) : Out :=
  match (s.seq core q).loadReady fun e => isRecord e && (s.core core).fencesPassed e && !s.readWaits core q e with
  | some e =>
    let r := s.readShape core e
    .next ((r.2.editLoad core q e.order fun e => { e with performed := true }).modSeq core q fun x => { x with recordBuf := some r.1 })
  | none => .next s

/-- Everything of an epoch or before has been performed. -/
def Seq.epochDone (x : Seq) (e : Nat) : Bool := x.stores.all (e < ·.epoch) && x.allLoads.all fun l => l.performed || e < l.epoch

/-- The fences of a sequencer that have everything ahead of them performed (R123). -/
def State.fenceDue (s : State) (c q : Nat) : Bool :=
  (s.core c).rfences.any fun f => f.1 == q && (s.seq c q).epochDone f.2

/-- RECORD_CACHE_EMPTY (R123). -/
def execRecordCacheEmpty (core q : Nat) (s : State) : Out :=
  if s.fenceDue core q then
    .next (s.modCore core fun k =>
      { k with records := [], refills := [], rfences := k.rfences.filter fun f => !(f.1 == q && (s.seq core q).epochDone f.2) })
  else .next s

/-! ### ACQUIRE_PERFORM (R218) -/

def isAcquire (e : LoadEntry) : Bool := match e.kind with | .acquire _ => true | _ => false

/-- What an acquire of a word takes over: nothing unless a release wrote its value, at scopes that meet (R213, R219). -/
def State.chainAt (s : State) (c q pa scope : Nat) : Past := chainOf (mapGet none s.released pa).toList (c, q) scope

/-- The dirty sectors of the lines that an acquire drops wait for their stores first (R198, R218). -/
def State.acquireWaits (s : State) (c : Nat) (e : LoadEntry) : Bool :=
  match e.kind, e.parts with
  | .acquire scope, .bytes (.mem pa) _ :: _ => s.dropWaits c scope (s.sigOf pa)
  | _, _ => false

/-- ACQUIRE_PERFORM (R218): the word and its signature, read at home, and the drops, in one step. -/
def execAcquirePerform (core q : Nat) (s : State) : Out :=
  match (s.seq core q).loadReady fun e => isAcquire e && !s.acquireWaits core e with
  | some e =>
    match e.kind, e.parts with
    | .acquire scope, .bytes (.mem pa) n :: _ =>
      let r := s.homeReadFrom (dieOf core) pa n
      let s := (s.acquires core q e.order scope (s.sigOf pa) (s.chainAt core q pa scope)).touchSig pa
      .next (s.performed core q e.order (.s (BitVec.ofNat 64 (leNat r.1))) (if r.2 then some .eccUncorrectable else none))
    | _, _ => .next s
  | none => .next s

/-! ### Atomics (R220 to R222) -/

/-- The new value of an atomic; none when it does not write (R220). -/
def atomicNew (op : AtomicOp) (o a b : Word) : Option Word :=
  match op with
  | .aadd => some (o + a)
  | .amin => some (if a.slt o then a else o)
  | .amax => some (if o.slt a then a else o)
  | .aminn => some (if a.ult o then a else o)
  | .amaxn => some (if o.ult a then a else o)
  | .aand => some (o &&& a)
  | .aor => some (o ||| a)
  | .axor => some (o ^^^ a)
  | .aswp => some a
  | .acas => if o = b then some a else none
  | .aincb => if o.ult a then some (o + 1) else none

/-- The atomic of an entry: an `ep.done` with a bitmap sets the bit of its tag (R301). -/
def atomicOf (k : LoadKind) : Option (AtomicOp × Word × Word) :=
  match k with
  | .atomic op a b => some (op, a, b)
  | .epDone t => if t.getLsbD 24 then some (.aor, BitVec.ofNat 64 (2 ^ (bits t.toNat 63 32 % 64)), 0) else none
  | _ => none

/-- What an atomic returns: the old value, or the old value of the tag's bit (R220, R301). -/
def atomicReply (k : LoadKind) (old : Word) : Word :=
  match k with
  | .epDone t => if old.getLsbD (bits t.toNat 63 32 % 64) then 1 else 0
  | _ => old

/-- Read and write a word in one step; a poisoned word is not written (R221). -/
def State.applyAtomic (s : State) (c : Nat) (l : Loc) (op : AtomicOp) (a b : Word) : (Word × Bool) × State :=
  match l with
  | .mem pa =>
    let s := (s.dropCached c pa).dropRemote (dieOf c) pa
    let r := s.homeRead pa 8
    let old := BitVec.ofNat 64 (leNat r.1)
    match atomicNew op old a b with
    | some v => ((old, r.2), if r.2 then s else s.mergeHome pa ((natBytes 8 v.toNat).map some))
    | none => ((old, r.2), s)
  | .spad o off =>
    let k := s.core o
    let old := BitVec.ofNat 64 (leNat (k.readSpad off 8))
    let bad := k.spadPoisonedAt off 8
    match atomicNew op old a b with
    | some v => ((old, bad), if bad then s else s.modCore o fun k => k.writeSpad off ((natBytes 8 v.toNat).map some))
    | none => ((old, bad), s)

/-- The store-queue half of an atomic leaves (R96). -/
def State.dropHalf (s : State) (c q order : Nat) : State :=
  s.modSeq c q fun x => { x with stores := x.stores.eraseP fun st => st.order == order + 1 }

/-- The two halves of an atomic leave their queues; an `ep.done` ends its row (R96, R301). -/
def State.atomicDone (s : State) (c q : Nat) (e : LoadEntry) (r : Word × Bool) : State :=
  let s := (s.dropHalf c q e.order).performed c q e.order (.s (atomicReply e.kind r.1)) (if r.2 then some .eccUncorrectable else none)
  match e.kind with
  | .epDone t => s.endRow t
  | _ => s

/-- A store to the keys of a running `stopk` that its own marker holds back is none that spoils it (R163). -/
def State.sparingStopk (s : State) (c q epoch : Nat) (f : State → State) : State :=
  match (s.core c).stopk with
  | some t =>
    let s' := f s
    if t.q = q && epoch < t.epoch then s'.modCore c fun k => { k with stopk := k.stopk.map fun u => { u with spoiled := t.spoiled } } else s'
  | none => f s

/-- A remote atomic is on its way already. -/
def State.departed (s : State) (c q order target : Nat) : Bool :=
  (s.core target).atomics.any fun r => r.src == c && r.q == q && r.order == order

/-- The last clock of the revolution of a clock (R315). -/
def revolutionEnd (clock : Nat) : Nat := clock / Config.revolution * Config.revolution + (Config.revolution - 1)

def isAtomic (e : LoadEntry) : Bool :=
  match e.kind with
  | .bget _ => true
  | k => (atomicOf k).isSome

/-- The image whose slot table a core's die runs (R34). -/
def State.imageOf (s : State) (c : Nat) : Nat :=
  match (s.core c).launch.bind s.launch with
  | some l => l.vec.image
  | none => 0

/-- The last clock of a revolution in which a slot may begin: its transfer of 4 clocks ends in the revolution (R315). -/
abbrev lastSlot : Nat := Config.revolution - 4

/-- The clock of the revolution in which the first slot of an ordered pair begins; every pair has one (R315). -/
def slotOf (image src dst : Nat) : Nat := Config.pairSlot image src dst % (lastSlot + 1)

/-- A slot of an ordered pair begins in a clock (R315). -/
def State.slotBegins (s : State) (src dst clock : Nat) : Bool :=
  let at_ := clock % Config.revolution
  at_ ≤ lastSlot && (at_ == slotOf (s.imageOf src) src dst || Config.moreSlots (s.imageOf src) src dst at_)

/-- The clock in which a transfer lands that departs in a slot: a fixed one, within the revolution (R231, R315). -/
def slotLands (image src dst clock : Nat) : Nat :=
  clock + 3 + Config.transit image src dst (clock % Config.revolution) % (revolutionEnd clock - (clock + 3) + 1)

/-- The clock in which the reply of a remote atomic comes back: in the reverse slot of its pair in the revolution after
the one it departed in (R222). -/
def State.replyAt (s : State) (src target closes : Nat) : Nat :=
  slotLands (s.imageOf src) target src (closes + 1 + slotOf (s.imageOf src) target src)

/-- The bank of another core that an atomic goes to (R221). -/
def LoadEntry.remoteBank (e : LoadEntry) (c : Nat) : Option Nat :=
  match e.parts with
  | .bytes (.spad o _) _ :: _ => if isAtomic e && o != c then some o else none
  | _ => none

/-- A remote atomic is on its way and not performed. -/
def State.underWay (s : State) (c q : Nat) (e : LoadEntry) : Bool :=
  !e.performed && (match e.remoteBank c with
    | some o => s.departed c q e.order o
    | none => false)

/-- The next atomic of a sequencer, when it may be performed or may leave: every access before it is performed, or is a
remote atomic on its way, which one for another core's bank may follow (R102, R220, R222; log entry 116). -/
def State.nextAtomic (s : State) (c q : Nat) : Option LoadEntry :=
  let x := s.seq c q
  match x.allLoads.find? fun e => !e.performed && !s.underWay c q e with
  | some e =>
    let before := x.stores.takeWhile fun st => st.order < e.order
    let led := before.all fun st => st.kind == .atomic && x.allLoads.any fun l => l.order + 1 == st.order && s.underWay c q l
    let half := x.stores.any fun st => st.kind == .atomic && st.order == e.order + 1
    if isAtomic e && half && led && (before.isEmpty || (e.remoteBank c).isSome) then some e else none
  | none => none

/-- An atomic has no step to take in this clock: it waits for a slot of its pair, or for the stores to a dirty line whose
copy it drops (R198, R221, R222). -/
def State.atomicWaits (s : State) (c : Nat) (e : LoadEntry) : Bool :=
  match e.parts with
  | .bytes (.spad o _) _ :: _ => o != c && !s.slotBegins c o s.clock
  | .bytes (.mem pa) _ :: _ => (s.core c).lineDirty (lineIndex pa)
  | _ => false

/-- A remote atomic whose slot begins in this clock. -/
def State.atomicLeaves (s : State) (c q : Nat) : Bool :=
  (s.nextAtomic c q).any fun e => (e.remoteBank c).isSome && !s.atomicWaits c e

/-- An atomic is applied at its place, or leaves for another core's bank in a slot of the pair (R221, R222); one that a
link loses raises LINK (R319). -/
def State.startAtomic (s : State) (c q : Nat) (e : LoadEntry) (op : AtomicOp) (a b : Word) : State :=
  match e.parts with
  | .bytes (.spad o off) _ :: _ =>
    if o = c then
      s.sparingStopk c q e.epoch fun s =>
        let r := (s.linkAtomic c q e (.spad o off)).applyAtomic c (.spad o off) op a b
        r.2.atomicDone c q e r.1
    else s.modCore o fun k => { k with atomics := k.atomics ++
      [{ src := c, q := q, order := e.order, off := off, op := op, a := a, b := b, slot := s.clock % Config.revolution,
         closes := revolutionEnd s.clock }] }
  | .bytes (.mem pa) _ :: _ =>
    if s.cut (dieOf c) pa then (s.atomicDone c q e (0, true)).modSeq c q fun x => x.addPending .link
    else
      let r := (s.linkAtomic c q e (.mem pa)).applyAtomic c (.mem pa) op a b
      let t := if r.2.merges = s.merges then r.2 else r.2.noteStore c q e.order pa (List.replicate 8 (some 0))
      t.atomicDone c q e r.1
  | _ => s

/-- ATOMIC_APPLY (R221): an atomic, `ep.done` with a bitmap, or `sy.bget`. -/
def execAtomicApply (core q : Nat) (s : State) : Out :=
  match (s.nextAtomic core q).filter fun e => !s.atomicWaits core e with
  | some e =>
    match e.kind with
    | .bget p =>
      let r := s.takeBarrier core p
      .next ((r.2.dropHalf core q e.order).performed core q e.order (.s r.1) none)
    | k => match atomicOf k with
      | some (op, a, b) => .next (s.startAtomic core q e op a b)
      | none => .next s
  | none => .next s

/-- Order within a batch: departure slot, then source position (R222). -/
def State.batchBefore (s : State) (x y : RemoteAtomic) : Bool :=
  x.slot < y.slot || (x.slot == y.slot && (s.core x.src).position ≤ (s.core y.src).position)

def insertBatch (s : State) (x : RemoteAtomic) : List RemoteAtomic → List RemoteAtomic
  | [] => [x]
  | y :: ys => if s.batchBefore x y then x :: y :: ys else y :: insertBatch s x ys

/-- What a poisoned atomic writes is poisoned (R205, R206). -/
def State.badOperand (s : State) (target : Nat) (r : RemoteAtomic) (v : Word × Bool) : State :=
  if r.bad && !v.2 && (atomicNew r.op v.1 r.a r.b).isSome then
    s.modCore target fun k => { k with spadPoison := (unitsOf 4 r.off 8).foldl (fun t u => mapInsert u true t) k.spadPoison }
  else s

/-- The entry of a remote atomic at its source. -/
def State.applyRemote (s : State) (target : Nat) (r : RemoteAtomic) : State :=
  match (s.seq r.src r.q).allLoads.find? fun e => e.order == r.order with
  | some e =>
    let v := (s.linkAtomic r.src r.q e (.spad target r.off)).applyAtomic r.src (.spad target r.off) r.op r.a r.b
    ((v.2.badOperand target r v.1).atomicDone r.src r.q e v.1).editLoad r.src r.q r.order fun e => { e with landsAt := s.replyAt r.src target r.closes }
  | none => let v := s.applyAtomic r.src (.spad target r.off) r.op r.a r.b; v.2.badOperand target r v.1

/-- The atomics at a core's banks whose revolution closes are applied (R222). -/
def State.applyBatch (s : State) (core : Nat) : State :=
  let due := (s.core core).atomics.filter fun r => r.closes ≤ s.clock
  let s := s.modCore core fun k => { k with atomics := k.atomics.filter fun r => s.clock < r.closes }
  (due.foldr (insertBatch s) []).foldl (fun s r => s.applyRemote core r) s

/-- REMOTE_ATOMIC_BATCH (R222): the atomics whose revolution closes. -/
def execRemoteAtomicBatch (core : Nat) (s : State) : Out := .next (s.applyBatch core)

/-! ### EP_REP_SERVE (R299, R306) -/

def isRep (e : LoadEntry) : Bool := match e.kind with | .epRep _ => true | _ => false

/-- Another VERSION than the last acts as an acquire at system scope of an all-ones signature, where the row
was served (R32, R306). -/
def State.noteVersion (s : State) (c q order : Nat) : State :=
  let v := s.trestle.version
  if (s.seq c q).lastVersion = some v then s
  else (s.acquires c q order 5 (BitVec.allOnes 1024) s.trestle.published).modSeq c q fun x => { x with lastVersion := some v }

/-- A row of another VERSION waits for the dirty sectors of what it drops (R198, R306). -/
def State.repWaits (s : State) (c q : Nat) : Bool :=
  (s.seq c q).lastVersion ≠ some s.trestle.version && s.dropWaits c 5 (BitVec.allOnes 1024)

/-- EP_REP_SERVE (R299). -/
def execEpRepServe (core q : Nat) (s : State) : Out :=
  match (s.seq core q).loadReady fun e => isRep e && !s.repWaits core q with
  | some e =>
    match e.kind with
    | .epRep t =>
      let r := s.serveRep (dieOf core) t
      let ok := (lane r.1 3).getLsbD 4
      let s := if ok then r.2.noteVersion core q e.order else r.2
      .next (s.performed core q e.order (.v r.1) none)
    | _ => .next s
  | none => .next s

end Sys2Proof.Machine
end

