-- ==== Sys2Proof/Machine/StoreEvents.lean ====
section
/-! DEFINITION. How store-class operations are performed (R101, R107, R109, R175, R206, R209, R217, R239,
R248, R304). -/
namespace Sys2Proof.Machine

/-! ### Parts of stores (R107, R109, R175, R210) -/

/-- Bytes that carry poison pass it to the units of `g` bytes that they reach (R206). -/
def spreadPoison (g : Nat) (t : NMap Bool) (at_ : Nat) (bs : List Nat) : NMap Bool :=
  bs.foldl (fun t i => mapInsert ((at_ + i) / g) true t) t

/-- The poison of what a part has written: the sectors that it was the last to fill have none, and the bytes that carry
poison bring it (R206). -/
def State.poisonPart (s : State) (p : StorePart) : State :=
  match p.loc with
  | .mem pa => { s with poison := spreadPoison 32 (p.fills.foldl (fun t k => mapErase k t) s.poison) pa p.bad
                        renewed := dropRenewed s.renewed (pa / 32 * 32) (pa % 32 + p.bytes.length + 31) }
  | .spad o off => s.modCore o fun k => { k with spadPoison := spreadPoison 4 k.spadPoison off p.bad }

/-- A tile store waits until it has read its tile (R167). -/
def Core.storeReady (k : Core) (q : Nat) (st : StoreEntry) : Bool :=
  match st.kind with
  | .tile .. => (k.tfOpOf q st.order).isNone
  | _ => true

/-! ### Leaving the core (R197, R198, R315) -/

/-- The slice of its own die that a core's transfer for a place goes to or comes from. -/
def ownSlice (c : Nat) : Loc → Option Nat
  | .mem pa => if homeDie pa = dieOf c then some (sliceOf pa) else none
  | .spad _ _ => none

/-- A slot between a core and a slice of its die begins in this clock; `back` for one from the slice (R315). -/
def State.sliceBegins (s : State) (c slice : Nat) (back : Bool) : Bool :=
  let at_ := s.clock % Config.revolution
  let key := 2 * slice + back.toNat
  at_ ≤ lastSlot && (at_ == Config.sliceSlot (s.imageOf c) c key % (lastSlot + 1) || Config.moreSliceSlots (s.imageOf c) c key at_)

/-- The clock in which what departs now reaches a place: within the revolution, for a slice of the die (R315). -/
def State.landsInSlice (s : State) (c : Nat) (l : Loc) (back : Bool) : Nat :=
  match ownSlice c l with
  | some slice =>
    s.clock + 3 + Config.sliceTransit (s.imageOf c) c (2 * slice + back.toNat) (s.clock % Config.revolution) % (revolutionEnd s.clock - (s.clock + 3) + 1)
  | none => 0

/-- The slot between a core and a slice that begins in this clock carries a transfer already (R315). -/
def State.slotTaken (s : State) (c slice : Nat) (back : Bool) : Bool :=
  (s.core c).slotsUsed.1 == s.clock && (s.core c).slotsUsed.2.contains (2 * slice + back.toNat)

/-- A transfer takes the slot that begins in this clock (R315). -/
def State.takeSlot (s : State) (c : Nat) (l : Loc) (back : Bool) : State :=
  match ownSlice c l with
  | some slice => s.modCore c fun k => { k with
      slotsUsed := (s.clock, (2 * slice + back.toNat) :: (if k.slotsUsed.1 = s.clock then k.slotsUsed.2 else [])) }
  | none => s

/-- A transfer has to wait for a slot of its own before it leaves for its place, or comes from it (R315). -/
def State.slotWaits (s : State) (c : Nat) (l : Loc) (back : Bool) : Bool :=
  match ownSlice c l with
  | some slice => !s.sliceBegins c slice back || s.slotTaken c slice back
  | none => false

/-- The first part of a store has not reached its slice yet. -/
def State.partTravels (s : State) (c : Nat) (st : StoreEntry) : Bool :=
  match st.parts with
  | p :: _ => (ownSlice c p.loc).isSome && (st.left == 0 || s.clock < p.landsAt)
  | [] => false

def StoreKind.isPlain : StoreKind → Bool
  | .plain => true
  | .tile .. => true
  | _ => false

/-- Every part of a store has left the core. -/
def StoreEntry.gone (st : StoreEntry) : Bool := st.kind.isPlain && st.parts.length ≤ st.left

/-- The first store with a part that has not left the core: those before it have left, and stand behind the same marker
(R102, R198). -/
def Seq.leaver (x : Seq) : Option StoreEntry :=
  match x.stores.dropWhile StoreEntry.gone, x.stores with
  | st :: _, first :: _ => if st.epoch = first.epoch && x.storeMayGo st && st.kind.isPlain then some st else none
  | _, _ => none

/-- The place among a store's parts that leaves the core now, marked when it updates a copy. -/
def StoreEntry.leave (st : StoreEntry) (held : Bool) (lands : Nat) : StoreEntry :=
  { st with left := st.left + 1, parts := st.parts.mapIdx fun i p => if i = st.left then { p with dirty := held, landsAt := lands } else p }

/-- The next part of a store leaves the core: it updates the held sectors of its line, dirty from now on, and drops the
die's copy of the line (R197, R198). -/
def State.storeLeave (s : State) (c q : Nat) : State :=
  match (s.seq c q).leaver with
  | none => s
  | some st =>
    if !(s.core c).storeReady q st then s else
    match st.parts[st.left]? with
    | none => s
    | some p =>
      let held := match p.loc with | .mem pa => (s.core c).holdsSector pa p.bytes | .spad _ _ => false
      let s := s.modSeq c q fun x => { x with stores := x.stores.map fun t => if t.order = st.order then t.leave held (s.landsInSlice c p.loc false) else t }
      let s := s.takeSlot c p.loc false
      match p.loc with
      | .mem pa => (s.modCore c fun k => k.updateBank pa p.bytes).dropRemote (dieOf c) pa
      | .spad _ _ => s

/-- A link loses what a core sends to a place (R319). -/
def State.lostAt (s : State) (c : Nat) : Loc → Bool
  | .mem pa => s.cut (dieOf c) pa
  | .spad _ _ => false

/-- A part in memory has merged. -/
def State.notePart (s : State) (c q order : Nat) (p : StorePart) : State :=
  match p.loc with
  | .mem pa => s.noteStore c q order pa p.bytes
  | .spad _ _ => s

/-- The first part is written at its place, or lost on a link; after the last one the entry leaves (R101, R210). -/
def State.storePart (s : State) (c q : Nat) (st : StoreEntry) : State :=
  match st.parts with
  | [] => s.dropStore c q
  | p :: ps =>
    let s := if s.lostAt c p.loc then s.modSeq c q fun x => x.addPending .link
      else
        ((s.sparingStopk c q st.epoch fun s => s.writeLoc c p.loc p.bytes).poisonPart p).notePart c q st.order p
    if ps.isEmpty then s.dropStore c q
    else s.modSeq c q fun x => { x with stores := { st with parts := ps, left := st.left - 1 } :: x.stores.tail }

/-- Whether the next part lies in memory; a store without bytes counts as one to memory. -/
def StoreEntry.toMemory (st : StoreEntry) : Bool :=
  match st.parts with
  | p :: _ => (match p.loc with | .mem _ => true | .spad _ _ => false)
  | [] => true

/-- The engine takes a kick: a ring that runs already runs on from its TAIL (R309).  Of several kicks held, the last one
gives the rounding mode of the run that follows (R130; log entry 103). -/
def State.takeKick (s : State) (c asid ring rm : Nat) : State :=
  let old := mapGet none s.rings (asid * 16 + ring)
  let r : Ring := match old with
    | some r => if r.running then { r with again := true, nextRm := rm } else { r with running := true, rm := rm, nextRm := rm, die := dieOf c, tail := none }
    | none => { running := true, again := false, rm := rm, nextRm := rm, die := dieOf c, completed := 0, tail := none, work := none, finished := none }
  { s with rings := mapInsert (asid * 16 + ring) (some r) s.rings }

/-- MERGE (R101, R239): the next part of the store at the head merges at its home slice, or the engine takes a kick. -/
def execMerge (core q : Nat) (s : State) : Out :=
  match (s.seq core q).nextStore with
  | some st =>
    match st.kind with
    | .kick asid ring rm => .next ((s.takeKick core asid ring rm).dropStore core q)
    | k => if k.isPlain && st.toMemory && (s.core core).storeReady q st then .next (s.storePart core q st) else .next s
  | none => .next s

/-- SCRATCHPAD_STORE_PERFORMED (R101): the next part of the store at the head writes its bank. -/
def execScratchpadStorePerformed (core q : Nat) (s : State) : Out :=
  match (s.seq core q).nextStore with
  | some st => if st.kind.isPlain && !st.toMemory && (s.core core).storeReady q st then .next (s.storePart core q st) else .next s
  | none => .next s

/-- RELEASE_PERFORM (R217): the signature and the value at the home slice, in one step. -/
def execReleasePerform (core q : Nat) (s : State) : Out :=
  match (s.seq core q).nextStore with
  | some st =>
    match st.kind with
    | .release pa v sig scope =>
      if s.cut (dieOf core) pa then .next ((s.dropStore core q).modSeq core q fun x => x.addPending .link)
      else
        let bs := (natBytes 8 v.toNat).map some
        let t := ((s.mergeFrom core pa bs).noteStore core q st.order pa bs).setSig pa sig
          { party := some (core, q), scope := scope, chain := s.past core q st.chain }
        .next (t.dropStore core q)
    | _ => .next s
  | none => .next s

/-- The next line of a rebuild; a line that a link loses raises LINK (R248, R319). -/
def State.rebuildStep (s : State) (c q : Nat) (r : Region) (line : Nat) : State :=
  let pa := r.pages.getD (line / 256) 0 + 256 * (line % 256)
  if s.cut (dieOf c) pa then s.modSeq c q fun x => x.addPending .link else s.rebuildLine r pa

/-- DREBUILD_PERFORM (R248): one line of the region as it was registered at the trigger; after the last one, or once that
registration is gone, the entry leaves. -/
def execDrebuildPerform (core q : Nat) (s : State) : Out :=
  match (s.seq core q).nextStore with
  | some st =>
    match st.kind with
    | .rebuild key serial line =>
      match (s.region key).filter fun r => r.serial == serial with
      | none => .next (s.dropStore core q)
      | some r =>
        let s := s.rebuildStep core q r line
        if r.length / 256 ≤ line + 1 then .next (s.dropStore core q)
        else .next (s.modSeq core q fun x => { x with stores := { st with kind := .rebuild key serial (line + 1) } :: x.stores.tail })
    | _ => .next s
  | none => .next s

/-- EP_GRAD_MERGE (R304): once every in-flight count of the pair is 0, the next line of the buffers; after the last one
the flags are set and the entry leaves. -/
def execEpGradMerge (core q : Nat) (s : State) : Out :=
  match (s.seq core q).nextStore with
  | some st =>
    match st.kind with
    | .grad p goff rm line flags =>
      if s.trestle.quiet p then
        if s.gradBytes p / 256 ≤ line then
          .next (((s.dropStore core q).orFlagsOf core q flags).modTrestle fun t => { t with grads := t.grads.erase p })
        else
          let r := s.mergeGradLine core q st.order p goff (RM.ofCode rm) line
          .next (r.1.modSeq core q fun x =>
            { x with stores := { st with kind := .grad p goff rm (line + 1) (flags ||| r.2) } :: x.stores.tail })
      else .next s
    | _ => .next s
  | none => .next s

end Sys2Proof.Machine
end

