-- ==== Sys2Proof/Machine/UnitEvents.lean ====
section
/-! DEFINITION. What the units bring about on their own: results presented, tile operations and `stopk`
completed (R70, R161, R167, R173, R187), walks (R203), the ends of holds (R41), deferred traps and the ends
of units (R28, R36, R268, R269), and supersteps (R228, R307). -/
namespace Sys2Proof.Machine

/-! ### Results (R70, R187) -/

/-- FIXED_LATENCY_RESULT (R70): the port presents what has become visible. -/
def execFixedLatencyResult (core q : Nat) (port : ResPort) (s : State) : Out :=
  let now := (s.seq core q).now
  let mine := fun (f : (Port → Port) → ResPorts → ResPorts) =>
    s.modSeq core q fun x => { x with results := f (fun p => p.present now) x.results }
  let held := fun (f : Core → Core) => if (s.core core).owns q .vx then s.modCore core f else s
  .next (match port with
  | .ia0r => mine fun f r => { r with ia0r := f r.ia0r }
  | .ia1r => mine fun f r => { r with ia1r := f r.ia1r }
  | .imr => mine fun f r => { r with imr := f r.imr }
  | .imh => mine fun f r => { r with imh := f r.imh }
  | .plr => mine fun f r => { r with plr := f r.plr }
  | .crr => mine fun f r => { r with crr := f r.crr }
  | .vxr => held fun k => { k with vxr := k.vxr.present now }
  | .vxm => held fun k => { k with vxm := k.vxm.present now }
  | .vxs => held fun k => { k with vxs := k.vxs.present now })

/-- The sequencer that holds mx (R13, R187). -/
def Core.mxHolder (k : Core) : Nat := if k.hold.getLsbD 1 then 1 else 0

/-- MDRAIN_ROW (R187): after the cycle of its last row the drain is over. -/
def execMdrainRow (core : Nat) (s : State) : Out :=
  let k := s.core core
  match k.drain with
  | some d => if d.cycle + 2 + d.rows.length ≤ (k.seq k.mxHolder).cycle then .next (s.setCore core { k with drain := none }) else .next s
  | none => .next s

/-! ### Tile operations and `stopk` (R161, R163, R167, R173) -/

/-- TILE_OP_COMPLETE (R167): the operation at the head of tf or mx. -/
def execTileOpComplete (core : Nat) (tf : Bool) (s : State) : Out :=
  if tf then
    match (s.core core).tfOps with
    | op :: _ => .next (s.completeTf core op)
    | [] => .next s
  else
    match (s.core core).mxOps with
    | op :: _ => .next (s.completeMx core op)
    | [] => .next s

def isBind (e : LoadEntry) : Bool := match e.kind with | .bind => true | _ => false

/-- The lines that the bind at the head of tf may pin next, when its entry may be performed (R101, R173). -/
def State.bindable (s : State) (c q : Nat) : List Nat :=
  match (s.seq c q).loadReady isBind, (s.core c).tfOps with
  | some e, op :: _ => if op.q == q && op.order == e.order then op.unpinned.filter (s.pinnable (dieOf c)) else []
  | _, _ => []

/-- TBIND_PINNED (R173): every line of the bind is pinned. -/
def execTbindPinned (core q : Nat) (s : State) : Out :=
  match (s.seq core q).loadReady isBind, (s.core core).tfOps with
  | some e, op :: _ =>
    if op.q == q && op.order == e.order && op.unpinned.isEmpty then
      match op.kind with
      | .bind t d src lines => .next ((s.finishBind core t d src lines op).editLoad core q e.order id)
      | _ => .next s
    else .next s
  | _, _ => .next s

/-- A key widened to its 32-bit type (R159). -/
def stopkKey (ktype raw : Nat) : Lane :=
  match ktype with
  | 3 => (f32Widen .bf16 raw).1
  | 4 => (f32Widen .f16 raw).1
  | 5 => (BitVec.ofNat 16 raw).signExtend 32
  | 7 => (BitVec.ofNat 8 raw).signExtend 32
  | _ => BitVec.ofNat 32 raw

/-- The order-key type of a KTYPE (R157, R159). -/
def stopkType (ktype : Nat) : Nat :=
  match ktype with
  | 0 | 3 | 4 => 0
  | 1 | 5 | 7 => 1
  | _ => 2

/-- The output records of a `stopk` (R161). -/
def stopkRecords (k : Core) (t : Stopk) : List Byte :=
  let size := keyBytes t.ktype
  let raw := fun (i : Nat) => leNat (k.readSpad (t.koff + size * i) size)
  let ranked := rankSort ((List.range t.n).map fun i => (okey (stopkKey t.ktype (raw i)) (stopkType t.ktype), i))
  ((ranked.take t.k).map fun e => natBytes 4 e.2 ++ natBytes 4 (raw e.2)).flatten

/-- A `stopk` may read its keys: every access before its marker has been performed (R163). -/
def Core.stopkGoes (k : Core) (t : Stopk) : Bool := (k.seq t.q).epochDone (t.epoch - 1)

/-- The output of a `stopk` whose keys are read now, or were read before (R161). -/
def Stopk.output (t : Stopk) (k : Core) : List Byte := t.out.getD (stopkRecords k t)

/-- A record of the output is written before the others: a load meets old or new bytes of each (R163). -/
def State.stopkWrite (s : State) (c i : Nat) : State :=
  let k := s.core c
  match k.stopk with
  | some t =>
    if k.stopkGoes t && !t.spoiled && i < t.k && !t.written.contains i then
      let bs := t.output k
      let k' := ({ k with stopk := none } : Core).writeSpad (t.ooff + 8 * i) (((bs.drop (8 * i)).take 8).map some)
      s.setCore c { k' with stopk := some { t with out := some bs, written := i :: t.written } }
    else s
  | none => s

/-- The records that are still to be written. -/
def Stopk.toWrite (t : Stopk) (bs : List Byte) : List (Option Byte) :=
  if t.written.isEmpty then bs.map some else bs.mapIdx fun i b => if t.written.contains (i / 8) then none else some b

/-- STOPK_COMPLETE (R161): the records that are not written yet, then the tag. -/
def execStopkComplete (core : Nat) (s : State) : Out :=
  let k := s.core core
  match k.stopk with
  | some t =>
    if k.stopkGoes t then
      let out := if t.spoiled then let f := s.freshBytes (8 * t.k); (f.1.map some, f.2) else (t.toWrite (t.output k), s)
      .next (out.2.modCore core fun k => (({ k with stopk := none }).writeSpad t.ooff out.1).setReady t.tag true)
    else .next s
  | none => .next s

/-! ### Walks (R203) -/

/-- A sequencer freezes for a translation that no walk has answered yet. -/
def Seq.awaits (x : Seq) (asid va : Nat) : Bool :=
  !(x.tlb.any (fun p => p.covers asid va) || x.walks.any fun w => w.asid == asid && w.granule == va / 65536)

/-- The address that the held bundle of a sequencer misses: it freezes for it, or its kv operation waits for it. -/
def State.bundleMiss (s : State) (c q : Nat) : Option (Nat × Nat) :=
  let x := s.seq c q
  match x.hold with
  | some (.walk asid va) => if x.awaits asid va then some (asid, va) else none
  | some (.kv _) => (s.kvMiss c q).map fun va => (x.asid, va)
  | _ => none

/-- The next load-class operation of a sequencer, when it is a `kv.map` that may be performed. -/
def State.nextMap (s : State) (c q : Nat) : Option LoadEntry :=
  (s.seq c q).loadReady fun e => e.mapTurn.isSome && !(s.core c).mapWaits q e

/-- The address that its `kv.map` misses (R203, R288). -/
def State.mapMiss (s : State) (c q : Nat) : Option (Nat × Nat) :=
  (s.nextMap c q).bind fun e => (s.mapMissOf c q e).map fun va => ((s.seq c q).asid, va)

/-- What a sequencer misses. -/
def State.misses (s : State) (c q : Nat) : List (Nat × Nat) := (s.bundleMiss c q).toList ++ (s.mapMiss c q).toList

/-- A walk that has found a page, or has failed, answers a miss: one to its granule, or to the page that it has found
(R203). -/
def Walker.answers (w : Walker) (found : Option Page) (m : Nat × Nat) : Bool :=
  m.1 == w.asid && (m.2 / 65536 == w.granule || found.any fun p => p.covers m.1 m.2)

/-- The sequencers of a die that are in use. -/
def State.dieUnits (s : State) (d : Nat) : List (Nat × Nat) :=
  ((s.coreIds.filter fun c => dieOf c == d).eraseDups.map fun c => [(c, 0), (c, 1)]).flatten

/-- The sequencers of the die with misses that the walk answers (R203). -/
def State.waiters (s : State) (d : Nat) (w : Walker) (found : Option Page) : List (Nat × Nat) :=
  (s.dieUnits d).filter fun u => !w.barred.contains u && (s.misses u.1 u.2).any (w.answers found)

/-- The sequencer with the answers to its misses: of its bundle, and of its `kv.map`. -/
def Seq.answered (x : Seq) (found : Option Page) (bundle map : Option (Nat × Nat)) (order : Nat) : Seq :=
  let walk := fun (m : Nat × Nat) => ({ asid := m.1, granule := m.2 / 65536, found := found } : Walk)
  { x with
    walks := (bundle.map walk).toList ++ x.walks
    loads := match map with
      | some m => x.loads.map fun e => if e.order = order then { e with walks := walk m :: e.walks } else e
      | none => x.loads }

/-- A walk answers the misses of a sequencer: the TLB is filled, or the walk has failed (R202, R203). -/
def State.answer (s : State) (w : Walker) (found : Option Page) (u : Nat × Nat) : State :=
  let x := (s.seq u.1 u.2).answered found ((s.bundleMiss u.1 u.2).filter (w.answers found)) ((s.mapMiss u.1 u.2).filter (w.answers found))
    (((s.nextMap u.1 u.2).map (·.order)).getD 0)
  match found with
  | some p => s.tlbFill u.1 u.2 p x
  | none => s.setSeq u.1 u.2 x

/-- A walk ends, and with it every other walk of the die whose misses it has answered (R203). -/
def State.endWalk (s : State) (d : Nat) (w : Walker) (found : Option Page) : State :=
  let over_ := fun (v : Walker) => v == w ||
    (w.barred.all v.barred.contains && (match found with
      | some p => p.covers v.asid (v.granule * 65536)
      | none => v.asid == w.asid && v.granule == w.granule))
  ((s.waiters d w found).foldl (fun s u => s.answer w found u) s).modDie d fun x => { x with walkers := x.walkers.filter fun v => !over_ v }

/-- The walk that answers a miss of a sequencer: the first under way for its granule that may serve it (R203). -/
def State.walkerFor (s : State) (c q : Nat) (m : Nat × Nat) : Option Walker :=
  (s.die (dieOf c)).walkers.find? fun w => w.asid == m.1 && w.granule == m.2 / 65536 && !w.barred.contains (c, q)

/-- The walk that answers the first of its misses that one is under way for. -/
def State.walkerOf (s : State) (c q : Nat) : Option Walker := (s.misses c q).findSome? (s.walkerFor c q)

/-- The misses of a sequencer that no walk under way answers, and that may start one (R203, R204). -/
def State.unwalked (s : State) (c q : Nat) : List (Nat × Nat) :=
  (s.misses c q).filter fun m => (s.walkerFor c q m).isNone && !s.walkHeld m.1

/-- A miss that no walk under way answers starts one (R203). -/
def State.startWalk (s : State) (c q : Nat) (m : Nat × Nat) : State :=
  if (s.unwalked c q).contains m then
    s.modDie (dieOf c) fun d =>
      { d with walkers := d.walkers ++ [{ asid := m.1, granule := m.2 / 65536, level := 0, table := 0, barred := [] }] }
  else s

/-- A walk reads its next entry, at the entry's home slice (R203). -/
def State.walkStep (s : State) (d : Nat) (w : Walker) : State :=
  match s.walkerNext w with
  | .failed => s.endWalk d w none
  | .found p => s.endWalk d w (some p)
  | .down t => s.modDie d fun x => { x with walkers := x.walkers.map fun v =>
      if v == w then { w with level := w.level + 1, table := t } else v }

/-- The next entry of a walk is its last. -/
def WalkNext.last : WalkNext → Bool
  | .down _ => false
  | _ => true

/-- TLB_WALK (R203): the walk for a sequencer's miss reads its last entry. -/
def execTlbWalk (core q : Nat) (s : State) : Out :=
  match s.walkerOf core q with
  | some w => if (s.walkerNext w).last then .next (s.walkStep (dieOf core) w) else .next s
  | none => .next s

/-! ### The ends of holds (R41) -/

/-- What a frozen bundle waits for is there (R98, R99, R103, R229, R230). -/
def freezeOver (k : Core) (x : Seq) : Hold → Bool
  | .popData => match popFirst x.loadQueue with
    | some (e, _) => e.arrived
    | none => true
  | .circuitPop => !k.circuit.isEmpty
  | .storeRoom => x.stores.length < Config.queueEntries
  | .sendRoom => k.sends.length < 8
  | .walk asid va => !x.awaits asid va
  | _ => false

/-- What a flag-wait waits for is there. -/
def waitEnds (k : Core) (q : Nat) (x : Seq) : Hold → Bool
  | .tiles w r tf => k.tilesFree w r tf
  | .stopk tag => k.stopk.isNone && k.tileReady tag
  | .cinv lines => x.allPerformed && lines.all fun l => !k.lineDirty l
  | .sstep => x.stepDone
  | .cede _ => true
  | .wake => (k.seq (1 - q)).run != .ending
  | .wait mask => waitOver k q mask
  | .port _ => true
  | .rftDrain => x.handlerLoads.all (·.performed)
  | .record => x.recordBuf.isSome
  | .kv _ => x.kvLeft == some [] || (x.kvLeft.isNone && k.kvReady q)
  | .region | .kick => x.allPerformed
  | .invalidate _ _ left => left.isEmpty
  | .popData | .circuitPop | .storeRoom | .sendRoom | .walk .. => false

/-- The sequencer as its flag-wait leaves it: a started operation acts when its slot goes on, and the
results that a `cede` or a handler's read waited for are finished (R19, R268, R271). -/
def Seq.endWait (x : Seq) (h : Hold) : Seq :=
  let x := { x with hold := none }
  match h with
  | .kv _ | .region | .kick | .cede _ | .invalidate .. => { x with done := true }
  | .port n => { x with handlerCycle := x.handlerCycle + 64 * (n + 1) }
  | _ => x

/-- FREEZE_END (R41). -/
def execFreezeEnd (core q : Nat) (s : State) : Out :=
  let x := s.seq core q
  match x.hold with
  | some h => if freezeOver (s.core core) x h then .next (s.setSeq core q { x with hold := none }) else .next s
  | none => .next s

/-- One of the other sequencers drops translations that a waiting `cr.tlbinv` invalidates (R204). -/
def State.dropOther (s : State) (c q : Nat) (u : Nat × Nat) : State :=
  match (s.seq c q).hold with
  | some (.invalidate all va left) =>
    if left.contains u then (s.dropIn u.1 u.2 all va).modSeq c q fun x => { x with hold := some (.invalidate all va (left.erase u)) } else s
  | _ => s

/-- FLAG_WAIT_END (R41). -/
def execFlagWaitEnd (core q : Nat) (s : State) : Out :=
  let x := s.seq core q
  match x.hold with
  | some h =>
    if waitEnds (s.core core) q x h then .next (s.setSeq core q (x.endWait h)) else .next s
  | none => .next s

/-! ### Traps and the ends of units (R28, R36, R268, R269) -/

/-- TRAP_ENTRY (R269): a trap at a slot of a running sequencer. -/
def execTrapEntry (core q : Nat) (cause : BitVec 6) (slot : Nat) (faddr : BitVec 64) (s : State) : Out :=
  let x := s.seq core q
  if x.run = .running then .next (s.takeTrap core q (Cause.ofCode cause) slot faddr none false x.pc) else .next s

/-- A CANCEL or PREEMPT that is pending in handler mode stops the unit (R268). -/
def Seq.stopPending (x : Seq) : Bool := x.active && x.handler && (x.pending.contains .cancel || x.pending.contains .preempt)

/-- DEFERRED_TRAP (R268). -/
def execDeferredTrap (core q : Nat) (s : State) : Out :=
  let x := s.seq core q
  if x.stopPending then .next (s.stopUnit core q)
  else if x.deferredReady then .next (s.takeDeferred core q) else .next s

/-- The budget of a CANCEL or PREEMPT handler is spent (R36). -/
def Seq.budgetSpent (x : Seq) (clock : Nat) : Bool :=
  match x.budget with
  | some b => Config.handlerBundles ≤ b.1 || b.2 + Config.handlerClocks ≤ clock
  | none => false

/-- HANDLER_BUDGET_EXPIRY (R36). -/
def execHandlerBudgetExpiry (core q : Nat) (s : State) : Out :=
  if (s.seq core q).budgetSpent s.clock then .next (s.stopUnit core q) else .next s

/-- UNIT_COMPLETE (R28). -/
def execUnitComplete (core q : Nat) (s : State) : Out :=
  if s.unitDone core q then .next (s.endUnit core q) else .next s

/-- PHASE_RECORD_POST (R264). -/
def execPhaseRecordPost (phase : Nat) (s : State) : Out :=
  match s.level .phase phase with
  | some r => if r.posting then .next (s.postPhase phase) else .next s
  | none => .next s

/-- CANCEL (R36): a level other than unit. -/
def execCancel (level : Level) (id : Nat) (s : State) : Out := .next (State.cancelLevel s.fuel s level id)

/-! ### Supersteps (R228, R307) -/

/-- The units of a launch's step group: those that joined at the start of the computation step. -/
def State.stepGroup (s : State) (l : Launch) : List (Nat × Nat) := (s.liveUnits l).filter fun u => !(s.seq u.1 u.2).stepJoin

def Seq.inStep (x : Seq) : Bool := x.run == .running && x.hold == some .sstep && !x.stepDone

/-- The reply of a remote atomic has come back (R222). -/
def Seq.repliesLanded (x : Seq) (clock : Nat) : Bool := x.allLoads.all fun e => e.landsAt ≤ clock

/-- Every send, multicast and remote atomic of the group has landed, replies among them, and every access of its queues
is performed (R228). -/
def State.stepLanded (s : State) (l : Launch) : Bool :=
  (l.cores.all fun c => (s.core c).sends.isEmpty && (s.core c).atomics.isEmpty) &&
    (s.flights.all fun f => !l.cores.contains f.src) && (s.mcasts.all fun m => !l.cores.contains m.src) &&
    ((s.stepGroup l).all fun u => (s.seq u.1 u.2).allPerformed && (s.seq u.1 u.2).repliesLanded s.clock)

/-- A member's wait ends: its bundle goes to the merge stage of this clock (R23, R228, R307). -/
def Seq.stepOn (x : Seq) : Seq := if x.inStep then { x with stepDone := true, hold := none } else x

/-- Every member's wait ends together, and what any of them had before it is ordered before what each does next; units
that woke meanwhile join (R212, R228). -/
def State.endStep (s : State) (id : Nat) (l : Launch) : State :=
  let g := (s.stepGroup l).foldl (fun (g : Past) u => g.join (s.past u.1 u.2 (s.seq u.1 u.2).chain)) {}
  let s : State := { s with ownStores := (s.stepGroup l).foldl (fun t u => mapSet {} t (2 * u.1 + u.2) (s.past u.1 u.2 g)) s.ownStores }
  let s := (s.stepGroup l).foldl (fun s u => s.modSeq u.1 u.2 Seq.stepOn) s
  let s := (s.liveUnits l).foldl (fun s u => s.modSeq u.1 u.2 fun x => { x with stepJoin := false }) s
  s.modLaunch id fun l => { l with stepping := none }

/-- The group of a running launch waits, at a revolution boundary (R228). -/
def State.stepWaits (s : State) (l : Launch) : Bool :=
  let g := s.stepGroup l
  l.state == .running && l.stepping.isNone && s.clock % Config.revolution == 0 && !g.isEmpty && g.all fun u => (s.seq u.1 u.2).inStep

/-- A communication step begins; one with nothing to await ends at once (R228, R307). -/
def State.beginStep (s : State) (id : Nat) : State :=
  match s.launch id with
  | some l =>
    if s.stepWaits l then if s.stepLanded l then s.endStep id l else s.setLaunch id { l with stepping := some s.clock } else s
  | none => s

/-- COMMUNICATION_STEP_BEGIN (R228). -/
def execCommunicationStepBegin (launch : Nat) (s : State) : Out := .next (s.beginStep launch)

/-- The step has lasted whole revolutions and everything has landed (R228). -/
def State.stepOver (s : State) (l : Launch) : Bool :=
  match l.stepping with
  | some c => c < s.clock && s.clock % Config.revolution == 0 && s.stepLanded l
  | none => false

/-- A communication step is over, and the next computation step begins (R228). -/
def State.finishStep (s : State) (id : Nat) : State :=
  match s.launch id with
  | some l => if s.stepOver l then s.endStep id l else s
  | none => s

/-- COMPUTATION_STEP_BEGIN (R228). -/
def execComputationStepBegin (launch : Nat) (s : State) : Out := .next (s.finishStep launch)

/-- Communication steps begin and end at the boundary that a clock opens with, before its merge stage (R23, R228, R307;
log entry 115). -/
def State.turnSteps (s : State) : State := s.launchIds.foldl (fun s id => (s.beginStep id).finishStep id) s

end Sys2Proof.Machine
end

