-- ==== Sys2Proof/Machine/Circuits.lean ====
section
/-! DEFINITION. Circuits (R229 to R231, R315) and the enlargement of a receive queue (R42).

The slot table's layout is not in the spec, so the slots of a pair, and how long a transfer takes, are free constants
of the image (log entry 104). -/
namespace Sys2Proof.Machine

/-! ### Departure (R230, R231) -/

def Send.entered : Send → Nat
  | .vector _ _ c => c
  | .multicast _ _ _ _ _ c => c

/-- The target of a vector; none for a multicast. -/
def Send.target : Send → Option Nat
  | .vector t _ _ => some t
  | .multicast .. => none

/-- Every access that its sequencer triggered before a send is performed; a barrier wait is none (R212, R339; log
entry 105). -/
def Core.sendOrdered (k : Core) (e : SendEntry) : Bool :=
  (k.seq e.q).stores.all (e.order < ·.order) && (k.seq e.q).allLoads.all fun l =>
    l.performed || e.order < l.order || (match l.kind with | .bwait .. => true | _ => false)

/-- Room in a receive queue, with the vectors on their way counted. -/
def State.circuitRoom (s : State) (target : Nat) : Bool :=
  (s.core target).circuit.length + (s.flights.filter fun f => f.target == target).length < (s.core target).circuitCap

/-- The multicast slot of a core begins in this clock (R315). -/
def State.mcastBegins (s : State) (c : Nat) : Bool :=
  s.clock % Config.revolution == Config.mcastSlot (s.imageOf c) c % (lastSlot + 1)

/-- The slot of an entry begins in this clock, and nothing has departed in it; vectors to other dies travel at any time
(R230, R231, R315). -/
def State.slotOpen (s : State) (c : Nat) (target : Option Nat) : Bool :=
  match target with
  | some t => dieOf t != dieOf c ||
    (s.slotBegins c t s.clock && !s.flights.any fun f => f.src == c && f.target == t && f.left == s.clock)
  | none => s.mcastBegins c && !s.mcasts.any fun m => m.src == c && m.left == s.clock

/-- The entry at place `i` of a send buffer departs: no entry of its pair stands before it, it entered at least two
clocks ago, its slot begins, its target has room, and what its vector is ordered after is performed. -/
def State.mayDepart (s : State) (c i : Nat) : Bool :=
  let es := (s.core c).sends
  match es[i]? with
  | some e =>
    !((es.take i).any fun p => p.send.target == e.send.target) && e.send.entered + 2 ≤ s.clock && s.slotOpen c e.send.target &&
      (match e.send.target with
        | some t => s.circuitRoom t && (s.core c).sendOrdered e
        | none => true)
  | none => false

/-- Places of the send buffer that may depart. -/
def State.departures (s : State) (c : Nat) : List Nat := (List.range 8).filter fun i => s.mayDepart c i

/-- The clock in which a transfer lands: on the die the one that the slot table fixes, on another any later one (R230,
R231, R315). -/
def State.landingClock (s : State) (c t : Nat) : Nat × State :=
  if dieOf t = dieOf c then (slotLands (s.imageOf c) c t s.clock, s)
  else let r := s.nextChoice; (s.clock + 3 + r.1, r.2)

/-- A vector on its way, no earlier than the ones of its pair before it (R230); one that a ring link loses arrives poisoned
(R206, R319; log entry 121). -/
def State.sendFlight (s : State) (c t : Nat) (v : Vec) (chain : Past) : State :=
  let r := s.landingClock c t
  let last := s.flights.foldl (fun m f => if f.src == c && f.target == t then max m f.clock else m) 0
  { r.2 with flights := r.2.flights ++
      [{ src := c, target := t, val := v, left := s.clock, clock := max last r.1,
         poisoned := s.ringCut (dieOf c) (dieOf t), chain := chain }] }

/-- The targets of a multicast on one die land together, no earlier than those of one before it from the same core (R231,
R316).  What a ring link loses raises LINK in its sender (R319). -/
def State.sendMulticast (s : State) (c q off : Nat) (mask : Word) (v : Vec) (targets : List Nat) : State :=
  (List.range 4).foldl (fun s d =>
    let ts := targets.filter fun t => dieOf t == d
    if ts.isEmpty then s
    else if s.ringCut (dieOf c) d then s.modSeq c q fun x => x.addPending .link
    else
      let r := s.landingClock c (if d = dieOf c then c else 128 * d)
      let last := s.mcasts.foldl (fun n m => if m.src == c && m.targets.any (dieOf · == d) then max n m.clock else n) 0
      { r.2 with mcasts := r.2.mcasts ++
          [{ src := c, targets := ts, off := off, mask := mask, val := v, left := s.clock, clock := max last r.1, poisoned := false }] }) s

/-- The cores of a launch at positions from `first` on. -/
def State.positions (s : State) (c first count : Nat) : List Nat :=
  match (s.core c).launch.bind s.launch with
  | some l => (l.cores.drop first).take count
  | none => []

/-- An entry leaves the send buffer. -/
def State.depart (s : State) (c i : Nat) : State :=
  match (s.core c).sends[i]? with
  | some e =>
    let s := s.modCore c fun k => { k with sends := k.sends.eraseIdx i }
    match e.send with
    | .vector t v _ => s.sendFlight c t v (s.pastOfSend c e)
    | .multicast off first count m v _ => s.sendMulticast c e.q off m v (s.positions c first count)
  | none => s

/-- CX_SEND_DEPART (R230): an entry whose slot begins. -/
def execCxSendDepart (core : Nat) (s : State) : Out :=
  match s.departures core with
  | [] => .next s
  | [i] => .next (s.depart core i)
  | is =>
    let r := s.nextChoice
    .next (r.2.depart core (is.getD (r.1 % is.length) 0))

/-! ### Arrival (R229 to R231) -/

/-- Vectors of a core that have arrived: by arrival clock, then by source position, then in the order sent (R230). -/
def State.arrivals (s : State) (core : Nat) : List Flight := s.flights.filter fun f => f.target == core && f.clock ≤ s.clock

def State.nextFlight (s : State) (core : Nat) : Option Flight :=
  pickLeast (fun (f : Flight) => f.clock * 65536 + (s.core f.src).position) (s.arrivals core)

/-- CX_VECTOR_ARRIVE (R230). -/
def execCxVectorArrive (core : Nat) (s : State) : Out :=
  match s.nextFlight core with
  | some f =>
    let s : State := { s with flights := s.flights.erase f }
    .next (s.modCore core fun k =>
      { k with circuit := k.circuit ++ [{ src := f.src, val := f.val, poisoned := f.poisoned, chain := f.chain }] })
  | none => .next s

/-- The bytes that a multicast writes: guarded-off lanes are left unwritten (R231). -/
def mcastBytes (m : McstFlight) : List (Option Byte) :=
  ((List.range 64).map fun i =>
    if m.mask.getLsbD i then (natBytes 4 (lane m.val i).toNat).map some else List.replicate 4 none).flatten

/-- A multicast lands in one scratchpad; poisoned flits poison the words they reach (R205, R231). -/
def McstFlight.land (m : McstFlight) (k : Core) : Core :=
  let k := k.writeSpad m.off (mcastBytes m)
  if m.poisoned then
    { k with spadPoison := spreadPoison 4 k.spadPoison m.off (((mcastBytes m).zipIdx.filter fun e => e.1.isSome).map (·.2)) }
  else k

def State.nextMcast (s : State) (core : Nat) : Option McstFlight := s.mcasts.find? fun m => m.src == core && m.clock ≤ s.clock

/-- A multicast lands in the scratchpads of its targets. -/
def State.landMcast (s : State) (m : McstFlight) : State :=
  let s : State := { s with mcasts := s.mcasts.erase m }
  m.targets.foldl (fun s t => s.modCore t fun k => m.land k) s

/-- CX_MCST_LAND (R231): the targets of one die. -/
def execCxMcstLand (core : Nat) (s : State) : Out :=
  match s.nextMcast core with
  | some m => .next (s.landMcast m)
  | none => .next s

/-! ### Blocked launches (R42) -/

/-- Every unit that has started and is not complete is held. -/
def State.blocked (s : State) (l : Launch) : Bool :=
  let us := s.liveUnits l
  l.state == .running && !us.isEmpty && us.all fun u => (s.seq u.1 u.2).run == .running && (s.seq u.1 u.2).hold.isSome

/-- The receive queues of a launch that are full. -/
def State.fullQueues (s : State) (l : Launch) : List Nat :=
  l.cores.filter fun c => (s.core c).circuitCap ≤ (s.core c).circuit.length

/-- The launch has been blocked for 1,024 clocks with a full queue. -/
def State.enlargeDue (s : State) (l : Launch) : Bool :=
  match l.blockedFrom with
  | some b => b + Config.blockedClocks ≤ s.clock && s.blocked l && !(s.fullQueues l).isEmpty
  | none => false

/-- The smallest full queue, and of those the lowest-numbered core's. -/
def State.enlargeTarget (s : State) (l : Launch) : Option Nat :=
  pickLeast (fun c => (s.core c).circuitCap * Config.cores + c) (s.fullQueues l)

/-- CIRCUIT_QUEUE_ENLARGE (R42): 16 more vectors from the die's pool, or every running unit fails. -/
def execCircuitQueueEnlarge (launch : Nat) (s : State) : Out :=
  match s.launch launch with
  | some l =>
    if s.enlargeDue l then
      match s.enlargeTarget l with
      | none => .next s
      | some c =>
        if (s.die l.die).pool = 0 then
          .next ((s.activeUnits l).foldl (fun s u => if (s.seq u.1 u.2).active then s.failUnit u.1 u.2 .watchdog else s)
            (s.setLaunch launch { l with blockedFrom := none }))
        else
          .next (((s.setLaunch launch { l with blockedFrom := none, enlarged := l.enlarged + 1 }).modDie l.die
            fun d => { d with pool := d.pool - 1 }).modCore c fun k => { k with circuitCap := k.circuitCap + 16 })
    else .next s
  | none => .next s

end Sys2Proof.Machine
end

