-- ==== Sys2Proof/Machine/Engines.lean ====
section
/-! DEFINITION. The transform engines (R308 to R314): one request at a time of each running ring, its reads
at home, its writes line by line in ascending address, its stage arrivals and its completion record. -/
namespace Sys2Proof.Machine

/-- A byte with its poison. -/
abbrev XByte := Byte × Bool

/-! ### Requests (R310) -/

structure XReq where
  op : Nat
  sfmt : Nat
  dfmt : Nat
  qw : Nat
  bar : Nat
  src : Nat
  dst : Nat
  rows : Nat
  rbytes : Nat
  sstr : Int
  dstr : Int
  stage : Nat
  reserved : Bool
  deriving DecidableEq, Repr

/-- A 64-bit field as a signed number. -/
def signed64 (n : Nat) : Int := (BitVec.ofNat 64 n).toInt

def xreqOf (b : List Byte) : XReq :=
  { op := field b 0 1, sfmt := field b 1 1, dfmt := field b 2 1, qw := field b 3 1, bar := field b 4 4,
    src := field b 8 8, dst := field b 16 8, rows := field b 24 4, rbytes := field b 28 4,
    sstr := signed64 (field b 32 8), dstr := signed64 (field b 40 8), stage := field b 48 4,
    reserved := field b 52 12 != 0 }

/-- Elements of `RBYTES` bytes in a float or HX format; none where they are no whole elements. -/
def elemsIn (fmt n : Nat) : Option Nat :=
  match hxOf fmt with
  | some h => if n % h.bytes = 0 then some (n / h.bytes * 16) else none
  | none => if n % elemBytes fmt = 0 then some (n / elemBytes fmt) else none

/-- The HX format code of a width. -/
def hxCode (qw : Nat) : Nat := if qw = 2 then 10 else if qw = 4 then 11 else 12

/-- The limits of a request (R310); outside them it ends with status 4 (R313).  `PCPY` ignores every field but ROWS, SRC
and DST and those of its stages. -/
def XReq.ok (r : XReq) : Bool :=
  (r.op == 5 || !r.reserved) && r.stage % 256 == 0 &&
    (match r.op with
    | 1 => convFmt r.sfmt && convFmt r.dfmt && (r.qw == 0 || ((r.qw == 2 || r.qw == 4 || r.qw == 7) && (hxOf r.dfmt).isNone)) &&
        (match elemsIn r.sfmt r.rbytes with
          | some n => n % 16 == 0 || (r.qw == 0 && (hxOf r.dfmt).isNone)
          | none => false)
    | 2 => r.rows == 1 && 1 ≤ r.sfmt && r.sfmt ≤ 9
    | 3 => r.rows == 1 && r.rbytes % 256 == 0
    | 4 => true
    | 5 => r.src % 65536 == 0 && r.dst % 65536 == 0
    | _ => false)

/-! ### Reading at home (R314) -/

/-- Cut a run of an address space at the lines. -/
def cutAtLines : Nat → Nat → Nat → List (Nat × Nat)
  | 0, _, _ => []
  | fuel + 1, va, n =>
    if n = 0 then []
    else
      let k := min n (256 - va % 256)
      (va, k) :: cutAtLines fuel (va + k) (n - k)

def runsOf (va n : Nat) : List (Nat × Nat) := cutAtLines (n / 256 + 2) va n

/-- Status codes of a failed translation (R313). -/
def accessStatus (c : Cause) : Nat := if c = .protection then 2 else 1

/-- Read a run through the address space for an engine of die `d`, with the poison of each byte; status 7 where a link
is down (R319). -/
def State.engineRead (s : State) (d asid va n : Nat) : Except Nat (List XByte) :=
  (runsOf va n).foldlM (fun out p => match s.resolveIn asid .load p.1 with
    | .at (.mem pa) => if s.cut d pa then .error 7 else .ok (out ++ (List.range p.2).map fun i => (s.readByte (pa + i), mapGet false s.poison ((pa + i) / 32)))
    | .trap c => .error (accessStatus c)
    | _ => .error 1) []

/-! ### What a request reads and makes (R310, R311)

A request is read unit by unit: a row of `REQ`, a piece of a row of `COPY` or `PCPY` that lies in one destination line,
a chunk of `ZPK` or `ZEX`. -/

/-- A unit as it has been read: what it makes, the source bytes it took, and its flags. -/
structure XRead where
  made : EngineUnit
  took : Nat
  flags : Flags
  deriving DecidableEq, Repr

/-- The address of row `r`. -/
def rowVa (base : Nat) (stride : Int) (r : Nat) : Nat := (BitVec.ofInt 64 ((base : Int) + r * stride)).toNat

/-- Lines of a row, as places in the row. -/
def rowPieces (dst n : Nat) : List (Nat × Nat) := (runsOf dst n).map fun p => (p.1 - dst, p.2)

/-- `PCPY` is one row of whole pages (R310). -/
def XReq.plain (q : XReq) : XReq := if q.op = 5 then { q with rows := 1, rbytes := q.rows * 65536, sstr := 0, dstr := 0 } else q

/-- The pieces of `COPY` and `PCPY`: row, place in it, bytes. -/
def XReq.pieces (q : XReq) : List (Nat × Nat × Nat) :=
  ((List.range q.rows).map fun r => (rowPieces (rowVa q.dst q.dstr r) q.rbytes).map fun p => (r, p.1, p.2)).flatten

/-- The values of a row in a float or HX format (R133, R135). -/
def rowVals (fmt n : Nat) (b : List Byte) : List FVal := ((tileVals fmt 1 n false b).headD [])

/-- Requantise the values of a row (R133, R135, R136, R310). -/
def requantise (q : XReq) (rm : RM) (xs : List FVal) : List Byte × Flags :=
  if q.qw = 0 then convertLine q.dfmt rm xs
  else
    let h := convertLine (hxCode q.qw) rm xs
    let r := convertLine q.dfmt rm (rowVals (hxCode q.qw) xs.length h.1)
    (r.1, h.2 ||| r.2)

/-- Elements that share their poison: a block where HX is involved, else one. -/
def XReq.group (q : XReq) : Nat := if (hxOf q.sfmt).isSome || (hxOf q.dfmt).isSome || q.qw != 0 then 16 else 1

/-- Bytes of a group in a format. -/
def groupBytes (fmt g : Nat) : Nat :=
  match hxOf fmt with
  | some h => h.bytes
  | none => g * elemBytes fmt

/-- Destination bytes of a row (R310). -/
def XReq.rowOut (q : XReq) : Nat :=
  if q.op = 1 then
    let n := (elemsIn q.sfmt q.rbytes).getD 0
    match hxOf q.dfmt with
    | some h => n / 16 * h.bytes
    | none => n * elemBytes q.dfmt
  else q.rbytes

/-- Read the next unit; none when the last one has been read, and the status of a read that fails. -/
abbrev XNext := Except Nat (Option XRead)

/-- A piece of a row (R310). -/
def State.readCopy (s : State) (d asid : Nat) (q : XReq) (k : Nat) : XNext :=
  match q.pieces[k]? with
  | none => .ok none
  | some (r, off, n) => (s.engineRead d asid (rowVa q.src q.sstr r + off) n).map fun b =>
    some { made := { dst := rowVa q.dst q.dstr r + off, out := b }, took := n, flags := 0 }

/-- A row of `REQ`, converted (R310). -/
def State.readRow (s : State) (d asid : Nat) (q : XReq) (rm : RM) (r : Nat) : XNext :=
  if q.rows ≤ r then .ok none
  else (s.engineRead d asid (rowVa q.src q.sstr r) q.rbytes).map fun b =>
    let c := requantise q rm (rowVals q.sfmt ((elemsIn q.sfmt q.rbytes).getD 0) (b.map (·.1)))
    let bad := fun (i : Nat) =>
      let g := i / groupBytes q.dfmt q.group
      ((b.drop (g * groupBytes q.sfmt q.group)).take (groupBytes q.sfmt q.group)).any (·.2)
    some { made := { dst := rowVa q.dst q.dstr r, out := c.1.mapIdx fun i x => (x, bad i) }, took := q.rbytes, flags := c.2 }

/-- A chunk of `ZPK`; the last one is padded with zeros (R310, R311). -/
def State.readDense (s : State) (d asid : Nat) (q : XReq) (pos made : Nat) : XNext :=
  if q.rbytes ≤ pos then .ok none
  else
    let n := min 256 (q.rbytes - pos)
    (s.engineRead d asid (q.src + pos) n).map fun b =>
      let bad := b.any (·.2)
      let out := zPackOne (zSize q.sfmt) (b.map (·.1) ++ List.replicate (256 - n) 0)
      some { made := { dst := q.dst + made, out := out.map fun x => (x, bad) }, took := n, flags := 0 }

/-- A chunk of `ZEX`; a header that is not well formed stops it with status 3 (R310, R311). -/
def State.readChunk (s : State) (d asid : Nat) (q : XReq) (pos made : Nat) : XNext :=
  if q.rbytes ≤ made then .ok none
  else match s.engineRead d asid (q.src + pos) 8 with
    | .error e => .error e
    | .ok hb =>
      let h := leNat (hb.map (·.1))
      if !zHeaderOk h then .error 3
      else (s.engineRead d asid (q.src + pos + 8) (zPayload h)).map fun b =>
        let bad := hb.any (·.2) || b.any (·.2)
        some { made := { dst := q.dst + made, out := (zExpandOne h (b.map (·.1))).map fun x => (x, bad) },
               took := 8 + zPayload h, flags := 0 }

/-- The next unit of a request: after `k` units, `pos` source bytes and `made` destination bytes. -/
def State.readUnit (s : State) (d asid : Nat) (q : XReq) (rm : RM) (k pos made : Nat) : XNext :=
  match q.op with
  | 1 => s.readRow d asid q rm k
  | 2 => s.readDense d asid q pos made
  | 3 => s.readChunk d asid q pos made
  | _ => s.readCopy d asid q.plain k

/-! ### Overlap (R310) -/

def runsMeet (a b : Nat × Nat) : Bool := a.1 < b.1 + b.2 && b.1 < a.1 + a.2

/-- Source and destination of rows overlap otherwise than R310 allows. -/
def XReq.rowsClash (q : XReq) : Bool :=
  let rows := List.range q.rows
  !(q.src == q.dst && q.sstr == q.dstr && q.rbytes == q.rowOut) &&
    rows.any fun i => rows.any fun j => runsMeet (rowVa q.src q.sstr i, q.rbytes) (rowVa q.dst q.dstr j, q.rowOut)

/-- The source and destination bytes of a stream of chunks as memory stands. -/
def State.chunkTotals (s : State) (d asid : Nat) (q : XReq) : Nat → Nat → Nat → Nat × Nat
  | 0, pos, made => (pos, made)
  | fuel + 1, pos, made =>
    match s.readUnit d asid q .rne 0 pos made with
    | .ok (some u) => s.chunkTotals d asid q fuel (pos + u.took) (made + u.made.out.length)
    | _ => (pos, made)

/-- Source and destination of a request overlap otherwise than R310 allows. -/
def State.clashes (s : State) (d asid : Nat) (q : XReq) : Bool :=
  if q.op = 2 || q.op = 3 then
    let t := s.chunkTotals d asid q (q.rbytes / 256 + 1) 0 0
    !(q.src == q.dst && q.sstr == q.dstr && t.1 == t.2) && runsMeet (q.src, t.1) (q.dst, t.2)
  else q.plain.rowsClash

/-! ### The lines that a request writes (R314) -/

/-- Lines that a run of addresses touches. -/
def linesTouched (dst n : Nat) : List Nat := unitsOf 256 dst n

/-- The lowest of a list of lines that is not below a given one. -/
def lowestFrom (line : Nat) (ls : List Nat) : Option Nat := pickLeast id (ls.filter (line ≤ ·))

/-- Lines of the units that are still to be read; a stream of chunks goes on from its last destination byte, and in place
no line is written of which it has source bytes still to read (R310). -/
def XReq.linesAhead (q : XReq) (w : EngineWork) : List Nat :=
  match q.op with
  | 1 => (((List.range q.rows).drop w.next).map fun r => linesTouched (rowVa q.dst q.dstr r) q.rowOut).flatten
  | 2 | 3 => (q.dst + w.made) / 256 :: (if q.src = q.dst then [(q.src + w.pos) / 256] else [])
  | _ => (q.plain.pieces.drop w.next).map fun p => (rowVa q.plain.dst q.plain.dstr p.1 + p.2.1) / 256

/-- Lines of the units read and not written. -/
def EngineWork.linesRead (w : EngineWork) : List Nat := (w.units.map fun u => linesTouched u.dst u.out.length).flatten

/-- The line to be written next: the lowest that any unit of the request touches (R314), once every unit that touches it
or a lower one has been read.  A stream of chunks goes on upwards only. -/
def EngineWork.nextLine (w : EngineWork) (q : XReq) : Option Nat :=
  match lowestFrom w.line w.linesRead with
  | none => none
  | some l => match w.ending with
    | some _ => some l
    | none => match lowestFrom w.line (q.linesAhead w) with
      | none => some l
      | some m => if l < m then some l else none

/-- The bytes of a line that the units read put there, a later unit over an earlier one (R310, R314). -/
def EngineWork.lineBytes (w : EngineWork) (line : Nat) : List (Option XByte) :=
  w.units.foldl (fun bs u => bs.mapIdx fun j b =>
    let a := line * 256 + j
    if u.dst ≤ a then (match u.out[a - u.dst]? with | some x => some x | none => b) else b) (List.replicate 256 none)

/-- Undefined bytes in the places that a line's units write (R8, R310). -/
def State.spoilLine (s : State) (bs : List (Option XByte)) : List (Option XByte) × State :=
  let f := s.freshBytes bs.length
  (bs.zipIdx.map fun e => e.1.map fun _ => (f.1.getD e.2 0, false), f.2)

/-- A line's bytes merge with their poison, as one merge (R206, R239, R314). -/
def State.mergeLine (s : State) (pa : Nat) (bs : List (Option XByte)) : State :=
  let s := s.mergeHome pa (bs.map fun b => b.map (·.1))
  let bad := (bs.zipIdx.filter fun e => e.1.any (·.2)).map fun e => (pa + e.2) / 32
  { s with poison := bad.foldl (fun t u => mapInsert u true t) s.poison }

/-! ### The steps of a request -/

def EngineWork.xreq (w : EngineWork) : XReq := xreqOf w.req

/-- A request that has ended before it reads anything. -/
def endedWork (index status : Nat) : EngineWork :=
  { index := index, req := [], rm := 0, clash := false, next := 0, pos := 0, made := 0, ending := some status, units := [], line := 0,
    bad := false, src := 0, dst := 0, flags := 0 }

/-- The work of a request that starts now (R310, R313). -/
def State.startWork (s : State) (d asid index rm : Nat) (req : Except Nat (List XByte)) : EngineWork :=
  match req with
  | .error e => endedWork index e
  | .ok b =>
    let bs := b.map (·.1)
    if b.any (·.2) then endedWork index 6
    else if !(xreqOf bs).ok then endedWork index 4
    else { endedWork index 0 with req := bs, rm := rm, ending := none, clash := s.clashes d asid (xreqOf bs) }

/-- Read the next unit (R310). -/
def State.workRead (s : State) (d asid : Nat) (w : EngineWork) : EngineWork :=
  match s.readUnit d asid w.xreq (RM.ofCode w.rm) w.next w.pos w.made with
  | .error e => { w with ending := some e, src := if e = 3 then w.src + 8 else w.src }
  | .ok none => { w with ending := some 0 }
  | .ok (some u) =>
    { w with
      next := w.next + 1, pos := w.pos + u.took, made := w.made + u.made.out.length, units := w.units ++ [u.made],
      bad := w.bad || u.made.out.any (·.2), src := w.src + u.took, flags := w.flags ||| u.flags }

/-- The request has a barrier to arrive at. -/
def EngineWork.staged (w : EngineWork) : Bool := w.xreq.bar != 0 && w.xreq.stage != 0

/-! ### XFORM_REQUEST (R310, R312, R314) -/

def State.ring (s : State) (asid r : Nat) : Option Ring := mapGet none s.rings (asid * 16 + r)
def State.setRing (s : State) (asid r : Nat) (x : Ring) : State :=
  { s with rings := mapInsert (asid * 16 + r) (some x) s.rings }

/-- The descriptor of a ring as an engine of die `d` reads it at home; none where it cannot be used (R309, R319). -/
def State.engineDesc (s : State) (d asid r : Nat) : Option RingDesc :=
  match s.ringVa asid r with
  | none => none
  | some va => match s.resolveIn asid .load va with
    | .at (.mem pa) => if s.cut d pa then none else ringDesc (s.readMem pa 32)
    | _ => none

/-- The run of a ring is over: the engine takes the kick it held, or rests (R309). -/
def Ring.endRun (x : Ring) : Ring :=
  if x.again then { x with again := false, rm := x.nextRm, tail := none, work := none } else { x with running := false, tail := none, work := none }

/-- An arrival of a ring's engine, of die `d`, at a stage barrier, at system scope with an all-ones signature (R225, R312); the
status of one that is refused or that a link loses (R313, R319). -/
def State.stageArrive (s : State) (key d : Nat) (bar : Word) : Except Nat State :=
  if s.ringCut d (handleDie bar) then .error 7
  else match s.liveBarrier bar with
    | some b => .ok (s.countArrival bar b (BitVec.allOnes 1024) { party := none, scope := 5, chain := s.ownPast (ringParty key) })
    | none => .error 5

/-- The request has run; its completion record is due. -/
def Ring.finish (x : Ring) (w : EngineWork) (status : Nat) : Ring :=
  { x with work := some { w with units := [] }, finished := some (w.src, w.dst, status, w.flags.toNat % 64) }

/-- A request ends: a partial stage arrives, whatever the ending (R312). -/
def State.workEnd (s : State) (asid r : Nat) (x : Ring) (w : EngineWork) (status : Nat) : State :=
  if w.staged && w.dst % w.xreq.stage != 0 then
    match s.stageArrive (asid * 16 + r) x.die (BitVec.ofNat 64 w.xreq.bar) with
    | .ok s => s.setRing asid r (x.finish w status)
    | .error e => s.setRing asid r (x.finish w (if status = 0 then e else status))
  else s.setRing asid r (x.finish w status)

/-- A line has been written: a stage that it completes arrives (R312). -/
def State.lineWritten (s : State) (asid r : Nat) (x : Ring) (w : EngineWork) (n : Nat) : State :=
  let stage := w.xreq.stage
  let w' := { w with dst := w.dst + n }
  if w.staged && w.dst / stage < w'.dst / stage then
    match s.stageArrive (asid * 16 + r) x.die (BitVec.ofNat 64 w.xreq.bar) with
    | .ok s => s.setRing asid r { x with work := some w' }
    | .error e => s.setRing asid r (x.finish w' e)
  else s.setRing asid r { x with work := some w' }

/-- Write a line (R310, R314); one that does not translate, or that a link cuts off, ends the request (R313, R319). -/
def State.workLine (s : State) (asid r : Nat) (x : Ring) (w : EngineWork) (line : Nat) : State :=
  match s.resolveIn asid .store (line * 256) with
  | .at (.mem pa) =>
    if s.cut x.die pa then s.workEnd asid r x w 7
    else
      let bs := w.lineBytes line
      let t := if w.clash then s.spoilLine bs else (bs, s)
      let w' := { w with line := line + 1, units := w.units.filter fun u => (line + 1) * 256 < u.dst + u.out.length }
      ((t.2.mergeLine pa t.1).noteAgent (ringParty (asid * 16 + r)) pa (t.1.map fun b => b.map (·.1))).lineWritten asid r x w' (bs.filter Option.isSome).length
  | .trap c => s.workEnd asid r x w (accessStatus c)
  | _ => s.workEnd asid r x w 1

/-- The next step of a request: a line that can be written, or the next unit; with both, either comes first (R340). -/
def State.workStep (s : State) (asid r : Nat) (x : Ring) (w : EngineWork) : State :=
  let read := fun (s : State) => s.setRing asid r { x with work := some (s.workRead x.die asid w) }
  match w.nextLine w.xreq, w.ending with
  | some l, some _ => s.workLine asid r x w l
  | some l, none =>
    let s' : State := { s with choices := s.choices + 1 }
    if Config.coin s.choices then s'.workLine asid r x w l else read s'
  | none, some e => s.workEnd asid r x w (if e = 0 && w.bad then 6 else e)
  | none, none => read s

/-- Take the next request of the run, or end the run. -/
def State.nextRequest (s : State) (asid r : Nat) (x : Ring) : State :=
  match s.engineDesc x.die asid r with
  | none => s.setRing asid r { x with running := false, again := false, tail := none, work := none }
  | some d =>
    let tail := x.tail.getD d.tail
    if d.head = tail then s.setRing asid r x.endRun
    else
      let w := s.startWork x.die asid d.head x.rm (s.engineRead x.die asid (d.rbase + 64 * (d.head % 2 ^ d.log)) 64)
      s.setRing asid r { x with tail := some tail, work := some w }

/-- XFORM_REQUEST (R310): the request's start, each unit that it reads, each line that it writes, and its end. -/
def execXformRequest (asid ring : Nat) (s : State) : Out :=
  match s.ring asid ring with
  | some x =>
    if x.running && x.finished.isNone then
      match x.work with
      | none => .next (s.nextRequest asid ring x)
      | some w => .next (s.workStep asid ring x w)
    else .next s
  | none => .next s

/-! ### XFORM_COMPLETION (R313) -/

/-- The completion record but for SEQ. -/
def recordBytes (index : Nat) (f : Nat × Nat × Nat × Nat) : List Byte :=
  natBytes 8 f.1 ++ natBytes 8 f.2.1 ++ natBytes 1 f.2.2.1 ++ natBytes 1 f.2.2.2 ++ natBytes 2 0 ++ natBytes 4 index

/-- Write what belongs at an address of the space for an engine of die `d`; what a link cuts off is lost (R319). -/
def State.postAt (s : State) (d asid va : Nat) (f : Nat → State) : State :=
  match s.resolveIn asid .store va with
  | .at (.mem pa) => if s.cut d pa then s else f pa
  | _ => s

/-- Write a completion record but for SEQ (R313). -/
def State.postCompletion (s : State) (key d asid va index : Nat) (f : Nat × Nat × Nat × Nat) : State :=
  s.postAt d asid va fun pa => (s.mergeRun pa (recordBytes index f)).noteAgent (ringParty key) pa ((recordBytes index f).map some)

/-- Release SEQ of a completion record, after what the ring has written (R219, R313, R339). -/
def State.postSeq (s : State) (key d asid va seq : Nat) : State :=
  s.postAt d asid va fun pa => s.releaseWord (pa + 24) (BitVec.ofNat 64 seq) (s.ownPast (ringParty key))

/-- HEAD := i + 1; none where the descriptor cannot be written. -/
def State.writeHead (s : State) (d asid r head : Nat) : Option State :=
  match s.ringVa asid r with
  | none => none
  | some va => match s.resolveIn asid .store va with
    | .at (.mem pa) => if s.cut d pa then none else some (s.mergeRun (pa + 24) (natBytes 4 head))
    | _ => none

/-- A ring at rest: the run is over, and no kick is held. -/
def Ring.rest (x : Ring) : Ring := { x with running := false, again := false, finished := none, told := 0, work := none, tail := none }

/-- The next part of a request's completion: its record, its SEQ, then HEAD (R313). -/
def State.tell (s : State) (asid r : Nat) (x : Ring) (d : RingDesc) (w : EngineWork) (f : Nat × Nat × Nat × Nat) : State :=
  let va := d.cbase + 32 * (w.index % 2 ^ d.log)
  match x.told with
  | 0 => (s.postCompletion (asid * 16 + r) x.die asid va w.index f).setRing asid r { x with told := 1 }
  | 1 => (s.postSeq (asid * 16 + r) x.die asid va (x.completed + 1)).setRing asid r { x with told := 2, completed := (x.completed + 1) % 2 ^ 64 }
  | _ => match s.writeHead x.die asid r ((w.index + 1) % 2 ^ 32) with
    | some s => s.setRing asid r { x with finished := none, told := 0, work := none }
    | none => s.setRing asid r x.rest

/-- XFORM_COMPLETION (R313). -/
def execXformCompletion (asid ring : Nat) (s : State) : Out :=
  match s.ring asid ring with
  | some x =>
    match x.finished, x.work, s.engineDesc x.die asid ring with
    | some f, some w, some d => .next (s.tell asid ring x d w f)
    | some _, _, _ => .next (s.setRing asid ring x.rest)
    | none, _, _ => .next s
  | none => .next s

end Sys2Proof.Machine
end

