-- ==== Sys2Proof/Machine/Images.lean ====
section
/-! DEFINITION. Images and start vectors as bytes (R250, R330 to R332), and the acceptance of a vector
(R208, R232, R251, R253, R336). -/
namespace Sys2Proof.Machine

/-! ### Images (R330 to R332) -/

def State.image (s : State) (h : Nat) : Option Image := mapGet none s.images h

def Image.launches (im : Image) : Nat := field im.bytes 6 2
def Image.code (im : Image) : Nat := field im.bytes 8 8
def Image.codeLen (im : Image) : Nat := field im.bytes 16 8
def Image.launchAt (im : Image) : Nat := field im.bytes 32 8
def Image.safeAt (im : Image) : Nat := field im.bytes 40 8
def Image.safeCount (im : Image) : Nat := field im.bytes 48 4

/-- A launch header from its 64 bytes (R331). -/
def headerOf (im : Image) (b : List Byte) : Header :=
  let cores := field b 0 2
  let at_ := field b 16 8
  let entries := (List.range cores).map fun i => field im.bytes (at_ + 4 * i) 4
  { cores := cores, opbanks := field b 2 1, claim := BitVec.ofNat 7 (field b 3 1), scratch := field b 4 4, remtime := field b 8 4,
    killable := bitAt (field b 12 1) 0, idempotent := bitAt (field b 12 1) 1,
    unitPolicy := bits (field b 13 1) 1 0, launchPolicy := bits (field b 13 1) 3 2, entries := entries,
    reserved := bitAt (field b 3 1) 7 || bits (field b 12 1) 7 2 != 0 || bits (field b 13 1) 7 4 != 0 || field b 14 2 != 0 || field b 24 40 != 0
    entriesOk := 1 ≤ cores && cores ≤ 128 && at_ + 4 * cores ≤ im.bytes.length && entries.all fun e => e % 16 == 0 && e < im.codeLen }

/-- The launch header of an index. -/
def Image.header (im : Image) (i : Nat) : Option Header :=
  if i < im.launches then some (headerOf im ((im.bytes.drop (im.launchAt + 64 * i)).take 64)) else none

/-- The live masks of a safe point: vectors, scalars, predicates (R332). -/
def Image.safePoint (im : Image) (off : Nat) : Option (Nat × Nat × Nat) :=
  ((List.range im.safeCount).find? fun i => field im.bytes (im.safeAt + 32 * i) 4 == off).map fun i =>
    let a := im.safeAt + 32 * i
    (field im.bytes (a + 4) 4, field im.bytes (a + 8) 8, field im.bytes (a + 16) 8)

/-! ### Start vectors (R250) -/

def startVecOf (b : List Byte) : StartVec :=
  { image := field b 0 4, header := field b 4 2, queue := field b 6 1, dies := field b 7 1, arg := BitVec.ofNat 64 (field b 8 8),
    graph := field b 16 4, lnum := field b 20 2, gsize := field b 22 2, deps := field b 24 2,
    succ := (List.range 4).map fun i => field b (26 + 2 * i) 2, policy := field b 34 1, phase := field b 36 4,
    pgraphs := field b 40 2, jphases := field b 42 2, job := field b 44 4, ckpt := field b 48 8,
    reserved := 16 ≤ field b 7 1 || 64 ≤ field b 34 1 || field b 35 1 != 0 || field b 56 8 != 0 || 64 ≤ field b 6 1 }

/-- A header for a vector that names none. -/
def Header.none_ : Header :=
  { cores := 0, opbanks := 0, claim := 0, scratch := 0, remtime := 0, killable := false, idempotent := false, unitPolicy := 0,
    launchPolicy := 0, entries := [], reserved := false, entriesOk := false }

/-- An incomplete level. -/
def State.openLevel (s : State) (v : Level) (id : Nat) : Option LevelRec :=
  match s.level v id with
  | some r => if r.complete then none else some r
  | none => none

/-- Two vectors of one graph agree (R251). -/
def StartVec.agrees (a b : StartVec) : Bool :=
  a.gsize == b.gsize && a.policy == b.policy && a.phase == b.phase && a.pgraphs == b.pgraphs && a.jphases == b.jphases &&
    a.job == b.job && a.ckpt == b.ckpt

/-- The vector agrees with the earlier ones of its incomplete graph and job (R251). -/
def State.vectorAgrees (s : State) (v : StartVec) : Bool :=
  (match (s.openLevel .graph v.graph).bind (·.vec) with
    | some w => v.agrees w
    | none => true) &&
  (match (s.openLevel .job v.job).bind (·.vec) with
    | some w => v.jphases == w.jphases
    | none => true)

/-- The launch header that a vector names. -/
def State.headerFor (s : State) (v : StartVec) : Option Header := (s.image v.image).bind fun im => im.header v.header

/-- The launch error of a vector (R251, R336). -/
def State.vectorError (s : State) (v : StartVec) : EndCause :=
  if !(s.featBound && s.featAcc.getLsbD 0) then .launchVector
  else if v.reserved || v.dies % 16 = 0 || v.gsize ≤ v.lnum || v.pgraphs = 0 || v.jphases = 0 || v.ckpt % 8 ≠ 0 then .launchVector
  else match s.headerFor v with
    | none => .launchVector
    | some h =>
      if h.reserved || !h.entriesOk || !s.vectorAgrees v then .launchVector
      else if !banksOk h then .launchBanks else .none

/-! ### Acceptance (R251, R253) -/

/-- A level opened by a vector. -/
def newLevel (size policy parent asid id : Nat) (v : StartVec) : LevelRec :=
  { counter := size, size := size, policy := policy, parent := parent, retries := 0, failure := none, isFailed := false,
    isAbsorbed := false, cancelled := false, excused := false, complete := false, decs := [], broken := [], vec := some v,
    first := id, asid := asid, posting := false }

/-- Open the levels that a vector names first (R251). -/
def State.openLevels (s : State) (v : StartVec) (id asid : Nat) : State :=
  let one := fun (s : State) (l : Level) (k : Nat) (r : LevelRec) => if (s.openLevel l k).isSome then s else s.setLevel l k r
  let s := one s .job v.job (newLevel v.jphases (bits v.policy 5 4) 0 asid id v)
  let s := one s .phase v.phase (newLevel v.pgraphs (bits v.policy 3 2) v.job asid id v)
  one s .graph v.graph (newLevel v.gsize (bits v.policy 1 0) v.phase asid id v)

/-- The allowed die whose queue holds the fewest launches (R251). -/
def State.dieFor (s : State) (v : StartVec) : Nat :=
  (((List.range 4).filter fun d => bitAt v.dies d).foldl (fun (a : Option Nat) d =>
    match a with
    | none => some d
    | some b => if ((s.die d).queue v.queue).length < ((s.die b).queue v.queue).length then some d else some b) none).getD 0

def newLaunch (v : StartVec) (h : Header) (asid codeVa d : Nat) (parent : Option (BitVec 1024)) (past : Past) : Launch :=
  { vec := v, hdr := h, asid := asid, codeVa := codeVa, state := .queued, die := d, bays := [], cores := [], counter := 0, tokens := 0,
    kills := 0, retries := 0, started := 0, failure := none, isFailed := false, isAbsorbed := false, cancelled := false,
    excused := false, onEmpty := .complete, ckpt := none, drain := none, holdOff := false, forLaunch := none, saved := [],
    spilled := 0, error := .none, stepping := none, usedCircuits := false, blockedFrom := none, enlarged := 0, parentSig := parent,
    parentPast := past }

/-- A level that the launch belongs to has been cancelled (R36). -/
def State.levelCancelled (s : State) (v : StartVec) : Bool :=
  let c := fun (l : Level) (k : Nat) => match s.openLevel l k with
    | some r => r.cancelled
    | none => false
  c .graph v.graph || c .phase v.phase || c .job v.job

/-- A predecessor of the launch completed failed before its vector came (R30, R253). -/
def State.predecessorFailed (s : State) (v : StartVec) : Bool :=
  match s.openLevel .graph v.graph with
  | some r => mapGet false r.broken v.lnum
  | none => false

/-- A launch enters the levels: into its queue, or completed failed at once where the vector was rejected,
a predecessor failed, or its level was cancelled (R30, R36, R208, R232, R253). -/
def State.enterLaunch (s : State) (v : StartVec) (h : Header) (err : EndCause) (parent : Option (BitVec 1024)) (past : Past) : State :=
  let id := s.nextLaunch
  let im := s.image v.image
  let asid := (im.map (·.asid)).getD 0
  let l := newLaunch v h asid ((im.map fun i => i.va + i.code).getD 0) (s.dieFor v) parent past
  let s := { s with nextLaunch := id + 1 }.openLevels v id asid
  if err ≠ .none then
    let s := s.setLaunch id { l with isFailed := true, error := err }
    State.endLaunch s.fuel s id
  else if s.predecessorFailed v || s.levelCancelled v then
    let s := s.setLaunch id { l with isFailed := true }
    State.endLaunch s.fuel s id
  else (s.setLaunch id l).enqueueLaunch false id l

/-- The record of a vector that belongs to no level (R251). -/
def State.rejectVector (s : State) : State :=
  { s with nextLaunch := s.nextLaunch + 1 }.post
    { level := .launch, id := s.nextLaunch, status := .failed, cause := .launchVector, core := 0, q := 0, kills := 0 }

/-- START_VECTOR (R251): a vector that the host writes. -/
def execStartVector (v : BitVec 512) (s : State) : Out :=
  let w := startVecOf (natBytes 64 v.toNat)
  match s.vectorError w with
  | .launchVector => .next s.rejectVector
  | e => .next (s.enterLaunch w ((s.headerFor w).getD Header.none_) e none {})

/-- The child's vector, in the graph of its parent (R28, R232). -/
def childVec (parent : Launch) (b : List Byte) : StartVec := { startVecOf b with graph := parent.vec.graph }

/-- The launch error of a child's vector: it also has to name the running image (R34, R232). -/
def State.childError (s : State) (parent : Launch) (v : StartVec) : EndCause :=
  if v.image ≠ parent.vec.image then .launchVector else s.vectorError v

/-- A rejected child counts in the levels of its parent (R232). -/
def StartVec.underParent (v : StartVec) (parent : Launch) : StartVec :=
  { parent.vec with lnum := v.lnum, deps := v.deps, succ := v.succ, header := v.header, queue := v.queue }

/-- The launch is being stopped for a restart of a level above it: what it still starts is part of the attempt
that goes (R39). -/
def Launch.goes (l : Launch) : Bool := l.onEmpty == .requeueTail || l.onEmpty == .discard

/-- CHILD_LAUNCH_ACCEPT (R232). -/
def execChildLaunchAccept (core q : Nat) (s : State) : Out :=
  match (s.seq core q).nextStore with
  | some st =>
    match st.kind, st.parts, (s.core core).launch.bind s.launch with
    | .spawn carried, p :: _, some parent =>
      if parent.goes then .next (s.dropStore core q) else
      let v := childVec parent (s.readLoc p.loc 64).1
      let e := s.childError parent v
      let w := if e = .launchVector then v.underParent parent else v
      .next ((s.dropStore core q).enterLaunch w ((s.headerFor v).getD Header.none_) e (some carried) (s.past core q st.chain))
    | .spawn _, _, _ => .next (s.dropStore core q)
    | _, _, _ => .next s
  | none => .next s

end Sys2Proof.Machine
end

