-- ==== Sys2Proof/Machine/Scheduler.lean ====
section
/-! DEFINITION. The scheduler (R252 to R263): candidates, placement, pre-emption, and checkpoints. -/
namespace Sys2Proof.Machine

/-! ### Candidates (R252 to R254) -/

def Die.priorityOf (d : Die) (q : Nat) : Nat := mapGet 0 d.priority q

/-- Bays that a launch needs (R10, R331). -/
def Header.bayCount (h : Header) : Nat := (h.cores + 15) / 16

/-- A waiting launch is eligible when its predecessors have completed (R253). -/
def State.eligible (s : State) (l : Launch) : Bool :=
  match l.state with
  | .queued => (match s.level .graph l.vec.graph with
      | some r => l.vec.deps ≤ mapGet 0 r.decs l.vec.lnum
      | none => false)
  | .saved => true
  | _ => false

/-- The candidate of a queue: its oldest eligible launch (R254). -/
def State.candidate (s : State) (d q : Nat) : Option (Nat × Launch) :=
  (((s.die d).queue q).filterMap fun id => (s.launch id).map fun l => (id, l)).find? fun e => s.eligible e.2

/-- Candidates of a die in the order they are served: by priority, then from the queue after the one last
placed (R254). -/
def State.candidates (s : State) (d : Nat) : List (Nat × Launch) :=
  let x := s.die d
  let key := fun (q : Nat) => (7 - x.priorityOf q) * 64 + (q + 63 - x.lastQueue) % 64
  let qs := (x.queues.map (·.1)).foldr (fun q out =>
    (out.takeWhile fun o => key o < key q) ++ q :: (out.dropWhile fun o => key o < key q)) []
  qs.filterMap fun q => s.candidate d q

def State.priorityFor (s : State) (l : Launch) : Nat := (s.die l.die).priorityOf l.vec.queue

/-! ### Placement (R34, R192, R254) -/

/-- Launches that occupy bays of a die. -/
def State.onDie (s : State) (d : Nat) : List (Nat × Launch) :=
  (s.launches.filterMap fun e => e.2.map fun l => (e.1, l)).filter fun e =>
    e.2.die == d && (e.2.state == .running || e.2.state == .restoring)

/-- Free bays of a die, numbered in the package. -/
def State.freeBays (s : State) (d : Nat) : List Nat :=
  ((List.range 8).map (8 * d + ·)).filter fun b => !((s.onDie d).any fun e => e.2.bays.contains b)

/-- Every launch that runs on the die runs this image (R34). -/
def State.sameImage (s : State) (d image : Nat) : Bool := (s.onDie d).all fun e => e.2.vec.image == image

/-- Victims of a candidate that have not left their bays yet. -/
def State.victimsOf (s : State) (d id : Nat) : List (Nat × Launch) := (s.onDie d).filter fun e => e.2.forLaunch == some id

def bayTotal (ls : List (Nat × Launch)) : Nat := ls.foldl (fun n e => n + e.2.bays.length) 0

/-- Free bays that are not kept for a candidate served before this one: the bays that its victims have left (R258, R261;
log entry 106). -/
def State.openBays (s : State) (d id : Nat) : List Nat :=
  let kept := (((s.candidates d).takeWhile (·.1 != id)).map (·.2.keptBays)).flatten
  (s.freeBays d).filter fun b => !kept.contains b

/-- A launch saved for a candidate of another image is restored once the die runs its own image again: not while that
candidate still waits (R261, R263; log entry 106). -/
def State.savedOut (s : State) (l : Launch) : Bool :=
  l.state == .saved && (l.forLaunch.bind s.launch).any fun c =>
    (c.state == .queued || c.state == .saved) && c.vec.image != l.vec.image

/-- Bays suffice, and no launch of another image runs there (R34, R254). -/
def State.fits (s : State) (d id : Nat) (l : Launch) : Bool :=
  l.hdr.bayCount ≤ (s.openBays d id).length && s.sameImage d l.vec.image && !s.savedOut l

/-- A candidate that cannot be placed holds as many tokens as the kill threshold: launches of equal or lower
priority wait for it (R254). -/
def State.starved (s : State) (d id : Nat) (l : Launch) : Bool :=
  (s.candidates d).any fun e =>
    e.1 != id && (s.die d).killK ≤ e.2.tokens && s.priorityFor l ≤ s.priorityFor e.2 && !s.fits d e.1 e.2

def State.placeable (s : State) (d id : Nat) (l : Launch) : Bool := s.fits d id l && !s.starved d id l

/-- Pick `n` of the free bays; which ones is open (R31). -/
def pickBays (s : State) : Nat → List Nat → List Nat × State
  | 0, _ => ([], s)
  | n + 1, free =>
    if free.length ≤ n + 1 then (free, s)
    else
      let r := s.nextChoice
      let b := free.getD (r.1 % free.length) 0
      let rest := pickBays r.2 n (free.erase b)
      (b :: rest.1, rest.2)

/-- The cores of a launch on its bays, in ascending number (R32, R331). -/
def coresOn (h : Header) (bays : List Nat) : List Nat :=
  (((List.range 32).filter bays.contains).map fun b => (List.range 16).map fun i => 16 * b + i).flatten.take h.cores

/-- Bays that a launch takes are kept for no other any more. -/
def State.takeKept (s : State) (bays : List Nat) : State :=
  { s with launches := s.launches.map fun e => (e.1, e.2.map fun l => { l with keptBays := l.keptBays.filter fun b => !bays.contains b }) }

/-- Place a launch: a fresh start, or for a saved one the bays that it will be restored on (R254, R263). -/
def State.place (s : State) (d id : Nat) (l : Launch) : State :=
  let r := pickBays s l.hdr.bayCount (s.openBays d id)
  let s := (r.2.dequeue id l).modDie d fun x => { x with lastQueue := l.vec.queue }
  let s := s.takeKept r.1
  let l' := { l with bays := r.1, cores := coresOn l.hdr r.1, tokens := 0, holdOff := false, keptBays := [] }
  match l.state with
  | .saved => s.setLaunch id { l' with state := .restoring, started := s.clock, forLaunch := none }
  | _ => s.startLaunch id l'

/-! ### Pre-emption (R256 to R259) -/

/-- The largest estimate among the running units of a victim, in µs (R257, R265). -/
def State.estimate (s : State) (l : Launch) : Nat := (s.activeUnits l).foldl (fun n u => max n (bits (s.seq u.1 u.2).remtime.toNat 31 0)) 0

/-- A kill: each running unit takes PREEMPT, and the launch goes back to the head of its queue (R259). -/
def State.killVictim (s : State) (v : Nat) (l : Launch) : State :=
  (s.activeUnits l).foldl (fun s u => s.deliver .preempt u)
    (s.setLaunch v { l with onEmpty := .requeueHead, ckpt := none, drain := none })

/-- The decision for one victim (R257). -/
def State.decide_ (s : State) (id : Nat) (cand : Launch) (longer : Bool) (v : Nat) : State :=
  match s.launch v with
  | none => s
  | some l =>
    let d := s.die l.die
    let l := { l with forLaunch := some id, drain := none }
    if !longer && s.estimate l ≤ d.drainUs then s.setLaunch v { l with drain := some (d.timeAt s.clock) }
    else if d.killK ≤ cand.tokens && l.hdr.killable then s.killVictim v l
    else s.setLaunch v { l with ckpt := some (d.timeAt s.clock) }

/-- A launch that may become a victim: running, of strictly lower priority, not a victim already (R256). -/
def State.mayFall (s : State) (l : Launch) (e : Nat × Launch) : Bool :=
  e.2.state == .running && s.priorityFor e.2 < s.priorityFor l && e.2.onEmpty == .complete &&
    e.2.forLaunch.isNone

/-- Victims in the order they are taken: ascending priority, the most recently started first, and of those
started in one clock the later accepted (R256). -/
def State.victimOrder (s : State) (d : Nat) (l : Launch) : List (Nat × Launch) :=
  let before := fun (a b : Nat × Launch) =>
    s.priorityFor a.2 < s.priorityFor b.2 || (s.priorityFor a.2 == s.priorityFor b.2 && (b.2.started < a.2.started || (b.2.started == a.2.started && b.1 ≤ a.1)))
  ((s.onDie d).filter (s.mayFall l)).foldr (fun e out =>
    (out.takeWhile fun o => !before e o) ++ e :: (out.dropWhile fun o => !before e o)) []

/-- Take victims until the bays suffice. -/
def takeEnough (need : Nat) : Nat → List (Nat × Launch) → List (Nat × Launch)
  | have_, es =>
    match es with
    | [] => []
    | e :: es => if need ≤ have_ then [] else e :: takeEnough need (have_ + e.2.bays.length) es

/-- The victims of the candidate served first; none when they do not suffice (R256).  Bays that other victims
will leave count as coming free. -/
def State.victims (s : State) (d id : Nat) (l : Launch) : List (Nat × Launch) :=
  let all := s.victimOrder d l
  if s.sameImage d l.vec.image then
    let coming := (s.openBays d id).length + bayTotal ((s.onDie d).filter fun e => e.2.forLaunch.isSome)
    if coming + bayTotal all < l.hdr.bayCount then []
    else takeEnough l.hdr.bayCount coming all
  else if (s.onDie d).all (fun e => s.mayFall l e || (e.2.state == .running && s.priorityFor e.2 < s.priorityFor l)) then all
  else []

/-- The candidate served first pre-empts, when it cannot be placed and the bays that its victims will leave do not
suffice (R256); after a withdrawn request, not before its next token (R260). -/
def State.preempts (s : State) (d : Nat) : Option (Nat × Launch × List (Nat × Launch)) :=
  match s.candidates d with
  | top :: _ =>
    if s.placeable d top.1 top.2 || top.2.holdOff then none
    else
      let vs := s.victims d top.1 top.2
      if vs.isEmpty then none else some (top.1, top.2, vs)
  | [] => none

/-- The first candidate that can be placed. -/
def State.nextPlaced (s : State) (d : Nat) : Option (Nat × Launch) := (s.candidates d).find? fun e => s.placeable d e.1 e.2

/-- SCHEDULER_SELECT (R254, R256). -/
def execSchedulerSelect (die : Nat) (s : State) : Out :=
  match s.preempts die with
  | some (id, l, vs) => .next (vs.foldl (fun s v => s.decide_ id l false v.1) s)
  | none =>
    match s.nextPlaced die with
    | some e => .next (s.place die e.1 e.2)
    | none => .next s

/-- The candidate drains a victim (R255). -/
def State.draining (s : State) (d id : Nat) : Bool := (s.victimsOf d id).any fun e => e.2.drain.isSome

/-- A period of accrual ends in this clock: every 65,536th, counted from reset (R255). -/
def State.accrualDue (s : State) (d : Nat) : Bool := (s.die d).accrued < s.clock && s.clock % 65536 == 0

/-- TOKEN_ACCRUAL (R255, R260): every waiting candidate that drains no victim. -/
def execTokenAccrual (die : Nat) (s : State) : Out :=
  if s.accrualDue die then
    let s' := s.modDie die fun d => { d with accrued := s.clock }
    .next ((s.candidates die).foldl (fun t e =>
      if s.draining die e.1 then t
      else t.modLaunch e.1 fun l => { l with tokens := min 255 (l.tokens + 1), holdOff := false }) s')
  else .next s

/-- The drain limit has passed (R258). -/
def State.drainOver (s : State) (l : Launch) : Bool :=
  match l.drain with
  | some t => l.state == .running && t + micros (s.die l.die).drainUs ≤ (s.die l.die).timeAt s.clock
  | none => false

/-- DRAIN_REDECISION (R258): the decision again, with E greater than D; none when the candidate waits no more. -/
def execDrainRedecision (launch : Nat) (s : State) : Out :=
  match s.launch launch with
  | some l =>
    if s.drainOver l then
      match l.forLaunch.bind fun id => (s.launch id).map fun c => (id, c) with
      | some (id, c) =>
        if c.state = .queued || c.state = .saved then .next (s.decide_ id c true launch)
        else .next (s.setLaunch launch { l with drain := none, forLaunch := none })
      | none => .next (s.setLaunch launch { l with drain := none, forLaunch := none })
    else .next s
  | none => .next s

/-! ### Safe points (R260, R332) -/

/-- The live masks of the bundle that a sequencer is at, when it is a safe point. -/
def State.safeMasks (s : State) (c q : Nat) : Option (Nat × Nat × Nat) :=
  match (s.core c).launch.bind s.launch with
  | some l =>
    let pc := (s.seq c q).pc.toNat
    if pc < l.codeVa then none else (s.image l.vec.image).bind fun im => im.safePoint (pc - l.codeVa)
  | none => none

/-- A hold under which the bundle has not issued: a freeze at slot 0. -/
def Hold.isFreeze : Hold → Bool
  | .popData | .circuitPop | .storeRoom | .sendRoom | .walk .. => true
  | _ => false

/-- A unit under a checkpoint request stands at a safe point, from slot 0 (R260). -/
def State.atSafePoint (s : State) (c q : Nat) : Bool :=
  let x := s.seq c q
  x.run == .running && !x.handler && x.slot == 0 && !x.done && x.recordBuf.isNone && !x.deferredReady &&
    (match x.hold with
      | some h => h.isFreeze
      | none => true) &&
    (match (s.core c).launch.bind s.launch with
      | some l => l.ckpt.isSome && (s.safeMasks c q).isSome
      | none => false)

/-- SAFE_POINT_STOP (R260); a stall ends with it (R276). -/
def execSafePointStop (core q : Nat) (s : State) : Out :=
  if s.atSafePoint core q then .next ((s.traceStallEnd core q).modSeq core q fun x => { x with run := .parked, hold := none, walks := [], start := none }) else .next s

/-- Every unit of a launch has stopped or completed. -/
def State.allStopped (s : State) (l : Launch) : Bool :=
  let us := s.liveUnits l
  !us.isEmpty && us.all fun u => (s.seq u.1 u.2).run == .parked

/-- Units that a withdrawn request had stopped run on. -/
def State.unpark (s : State) (l : Launch) : State :=
  (s.liveUnits l).foldl (fun s u => s.modSeq u.1 u.2 fun x => if x.run = .parked then { x with run := .running } else x) s

/-- A request has not been met in 2 × D µs (R260). -/
def State.withdrawDue (s : State) (l : Launch) : Bool :=
  match l.ckpt with
  | some t => l.state == .running && !s.allStopped l && t + micros (2 * (s.die l.die).drainUs) ≤ (s.die l.die).timeAt s.clock
  | none => false

/-- CHECKPOINT_WITHDRAW (R260): the candidate's decision is made again at its next token. -/
def execCheckpointWithdraw (launch : Nat) (s : State) : Out :=
  match s.launch launch with
  | some l =>
    if s.withdrawDue l then
      let s := (s.unpark l).setLaunch launch { l with ckpt := none, forLaunch := none }
      match l.forLaunch with
      | some id => .next (s.modLaunch id fun c => { c with holdOff := true })
      | none => .next s
    else .next s
  | none => .next s

/-! ### Saving and restoring (R261 to R263) -/

/-- Everything in flight for a core has ended (R261 steps 1 to 3). -/
def State.quietCore (s : State) (c : Nat) : Bool :=
  let k := s.core c
  ([0, 1].all fun q => (k.seq q).stores.isEmpty && (k.seq q).loads.all fun e => e.performed && e.arrived) &&
    k.mxOps.isEmpty && k.tfOps.isEmpty && k.stopk.isNone && k.atomics.isEmpty &&
    (s.flights.all fun f => f.src != c && f.target != c) && (s.mcasts.all fun m => m.src != c && !m.targets.contains c)

def State.saveReady (s : State) (l : Launch) : Bool :=
  l.state == .running && l.ckpt.isSome && s.allStopped l && l.cores.all s.quietCore

/-- Keep the registers that a mask names (R262). -/
def keepLive {α : Type} (mask : Nat) (m : NMap α) : NMap α := m.filter fun e => bitAt mask e.1

/-- A stopped sequencer as the context holds it (R262). -/
def Seq.saved (x : Seq) (masks : Option (Nat × Nat × Nat)) : Seq :=
  match masks with
  | some (v, g, p) =>
    { x with
      vregs := keepLive v x.vregs, sregs := keepLive g x.sregs, pregs := keepLive p x.pregs, tlb := [],
      streams := x.streams.map fun e => (e.1, { e.2 with page := none, frame := none }) }
  | none => { x with tlb := [] }

/-- Targets and sources of circuits by position, and back. -/
def renumber (f : Nat → Nat) (k : Core) : Core :=
  { k with
    circuit := k.circuit.map (fun v => { v with src := f v.src })
    sends := k.sends.map fun e => match e.send with
      | .vector t v c => { e with send := .vector (f t) v c }
      | .multicast .. => e }

/-- The place of a core in a launch. -/
def Launch.placeOf (l : Launch) (c : Nat) : Nat := l.cores.idxOf c

/-- The context of one core (R262). -/
def State.saveCore (s : State) (l : Launch) (c : Nat) : SavedCore :=
  let k := s.core c
  let one := fun (q : Nat) =>
    { (k.seq q).saved (if (k.seq q).run = .parked then s.safeMasks c q else none) with chain := s.past c q (k.seq q).chain }
  { position := k.position,
    core := renumber l.placeOf { k with seqs := [(0, one 0), (1, one 1)], cache := [], records := [], rfences := [], refills := [], grants := [], launch := none } }

/-- Contexts of saved launches in a die's shadow storage (R261). -/
def State.shadowUsed (s : State) (d : Nat) : Nat :=
  (s.launches.filterMap fun e => e.2).foldl (fun n l =>
    if l.die = d && (l.state = .saved || l.state = .restoring) then n + (l.hdr.bayCount - l.spilled) else n) 0

/-- The swap records of the traces (R276). -/
def State.traceSwaps (s : State) (l : Launch) (kind : Nat) : State :=
  (s.liveUnits l).foldl (fun s u => s.traceSwap u.1 u.2 kind) s

/-- A bay that a launch leaves: its core as a core without a launch, its banks keeping their roles. -/
def Core.vacated (k : Core) : Core :=
  { Core.init with seqs := [(0, { Seq.init with tlb := (k.seq 0).tlb, chain := (k.seq 0).chain }),
                            (1, { Seq.init with tlb := (k.seq 1).tlb, chain := (k.seq 1).chain })],
                   scratchBanks := k.scratchBanks, operandBanks := k.operandBanks, cache := k.cache, useCount := k.useCount }

/-- CHECKPOINT_SAVE (R261): the contexts are written and the launch is reported saved. -/
def execCheckpointSave (launch : Nat) (s : State) : Out :=
  match s.launch launch with
  | some l =>
    if s.saveReady l then
      let s := s.traceSwaps l 0
      let saved := l.cores.map (s.saveCore l)
      let spilled := l.hdr.bayCount - (Config.shadowContexts - s.shadowUsed l.die)
      let s := l.cores.foldl (fun s c => (s.unpinCore c).modCore c Core.vacated) s
      let s := (s.keepBays l).enqueueLaunch true launch l
      let s := s.setLaunch launch { l with state := .saved, bays := [], saved := saved, spilled := spilled, ckpt := none,
                                            tokens := 0, holdOff := false, blockedFrom := none }
      .next { s with savedReports := s.savedReports ++ [launch] }
    else .next s
  | none => .next s

/-- A line of a restored binding is pinned again; after the last one its tile is ready (R166; log entry 133). -/
def State.repinLine (s : State) (c t line : Nat) : State :=
  let s := s.pinLine (dieOf c) line
  let l := (line, s.pinnedLine (dieOf c) line)
  s.modCore c fun k =>
    let x := k.tile t
    let left := x.waiting.filter (· != line)
    (k.setTile t { x with waiting := left, copies := x.copies ++ [l] }).setTileReady t left.isEmpty

/-- The lines of restored bindings that can be pinned now, by tile. -/
def State.repinnable (s : State) (c : Nat) : List (Nat × Nat) :=
  ((s.core c).tiles.map fun e => (e.2.waiting.filter (s.pinnable (dieOf c))).map fun l => (e.1, l)).flatten

/-- Pin the lines of a binding again, and read them anew: those that can be pinned at once, the others as ways come free
for them (R166, R263; log entry 133). -/
def State.repin (s : State) (c t : Nat) : State :=
  let x := (s.core c).tile t
  if x.state = .bound then
    let near := x.lines.filter fun l => homeDie (l * 256) == dieOf c
    let far := x.lines.filter fun l => homeDie (l * 256) != dieOf c
    let s := near.foldl (fun s l => s.homeUse (l * 256)) s
    let s := s.modCore c fun k =>
      (k.setTile t { x with waiting := far, copies := near.map fun l => (l, s.lineFromHome l) }).setTileReady t far.isEmpty
    far.foldl (fun s l => if s.pinnable (dieOf c) l then s.repinLine c t l else s) s
  else s

/-- A restored core on its new place: roles applied, cache banks empty, units running again (R192, R263). -/
def restoreCore (id : Nat) (l : Launch) (k old : Core) : Core :=
  let one := fun (q : Nat) =>
    let x := k.seq q
    { x with run := if x.run = .parked then .running else x.run, tlb := (old.seq q).tlb, chain := x.chain.join (old.seq q).chain }
  renumber (fun p => l.cores.getD p 0)
    { k with seqs := [(0, one 0), (1, one 1)], launch := some id, cache := [], records := [], useCount := old.useCount }

/-- LAUNCH_RESTORE (R263). -/
def execLaunchRestore (launch : Nat) (s : State) : Out :=
  match s.launch launch with
  | some l =>
    if l.state = .restoring then
      let s := s.dropInbound l.cores
      let s := (coresOfBays l.bays).foldl (fun s c =>
        (s.unpinCore c).modCore c fun k => if l.cores.contains c then k else { spareCore l.hdr k with cache := [] }) s
      let s := l.saved.foldl (fun s x =>
        let c := l.cores.getD x.position 0
        (List.range 16).foldl (fun s t => s.repin c t) (s.modCore c (restoreCore launch l x.core))) s
      let s := s.setLaunch launch { l with state := .running, saved := [], spilled := 0 }
      let s := s.traceSwaps l 1
      .next (if l.cancelled then (s.activeUnits l).foldl (fun s u => s.deliver .cancel u) s else s)
    else .next s
  | none => .next s

end Sys2Proof.Machine
end

