-- ==== Sys2Proof/Machine/Host.lean ====
section
/-! DEFINITION. What the outside world does to the part, and what arises of itself: the Hasp link's loads,
stores and registers (R204, R209, R219, R252, R295, R334), images (R330, R333), features, reset and
attestation (R335 to R337), power (R338), Trestle's own steps (R294 to R303), links (R317, R319) and soft
errors (R205). -/
namespace Sys2Proof.Machine

/-- After a failed boot only attestation and a warm reset act (R336). -/
def State.recovering (s : State) : Bool := s.featOff.getLsbD 7

/-! ### Host accesses (R209, R219, R318) -/

/-- The host cannot reach an address: the Hasp link is down, or one on the way from its die (R319). -/
def State.hostCut (s : State) (pa : Nat) : Bool :=
  s.links.any (fun e => !e.2.up) && (s.linkDown 0 || s.cut (Config.haspDie % 4) pa)

/-- Where the host's access to an address goes: through the tables of an ASID, or for a number that is no
ASID to the physical address itself; nowhere when a link loses it (R319). -/
def State.hostPlace (s : State) (asid va : Nat) (r : Right) : Option Nat :=
  let pa := if asid = 65536 then (if s.inMemory va then some va else none)
    else match s.resolveIn asid r va with
      | .at (.mem pa) => some pa
      | _ => none
  pa.filter fun a => !s.hostCut a

/-- Write a run line by line; a line that does not translate is left. -/
def State.hostStore (s : State) (asid va : Nat) (r : Right) (bs : List Byte) : State :=
  (cutLines (bs.length / 256 + 2) va (bs.map some)).foldl (fun s e =>
    match s.hostPlace asid e.1 r with
    | some pa => (s.mergeHome pa e.2).noteAgent hostParty pa e.2
    | none => s) s

/-- Read a run at home; a line that does not translate gives no bytes. -/
def State.hostLoad (s : State) (asid va n : Nat) : List Byte :=
  ((runsOf va n).map fun p => match s.hostPlace asid p.1 .load with
    | some pa => s.readMem pa p.2
    | none => []).flatten

/-- A register that the host writes, as it reads (R252, R295, R334). -/
def State.hostReg (s : State) : HostReg → Nat
  | .tthr => s.trestle.hi + s.trestle.lo * 2 ^ 32
  | .ttab => s.trestle.tbase
  | .tlog => s.trestle.logbase
  | .ctxbase => s.ctxbase.toNat
  | .queuePriority d q => (s.die d).priorityOf q
  | .drainLimit d => (s.die d).drainUs
  | .killThreshold d => (s.die d).killK

/-- The bytes that a Hasp register reads as: TCFG, TVER and TRES by their fields (R295), the feature vectors (R336),
the device's public key (R337), corrected errors of a die (R205) and errors of a link (R319). -/
def State.haspBytes (s : State) : HaspRead → List Byte
  | .written r => natBytes 8 (s.hostReg r)
  | .tcfg => natBytes 8 (s.trestle.en.toNat + 2 * s.trestle.tune.toNat + 4 * s.trestle.win + 2 ^ 16 * s.trestle.asid)
  | .tver => natBytes 8 (s.trestle.version + 2 ^ 32 * s.trestle.events)
  | .tres => natBytes 8 (s.trestle.res.zipIdx.foldl (fun n e => n + e.1 * 16 ^ e.2) 0)
  | .featOff => natBytes 32 s.featOff.toNat
  | .featAcc => natBytes 32 s.featAcc.toNat
  | .publicKey => natBytes 64 Config.devKey.toNat
  | .corrected d => natBytes 8 (s.die d).corrected
  | .linkErrors n => natBytes 8 (mapGet Link.init s.links n).errors

/-- HOST_WRITE (R209): a load or a store of the host; or its read of a register, which a failed boot leaves to it
(R336, R337). -/
def execHostWrite (asid : Nat) (va : BitVec 64) (acc : HostAccess) (s : State) : Out :=
  match acc with
  | .register r => .next { s with hostReads := s.hostReads ++ [s.haspBytes r] }
  | .store bs => if s.recovering then .next s else .next (s.hostStore asid va.toNat .store bs)
  | .load n => if s.recovering then .next s else .next { s with hostReads := s.hostReads ++ [s.hostLoad asid va.toNat n] }

/-- HOST_RELEASE (R219): a release at system scope with an all-ones signature. -/
def execHostRelease (asid : Nat) (va : BitVec 64) (v : BitVec 64) (s : State) : Out :=
  if s.recovering || va.toNat % 8 ≠ 0 then .next s
  else match s.hostPlace asid va.toNat .store with
    | some pa => .next ((s.releaseWord pa v (s.ownPast hostParty)).noteAgent hostParty pa (List.replicate 8 (some 0)))
    | none => .next s

/-- HOST_TLB_INVALIDATE (R204): the sequencers of the address space drop the translations, each in a step of its own; the
world's next action waits until every one has. -/
def execHostTlbInvalidate (asid : Nat) (all : Bool) (va : BitVec 64) (s : State) : Out :=
  if s.recovering || (s.inSpace asid).isEmpty then .next s
  else .next { s with hostDrops := s.hostDrops ++ [(asid, all, va.toNat, s.inSpace asid)] }

/-! ### Hasp registers (R252, R295, R334, R336) -/

/-- TCFG_WRITE (R295): EN stays without the TRESTLE feature (R336). -/
def execTcfgWrite (v : BitVec 64) (s : State) : Out :=
  if s.recovering then .next s
  else if s.featAcc.getLsbD 2 then .next (s.writeTcfg v)
  else .next (s.writeTcfg ((v &&& ~~~1) ||| (if s.trestle.en then 1 else 0)))

/-- TRES_WRITE (R295). -/
def execTresWrite (v : BitVec 64) (s : State) : Out := if s.recovering then .next s else .next (s.writeTres v)

/-- HOST_REGISTER_WRITE (R252, R295, R334): values outside a field's range leave it unchanged. -/
def execHostRegisterWrite (reg : HostReg) (v : BitVec 64) (s : State) : Out :=
  if s.recovering then .next s
  else
    let n := v.toNat
    match reg with
    | .tthr => .next (s.writeTthr v)
    | .ttab => .next (s.writeTtab v)
    | .tlog => .next (s.writeTlog v)
    | .ctxbase => .next (if n % 4096 = 0 then { s with ctxbase := v } else s)
    | .queuePriority d q => .next (if n ≤ 7 && q < 64 then s.modDie d fun x => { x with priority := mapSet 0 x.priority q n } else s)
    | .drainLimit d => .next (if 1 ≤ n && n ≤ 65535 then s.modDie d fun x => { x with drainUs := n } else s)
    | .killThreshold d => .next (if 1 ≤ n && n ≤ 255 then s.modDie d fun x => { x with killK := n } else s)

/-- FEATACC_WRITE (R336): the first write after a reset binds. -/
def execFeataccWrite (v : BitVec 256) (s : State) : Out :=
  if s.featBound then .next s else .next { s with featAcc := v &&& s.featOff, featBound := true }

/-! ### Images (R330, R333, R336) -/

/-- IMAGE_LOAD (R330): the bytes go to memory, and the handle names the image. -/
def execImageLoad (handle asid : Nat) (va : BitVec 64) (bytes : List Byte) (s : State) : Out :=
  if !(s.featBound && s.featAcc.getLsbD 0) then .next s.rejectVector
  else if (s.image handle).isSome then .next s
  else
    let s := s.hostStore asid va.toNat .load bytes
    .next { s with images := mapInsert handle (some { asid := asid, va := va.toNat, bytes := bytes }) s.images }

/-- Some launch of the image is queued or running (R333). -/
def State.imageBusy (s : State) (h : Nat) : Bool :=
  s.launches.any fun e => match e.2 with
    | some l => l.vec.image == h && l.state != .complete
    | none => false

/-- IMAGE_UNLOAD (R333). -/
def execImageUnload (handle : Nat) (s : State) : Out :=
  if s.imageBusy handle then .next s else .next { s with images := mapErase handle s.images }

/-! ### Attestation (R337) -/

/-- Bytes 0 to 95 of a report. -/
def reportBody (nonce : BitVec 128) : BitVec 768 :=
  BitVec.ofNat 768 (Config.fwHash.toNat + Config.cfgHash.toNat * 2 ^ 256 + nonce.toNat * 2 ^ 512 + Config.devId.toNat * 2 ^ 640)

/-- ATTESTATION_REQUEST (R337). -/
def execAttestationRequest (nonce : BitVec 128) (s : State) : Out :=
  let b := reportBody nonce
  .next { s with reports := s.reports ++ [BitVec.ofNat 1280 (b.toNat + (Config.sm2Sign b).toNat * 2 ^ 768)] }

/-! ### Reset (R335, R336) -/

/-- What a boot offers: the configured features, or after a failure the recovery feature alone. -/
def offered (verified : Bool) (offer : BitVec 256) : BitVec 256 := if verified then offer &&& 0x7F else 0x80

/-- The part as it comes up.  What the host has been handed, the world's next actions, and the counters of the
free values go on. -/
def State.boot (s : State) (verified : Bool) (offer : BitVec 256) : State :=
  { State.reset with
    clock := s.clock, inputs := s.inputs, choices := s.choices, free := s.free, nextLaunch := s.nextLaunch, posted := s.posted,
    savedReports := s.savedReports, hostReads := s.hostReads, reports := s.reports, thermalReports := s.thermalReports,
    featOff := offered verified offer, drainConfig := verified && offer.getLsbD 6 }

/-- COLD_RESET (R335): power-good; memory comes up as at State.reset. -/
def execColdReset (verified : Bool) (offer : BitVec 256) (s : State) : Out := .next (s.boot verified offer)

/-- Every launch completes failed with cause CANCEL (R335). -/
def State.failLaunches (s : State) (ids : List Nat) : State :=
  ids.foldl (fun s id => match s.launch id with
    | some l =>
      if l.state = .complete then s
      else State.endLaunch s.fuel (s.setLaunch id { l with isFailed := true, cancelled := true, failure := none, error := .none }) id
    | none => s) s

/-- Sectors whose latest bytes may have stood in the L2 alone: their bytes are undefined once the L2 is lost (R195, R335). -/
def State.loseSectors (s : State) (sectors : List Nat) : State :=
  sectors.foldl (fun s k =>
    let f := s.freshBytes 32
    f.2.writeMem (k * 32) (f.1.map some)) s

/-- The sectors of a run may have been written: what they hold is lost with the L2. -/
def State.soil (s : State) (pa n : Nat) : State := { s with dirty := markSectors s.dirty pa (List.replicate n (some 0)) }

/-- What a store of a stopped unit does to memory and to the scheduler, once those before it are performed (R35): the
barrier table, the digest cache and the rings that it may name besides are lost all the same. -/
def State.flushStore (s : State) (c q : Nat) (st : StoreEntry) : State :=
  match st.kind with
  | .plain | .tile _ => st.parts.foldl (fun s p => if s.lostAt c p.loc then s else s.writeLoc c p.loc p.bytes) s
  | .release pa v _ _ => if s.cut (dieOf c) pa then s else s.mergeFrom c pa ((natBytes 8 v.toNat).map some)
  | .spawn _ => (match execChildLaunchAccept c q (s.modSeq c q fun x => { x with loads := [], stores := [st] }) with
    | .next t => t
    | _ => s)
  | .grad p goff _ line _ => (List.range (s.gradBytes p / 256 - line)).foldl (fun s i => match s.gradPlace p goff (line + i) 0 with
    | some pa => s.soil pa 256
    | none => s) s
  | .atomic | .arrival .. | .bfree _ | .rebuild .. | .kick .. => s

/-- What a stopped sequencer has still under way reaches memory: its stores, its atomics, the rest of a kv operation (R35). -/
def State.flushSeq (s : State) (u : Nat × Nat) : State :=
  let x := s.seq u.1 u.2
  let s := x.stores.foldl (fun s st => s.flushStore u.1 u.2 st) s
  let s := (x.allLoads.filter fun e => (atomicOf e.kind).isSome && !e.performed).foldl (fun s e => match e.parts with
    | .bytes (.mem pa) n :: _ => s.soil pa n
    | _ => s) s
  let s := s.modSeq u.1 u.2 fun x => { x with loads := [], stores := [] }
  s.kvRest u.1 u.2

/-- What stays poisoned: whether a sector's poison was that of its lost L2 copy is open (R205, R335; log entry 107). -/
def State.losePoison (s : State) : State :=
  { s with poison := (s.poison.zipIdx.filter fun e => Config.coin (s.choices + e.2)).map (·.1), choices := s.choices + s.poison.length }

/-- WARM_RESET (R335): units are stopped without a trap, launches fail, and the part boots over the HBM that
is left. -/
def execWarmReset (verified : Bool) (offer : BitVec 256) (s : State) : Out :=
  let s := (s.coreIds.map fun c => [(c, 0), (c, 1)]).flatten.foldl (fun s u => if (s.seq u.1 u.2).active then s.stopUnit u.1 u.2 else s) s
  let s := (s.coreIds.map fun c => [(c, 0), (c, 1)]).flatten.foldl State.flushSeq s
  let s := s.failLaunches s.launchIds
  let s := s.phases.foldl (fun s e => match e.2 with
    | some r => if r.posting then s.postPhase e.1 else s
    | none => s) s
  let t := (s.loseSectors (s.dirty.map (·.1))).losePoison
  .next { t.boot verified offer with mem := t.mem, poison := t.poison }

/-! ### Power (R338) -/

/-- THROTTLE_STEP_DOWN (R338): by 0.25 GHz, to no less than 1.0 GHz. -/
def execThrottleStepDown (die : Nat) (s : State) : Out := .next (s.modDie die fun d => d.stepClock s.clock (max 1000 (d.clockMHz - 250)))

/-- THROTTLE_STEP_UP (R338). -/
def execThrottleStepUp (die : Nat) (s : State) : Out := .next (s.modDie die fun d => d.stepClock s.clock (min 2250 (d.clockMHz + 250)))

/-- THERMAL_STOP (R338): the die's units are stopped without a trap, their launches fail, and the host is told. -/
def execThermalStop (die : Nat) (s : State) : Out :=
  let ls := s.onDie die
  let s := ls.foldl (fun s e => (s.modLaunch e.1 fun l => { l with isFailed := true, cancelled := true, onEmpty := .complete, ckpt := none, drain := none }).stopAll
    (s.activeUnits e.2)) s
  .next { s with thermalReports := s.thermalReports ++ [die] }

/-! ### Trestle's own steps (R294, R297, R298, R303) -/

/-- HIST_COUNT_ARRIVE (R294). -/
def execHistCountArrive (s : State) : Out := .next s.arriveCount

/-- TRESTLE_WINDOW_END (R297). -/
def execTrestleWindowEnd (s : State) : Out := .next s.endWindow

/-- TRESTLE_PUBLISH (R298). -/
def execTrestlePublish (s : State) : Out := .next s.publish

/-- SLOT_RETIRE (R303). -/
def execSlotRetire (pair slot : Nat) (s : State) : Out := .next (s.retireSlot pair slot)

/-! ### Links (R317, R319) -/

def State.linkAt (s : State) (n : Nat) : Link := mapGet Link.init s.links n
def State.setLink (s : State) (n : Nat) (l : Link) : State := { s with links := mapSet Link.init s.links n l }

/-- Resends that a sender makes (R319). -/
abbrev linkResends : Nat := 8

/-- LINK_ROW_RECEIVE (R319): the expected row is accepted, a repeated one discarded, and for any other the rest
is asked for again.  Each direction of a link counts its own rows; a link that is down, or whose feature is not
accepted, receives none (R336). -/
def execLinkRowReceive (link : Nat) (row : Nat) (crcOk : Bool) (s : State) : Out :=
  let l := s.linkAt link
  if s.linkDown link then .next s
  else if crcOk && row = l.expected then .next (s.setLink link { l with expected := row + 1, resends := 0 })
  else if crcOk && row < l.expected then .next s
  else .next (s.setLink link { l with resends := l.resends + 1, errors := if crcOk then l.errors else l.errors + 1 })

/-- LINK_DOWN (R319): the resends are spent.  What waits on the link, or is sent over it, is lost from now on. -/
def execLinkDown (link : Nat) (s : State) : Out :=
  let l := s.linkAt link
  if s.linkPresent link && l.up && linkResends < l.resends then .next (s.setLink link { l with up := false, errors := l.errors + 1 }) else .next s

/-- ROUTER_DRAIN (R317): a drain delays traffic, loses nothing and changes no order. -/
def execRouterDrain (s : State) : Out := .next s

/-! ### Soft errors (R205, R206, R242) -/

def State.countCorrected (s : State) (d : Nat) : State := s.modDie d fun x => { x with corrected := x.corrected + 1 }
def State.poisonSector (s : State) (pa : Nat) : State := { s with poison := mapInsert (pa / 32) true s.poison, renewed := dropRenewed s.renewed (pa / 32 * 32) 32 }

/-- The record of a line is poisoned (R242). -/
def State.poisonRecord (s : State) (line : Nat) : State := s.setDigest line { s.digest line with poisoned := true }

/-- The first entry of a list that a test accepts is rewritten. -/
def editFirst {α : Type} (p : α → Bool) (f : α → α) : List α → List α
  | [] => []
  | x :: xs => if p x then f x :: xs else x :: editFirst p f xs

/-- What an error of the mesh can hit at a core (R205, R315). -/
inductive OnMesh where
  | flight (f : Flight)
  | mcast (m : McstFlight)
  /-- Data of a load-class entry of a sequencer, or of the tile operation that it belongs to. -/
  | load (q order : Nat)
  /-- The part at a place of a store of a sequencer. -/
  | store (q order i : Nat)
  | atomic (target : Nat) (r : RemoteAtomic)
  deriving DecidableEq, Repr

/-- Data of a load-class entry is on its way: it has been read, in part or whole, and has not arrived. -/
def LoadEntry.travels (e : LoadEntry) : Bool := !e.arrived && (e.performed || !e.got.isEmpty)

/-- What is on the mesh for a core: vectors to it; multicasts, atomics and stores from it; and data of its loads. -/
def State.onMesh (s : State) (c : Nat) : List OnMesh :=
  (s.flights.filter fun f => f.target == c).map .flight ++ (s.mcasts.filter fun m => m.src == c).map .mcast ++
  ([0, 1].map fun q =>
    ((s.seq c q).loads.filter LoadEntry.travels).map (fun e => OnMesh.load q e.order) ++
    ((s.seq c q).stores.map fun st => (List.range (min st.left st.parts.length)).map fun i => OnMesh.store q st.order i).flatten).flatten ++
  (s.cores.map fun e => (e.2.atomics.filter fun r => r.src == c).map fun r => OnMesh.atomic e.1 r).flatten

/-- A part of a store arrives poisoned (R205, R206). -/
def StorePart.poison (p : StorePart) : StorePart := { p with bad := (p.bytes.zipIdx.filter fun e => e.1.isSome).map (·.2) }

/-- What is hit is delivered poisoned (R205). -/
def State.poisonOn (s : State) (c : Nat) : OnMesh → State
  | .flight f => { s with flights := editFirst (· == f) (fun f => { f with poisoned := true }) s.flights }
  | .mcast m => { s with mcasts := editFirst (· == m) (fun m => { m with poisoned := true }) s.mcasts }
  | .load q order =>
    (s.modCore c fun k => { k with tfOps := k.tfOps.map fun o => if o.q == q && o.order == order then { o with poisoned := true } else o }).modSeq c q
      fun x => { x with loads := x.loads.map fun e =>
        if e.order = order then { e with poisoned := true, mark := if e.performed then some .eccUncorrectable else e.mark } else e }
  | .store q order i => s.modSeq c q fun x => { x with stores := x.stores.map fun st =>
      if st.order = order then { st with parts := st.parts.mapIdx fun j p => if j = i then p.poison else p } else st }
  | .atomic target r => s.modCore target fun k => { k with atomics := editFirst (· == r) (fun r => { r with bad := true }) k.atomics }

/-- A flit error delivers its data poisoned: which of the transfers of a core it hits is open (R205; log entry
148). -/
def State.poisonFlit (s : State) (c : Nat) : State :=
  match s.onMesh c with
  | [] => s
  | ms => let r := s.nextChoice; match ms[r.1 % ms.length]? with
    | some m => r.2.poisonOn c m
    | none => r.2

/-- A result with another value. -/
def Port.spoil (p : Port) (v : Value) : Port :=
  match p.queue.reverse with
  | [] => { p with cur := { p.cur with val := v } }
  | r :: rs => { p with queue := (({ r with val := v } : Res) :: rs).reverse }

/-- A wrong value on a port of vx (R205). -/
def State.spoilVector (s : State) (c : Nat) : State :=
  let r := s.nextChoice
  match r.1 % 3 with
  | 0 => let v := r.2.freshVec; v.2.modCore c fun k => { k with vxr := k.vxr.spoil (.v v.1) }
  | 1 => let v := r.2.freshWord; v.2.modCore c fun k => { k with vxm := k.vxm.spoil (.p v.1) }
  | _ => let v := r.2.freshWord; v.2.modCore c fun k => { k with vxs := k.vxs.spoil (.s v.1) }

/-- A tile with other bytes. -/
def State.spoilTile (s : State) (c t : Nat) : State :=
  let x := (s.core c).tile t
  let f := s.freshBytes x.data.length
  f.2.modCore c fun k => k.setTile t { x with data := f.1 }

/-- The operation at the head of mx completes with a wrong value (R205). -/
def State.spoilMatrix (s : State) (c : Nat) : State :=
  match (s.core c).mxOps with
  | op :: _ => op.writes.foldl (fun s t => s.spoilTile c t) (s.completeMx c op)
  | [] => s

/-- Bytes made for one line replaced by others. -/
def EngineUnit.spoil (u : EngineUnit) (line : Nat) (f : List Byte) : EngineUnit :=
  { u with out := u.out.mapIdx fun i b => if lineIndex (u.dst + i) == line then (f.getD ((u.dst + i) % 256) 0, b.2) else b }

/-- What an engine has made for a line of its destination, and not written, carries wrong bytes (R205). -/
def State.spoilEngine (s : State) (va : Nat) : State :=
  s.rings.foldl (fun s e =>
    match e.2 with
    | some x => match x.work with
      | some w =>
        let f := s.freshBytes 256
        { f.2 with rings := mapInsert e.1 (some { x with work := some { w with units := w.units.map fun u => u.spoil (lineIndex va) f.1 } }) f.2.rings }
      | none => s
    | none => s) s

/-- A sector of a line in a core's banks holds bytes of a store that is not performed (R198). -/
def StorePart.dirties (p : StorePart) (line sector : Nat) : Bool :=
  p.dirty && (match p.loc with
    | .mem pa => lineIndex pa == line && (p.bytes.zipIdx.any fun e => e.1.isSome && (pa + e.2) % 256 / 32 == sector)
    | .spad _ _ => false)

/-- The stores of a part that dirtied a sector carry its poison to the merge (R205). -/
def StoreEntry.spoil (st : StoreEntry) (line sector : Nat) : StoreEntry :=
  { st with parts := st.parts.mapIdx fun i p =>
      if i < st.left && p.dirties line sector then
        { p with bad := match p.loc with
            | .mem pa => p.bad ++ ((p.bytes.zipIdx.filter fun e => e.1.isSome && (pa + e.2) % 256 / 32 == sector).map (·.2)).take 1
            | .spad _ _ => p.bad }
      else p }

/-- An error in a sector of a line that a core's banks hold (R205): a dirty sector is corrected, or poisoned where its store
merges; a clean line is dropped, and of a line with dirty sectors the clean one. -/
def State.bankError (s : State) (c : Nat) (l : CacheLine) (sector : Nat) (correctable : Bool) : State :=
  let k := s.core c
  if k.leftParts.any fun p => p.dirties l.line sector then
    if correctable then s.countCorrected (dieOf c)
    else s.modCore c fun k => { k with
      seqs := k.seqs.map (fun e => (e.1, { e.2 with stores := e.2.stores.map fun st => st.spoil l.line sector }))
      cache := k.cache.map fun m => if m.line == l.line then
        { m with sectors := m.sectors.mapIdx fun i d => if i = sector then d.map fun b => (b.1, true) else d } else m }
  else if k.lineDirty l.line then
    s.modCore c fun k => { k with cache := k.cache.map fun m =>
      if m.line == l.line then { m with sectors := m.sectors.mapIdx fun i d => if i = sector then none else d } else m }
  else s.modCore c fun k => { k with cache := k.cache.filter fun m => m.line != l.line }

/-- Bindings see the poison of a line that they hold pinned (R173, R206). -/
def Tile.spoilCopy (x : Tile) (line sector : Nat) : Tile :=
  if x.state = .bound then
    { x with copies := x.copies.map fun e => if e.1 == line then (e.1, (e.2.1, if e.2.2.contains sector then e.2.2 else e.2.2 ++ [sector])) else e }
  else x

def Core.spoilCopies (k : Core) (line sector : Nat) : Core :=
  { k with
    tiles := k.tiles.map (fun e => (e.1, e.2.spoilCopy line sector))
    mxOps := k.mxOps.map fun op => { op with bound := op.bound.map fun b => (b.1, b.2.spoilCopy line sector) } }

/-- A sector of a line in a die's remote-line ways is poisoned (R197, R205). -/
def State.spoilRemote (s : State) (d line sector : Nat) : State :=
  if (s.die d).remote.any fun l => l.line == line then
    let s := s.modDie d fun x => { x with remote := x.remote.map fun l =>
      if l.line == line && !l.poisoned.contains sector then { l with poisoned := l.poisoned ++ [sector] } else l }
    { s with cores := s.cores.map fun e => if dieOf e.1 == d then (e.1, e.2.spoilCopies line sector) else e }
  else s

/-- SOFT_ERROR (R205).  What the device of HBM corrects counts nowhere (log entry 136). -/
def execSoftError (site : ErrSite) (correctable : Bool) (s : State) : Out :=
  match site with
  | .cacheBank c bank frame sector =>
    match (s.core c).cache.find? fun l => l.bank == bank && l.frame == frame && (l.sectors.getD sector none).isSome with
    | some l => .next (s.bankError c l sector correctable)
    | none => .next s
  | .scratchpad c off =>
    if correctable then .next (s.countCorrected (dieOf c))
    else .next (s.modCore c fun k => { k with spadPoison := mapInsert (off / 4) true k.spadPoison })
  | .operandBank c t w =>
    if correctable then .next (s.countCorrected (dieOf c))
    else .next (s.modCore c fun k =>
      let x := k.tile t
      if x.state = .resident then
        k.setTile t { x with bad := x.bad ++ ((List.range 4).map (4 * w + ·)).filter fun i => i < x.data.length && !x.bad.contains i }
      else k)
  | .remoteWay d line sector =>
    if correctable then .next (s.countCorrected d) else .next (s.spoilRemote d line sector)
  | .l2 pa => if correctable then .next (s.countCorrected (homeDie pa)) else .next (s.poisonSector pa)
  | .digestRecord line =>
    if correctable then .next (s.countCorrected (homeDie line)) else .next (s.poisonRecord line)
  | .hbm pa =>
    if correctable then .next s
    else .next ((s.backedLines (pa / 32 * 32) 32).foldl (fun s l => s.poisonRecord l) (s.poisonSector pa))
  | .meshFlit c => .next (s.poisonFlit c)
  | .vectorDatapath c => .next (s.spoilVector c)
  | .matrixDatapath c => .next (s.spoilMatrix c)
  | .engineDatapath pa => .next (s.spoilEngine pa)

end Sys2Proof.Machine
end

