-- ==== Sys2Proof/Machine/Clock.lean ====
section
/-! DEFINITION. The clock (R3, R4): what ends with it, the merge stage of each core (R21 to R26), and which
step may come next.

Within one clock the steps that no rule orders come in any order (R101, R340): an open choice picks among
them.  The clock goes on once nothing is left that has to happen in it. -/
namespace Sys2Proof.Machine

/-! ### The merge stage (R21 to R26) -/

/-- What a sequencer brings to the merge stage: nothing, a ready bundle with its positions and its no-merge
flag, or a bundle that will only freeze or trap at its fetch. -/
inductive Offer where
  | nothing
  | ready (positions : List Nat) (noMerge : Bool)
  | attempt
  deriving DecidableEq, Repr

def State.offer (s : State) (c q : Nat) : Offer :=
  let x := s.seq c q
  if !x.mayIssue || s.atSafePoint c q then .nothing
  else match s.readyBundle c q with
    | .slots b _ => .ready (bundleOccupies b x.slot) (bundleNoMerge b)
    | .bad b _ => .ready (bundleOccupies b x.slot) (bundleNoMerge b)
    | .freeze _ => .attempt
    | .fault _ _ => .attempt

def Offer.isReady : Offer → Bool
  | .ready .. => true
  | _ => false

/-- Two bundles may issue together (R23, R24). -/
def Offer.merges : Offer → Offer → Bool
  | .ready ps n, .ready qs m => !n && !m && ps.all fun p => !qs.contains p
  | _, _ => false

/-- The lost merges after which q1 is primary (R22). -/
abbrev lostLimit : Nat := 64

/-- The sequencers that issue: the primary, and the other with it when their bundles merge (R22, R23). -/
def mergeStage (lost : Nat) (a b : Offer) : List Nat :=
  match a.isReady, b.isReady with
  | true, true => if a.merges b then [0, 1] else if lostLimit ≤ lost then [1] else [0]
  | true, false => [0]
  | false, true => [1]
  | false, false => []

/-- The lost-merge count of q1, which returns to 0 when the granted bundle issues (R22). -/
def nextLost (lost : Nat) (b : Offer) (issue : List Nat) : Nat := if b.isReady && !issue.contains 1 then lost + 1 else lost

/-- Grants beyond the merge stage: 2 and 3 let a sequencer freeze or trap at its fetch. -/
def attempts (a b : Offer) : List Nat := (if a = .attempt then [2] else []) ++ (if b = .attempt then [3] else [])

/-- The merge stage of a core for a clock. -/
def State.grant (s : State) (c : Nat) : State :=
  let k := s.core c
  let a := s.offer c 0
  let b := s.offer c 1
  let issue := mergeStage k.lost a b
  let s := s.setCore c { k with grants := issue ++ attempts a b, lost := nextLost k.lost b issue }
  let s := if a.isReady && !issue.contains 0 then s.traceStallStart c 0 2 else s
  if b.isReady && !issue.contains 1 then s.traceStallStart c 1 2 else s

/-! ### The end of a clock -/

/-- Sequencers of every core in use. -/
def State.units (s : State) : List (Nat × Nat) := (s.coreIds.map fun c => [(c, 0), (c, 1)]).flatten

/-- A step that the part may take: the meaning of an instruction, or one that no row names. -/
abbrev Move := State → Out

/-- A step of the part that no row names. -/
def unnamed (f : State → State) : Move := fun s => .next (f s)

/-- A load-class operation that reads digest records: a query, or an access with a stamp check (R240). -/
def LoadEntry.readsRecords (e : LoadEntry) : Bool :=
  match e.kind with
  | .dq | .dqr .. | .dqz .. => true
  | _ => e.check.isSome

/-- A store-class operation that reads digest records: a rebuild, line by line (R240). -/
def StoreKind.readsRecords : StoreKind → Bool
  | .rebuild .. => true
  | _ => false

/-- A step, and what it leaves for those that come after it in its clock. -/
def Move.andThen (m : Move) (f : State → State) : Move := fun s => match m s with
  | .next t => .next (f t)
  | o => o

/-! #### Slots between cores and slices (R315) -/

/-- A part of an entry comes from a slice of the die: a checked access, or a line that the banks do not hold (R111, R198,
R315). -/
def State.fills (s : State) (c q : Nat) (e : LoadEntry) (p : Part) : Bool :=
  let s := s.freshPart c e p
  match p with
  | .bytes (.mem pa) _ =>
    let runs := match s.packedChunks c q e, s.toRead c q e with
      | some _, .bytes (.mem a) k :: _ => [(a, k)]
      | _, _ => e.runsIn (lineIndex pa)
    (ownSlice c (.mem pa)).isSome && (e.check.isSome || !((s.core c).cache.any fun l => l.line == lineIndex pa &&
      (runs.map fun r => sectorsOf r.1 r.2).flatten.all fun i => (l.sectors.getD i none).isSome))
  | _ => false

/-- A part of an entry waits for its slot. -/
def State.fillWaits (s : State) (c q : Nat) (e : LoadEntry) (p : Part) : Bool :=
  s.fills c q e p && (match p with | .bytes l _ => s.slotWaits c l true | .record .. => false)

/-- The record cache holds what a record read reads: it needs no fill (R115). -/
def State.recordHeld (s : State) (c : Nat) (e : LoadEntry) : Bool :=
  isRecord e && ((recordTag e).bind ((s.core c).recordHit (fencesOf e))).isSome

/-- The first part of an entry waits for its slot (R115, R315). -/
def State.firstWaits (s : State) (c q : Nat) (e : LoadEntry) : Bool := (e.parts.head?.any fun p => s.fillWaits c q e p) && !s.recordHeld c e

/-- A step that reads a part of an entry, which takes its slot and lands in its clock (R315). -/
def State.filling (s : State) (c q : Nat) (e : LoadEntry) (i : Nat) (m : Move) : Move :=
  match e.parts[i]? with
  | some (.bytes l n) =>
    if s.fills c q e (.bytes l n) && !s.recordHeld c e then
      let lands := s.landsInSlice c l true
      m.andThen fun t => ((t.takeSlot c l true).editLoad c q e.order fun e => { e with fillAt := max e.fillAt lands }).modSeq c q fun x =>
        if isRecord e then { x with recordAt := lands } else x
    else m
  | _ => m

/-! #### Accesses of one clock at a bank (R222) -/

/-- The bank of its own scratchpad that a core's access reaches. -/
def ownBank (c : Nat) : Loc → Option Nat
  | .spad o off => if o = c then some (off / Config.bankBytes) else none
  | .mem _ => none

/-- A later access has been applied at the bank in this clock. -/
def Core.outOfTurn (k : Core) (clock bank q since order : Nat) : Bool :=
  k.applied.1 == clock && k.applied.2.any fun a => a.1 == bank && (since < a.2.2.1 || (since == a.2.2.1 && a.2.1 == q && order < a.2.2.2))

/-- An access of a core at its own bank is applied in this clock. -/
def State.noteBank (s : State) (c bank q since order : Nat) : State :=
  s.modCore c fun k => { k with applied := (s.clock, (bank, q, since, order) :: (if k.applied.1 = s.clock then k.applied.2 else [])) }

/-- A step that accesses a place, in its turn among the accesses of its clock at a bank of the core (R222). -/
def State.inTurn (s : State) (c q since order : Nat) (l : Option Loc) (m : Move) : List Move :=
  match l.bind (ownBank c) with
  | some b => if (s.core c).outOfTurn s.clock b q since order then [] else [m.andThen fun t => t.noteBank c b q since order]
  | none => [m]

/-- The place of a part. -/
def Part.place : Part → Option Loc
  | .bytes l _ => some l
  | .record .. => none

/-- A step that reads one part of an entry, in its turn and in its slot. -/
def State.readMove (s : State) (c q : Nat) (e : LoadEntry) (i : Nat) (m : Move) : List Move :=
  s.inTurn c q e.since e.order ((e.parts[i]?).bind Part.place) (s.filling c q e i m)

/-- The record reads that a sequencer may make in a clock. -/
def State.recordReads (s : State) (c q : Nat) : List Move :=
  let x := s.seq c q
  (match x.loadReady fun e => e.readsRecords && e.plainLoad && s.loadFree c q e && !s.firstWaits c q e with
    | some e => ((s.aheadOf c q).map fun i => unnamed fun s => s.readAhead c q i) ++ s.readMove c q e 0 (execLoadPerformed c q)
    | none => []) ++
  (match x.nextStore with
    | some st => if st.kind.readsRecords then [execDrebuildPerform c q] else []
    | none => [])

/-- A move that may be made or not. -/
def State.perhaps (s : State) (m : Move) : State :=
  let t : State := { s with choices := s.choices + 1 }
  if Config.coin s.choices then (match m t with | .next u => u | _ => t) else t

/-- Limits of waits run out; then, at each bank, batches close and multicasts land; and last the record reads of the
clock, each after every merge of the clock (R222, R226, R240). -/
def State.endClock (s : State) : State :=
  let s := s.units.foldl (fun s u => s.expireWait u.1 u.2) s
  let s := s.coreIds.foldl (fun s c => s.applyBatch c) s
  let s := (s.mcasts.filter fun m => m.clock ≤ s.clock).foldl (fun s m => s.landMcast m) s
  s.units.foldl (fun s u => (s.recordReads u.1 u.2).foldl (fun s m => s.perhaps m) s) s

/-- Leases change hands at the end of the clock (R19, R25). -/
def State.moveLeases (s : State) : State :=
  { s with cores := s.cores.map fun e => (e.1, { e.2 with hold := e.2.nextHold, held := e.2.nextHeld }) }

/-- Launches that are blocked, and from which clock on (R42). -/
def State.watchBlocked (s : State) : State :=
  { s with launches := s.launches.map fun e => (e.1, e.2.map fun l =>
      { l with blockedFrom := if s.blocked l then some (l.blockedFrom.getD s.clock) else none }) }

/-- One clock passes: what ends with it, and the boundary and the merge stages of the next (R19, R23, R25, R42, R228). -/
def State.tick (s : State) : State :=
  let s := s.endClock.settleUses
  let s := ({ s with clock := s.clock + 1 } : State).moveLeases.watchBlocked.turnSteps
  s.coreIds.foldl (fun s c => s.grant c) s

/-! ### Steps that have to happen in this clock -/

/-- The reply of a remote atomic, or the last fill of a load, lands in this clock (R222, R315). -/
def LoadEntry.replyDue (e : LoadEntry) (clock : Nat) : Bool := (e.landsAt != 0 || e.fillAt != 0) && e.mayArrive clock

/-- The entries of a sequencer's load queues that a test accepts, by place. -/
def Seq.arriving (x : Seq) (p : LoadEntry → Bool) : List Nat :=
  (List.range x.allLoads.length).filter fun i => (x.allLoads[i]?).any p

/-- A flag-wait whose end the part decides: the steps that it waits for take their time (R283), or a record is on its way
(R315). -/
def Seq.endsLate (x : Seq) (clock : Nat) : Hold → Bool
  | .kv _ => true
  | .record => clock < x.recordAt
  | _ => false

/-- An atomic at the core's own bank that is next is applied at once (R222). -/
def State.localAtomic (s : State) (c q : Nat) : List Move :=
  match s.nextAtomic c q with
  | some e => match (e.parts.head?).bind Part.place with
    | some (.spad o off) => if o = c then s.inTurn c q e.since e.order (some (.spad o off)) (execAtomicApply c q) else []
    | _ => []
  | none => []

/-- Steps of one sequencer that are due. -/
def State.dueUnit (s : State) (c q : Nat) : List Move :=
  let k := s.core c
  let x := k.seq q
  (if x.stopPending || x.deferredReady then [execDeferredTrap c q] else []) ++
  (if x.active && x.budgetSpent s.clock then [execHandlerBudgetExpiry c q] else []) ++
  (match x.hold with
    | some h => (if freezeOver k x h then [execFreezeEnd c q] else []) ++ (if waitEnds k q x h && !x.endsLate s.clock h then [execFlagWaitEnd c q] else [])
    | none => []) ++
  (x.arriving fun e => e.replyDue s.clock).map (fun i => execLoadDataArrival c q i) ++
  (if s.fenceDue c q then [execRecordCacheEmpty c q] else []) ++
  (if s.waitFreed c q || s.waitCut c q then [unnamed fun s => s.settleWait c q] else []) ++
  (if s.atomicLeaves c q then [execAtomicApply c q] else []) ++ s.localAtomic c q ++
  (if s.atSafePoint c q then [execSafePointStop c q] else [])

/-- An entry of the send buffer departs in its slot: a multicast, or a vector to a core of the die (R230, R231). -/
def State.departsNow (s : State) (c : Nat) : Bool :=
  (s.departures c).any fun i => match (s.core c).sends[i]? with
    | some e => match e.send.target with | some t => dieOf t == dieOf c | none => true
    | none => false

def State.dueCore (s : State) (c : Nat) : List Move :=
  s.dueUnit c 0 ++ s.dueUnit c 1 ++
  (if (s.arrivals c).isEmpty then [] else [execCxVectorArrive c]) ++
  (if s.departsNow c then [execCxSendDepart c] else [])

def State.dueLaunch (s : State) (id : Nat) (l : Launch) : List Move :=
  (if s.enlargeDue l then [execCircuitQueueEnlarge id] else []) ++
  (if s.drainOver l then [execDrainRedecision id] else []) ++
  (if s.withdrawDue l then [execCheckpointWithdraw id] else [])

/-- Every step that is due. -/
def State.due (s : State) : List Move :=
  (s.coreIds.map s.dueCore).flatten ++
  (s.launches.map fun e => match e.2 with
    | some l => s.dueLaunch e.1 l
    | none => []).flatten ++
  ((s.dies.map (·.1)).filter s.accrualDue).map execTokenAccrual ++
  (s.overfull.map fun l => unnamed fun s => s.saveRecord l) ++
  (if s.trestle.en && s.trestle.windowEnd ≤ s.clock then [execTrestleWindowEnd] else []) ++
  (s.links.filter fun e => s.linkPresent e.1 && e.2.up && linkResends < e.2.resends).map fun e => execLinkDown e.1

/-! ### Steps that may happen -/

/-- Result ports with something to present. -/
def duePorts (now : Nat) (x : Seq) (k : Core) (own : Bool) : List ResPort :=
  let d := fun (p : Port) => p.queue.any fun r => r.vis ≤ now
  (if d x.results.ia0r then [.ia0r] else []) ++ (if d x.results.ia1r then [.ia1r] else []) ++ (if d x.results.imr then [.imr] else []) ++
  (if d x.results.imh then [.imh] else []) ++ (if d x.results.plr then [.plr] else []) ++ (if d x.results.crr then [.crr] else []) ++
  (if own && d k.vxr then [.vxr] else []) ++ (if own && d k.vxm then [.vxm] else []) ++ (if own && d k.vxs then [.vxs] else [])

/-- The load-class step of a sequencer. -/
def State.loadSteps (s : State) (c q : Nat) : List Move :=
  let x := s.seq c q
  match x.loadReady fun _ => true with
  | none => []
  | some e =>
    if e.readsRecords || !s.loadFree c q e || s.firstWaits c q e then []
    else
    match e.kind with
    | .record _ => if (s.core c).fencesPassed e then s.readMove c q e 0 (execRecordRead c q) else []
    | .acquire _ => if s.acquireWaits c e then [] else [execAcquirePerform c q]
    | .atomic .. | .bget _ => []
    | .epDone t => if t.getLsbD 24 then [] else [execLoadPerformed c q]
    | .epRep _ => if s.repWaits c q then [] else [execEpRepServe c q]
    | .bind =>
      (s.bindable c q).map (fun l => unnamed fun s => s.bindLine c l) ++
        (match (s.core c).tfOps with
          | op :: _ => if (s.core c).tfServes q e.order && op.unpinned.isEmpty then [execTbindPinned c q] else []
          | [] => [])
    | .tileLoad => if (s.core c).tfServes q e.order then s.readMove c q e 0 (execLoadPerformed c q) else []
    | .bwait _ _ _ _ awaited =>
      if awaited.isNone then [execLoadPerformed c q]
      else if s.waitEndsNow c q then [unnamed fun s => s.settleWait c q] else []
    | .scalar .. | .vector _ | .gather _ | .row .. | .dq | .dqr .. | .dqz .. | .kvMap .. => s.readMove c q e 0 (execLoadPerformed c q)

/-- An atomic that is performed at its home slice, or a `sy.bget`, when it may be; one for a bank is due. -/
def State.atomicSteps (s : State) (c q : Nat) : List Move :=
  match s.nextAtomic c q with
  | some e => (match (e.parts.head?).bind Part.place with
    | some (.spad _ _) => []
    | _ => if s.atomicWaits c e then [] else [execAtomicApply c q])
  | none => []

/-- The store-class step of a sequencer. -/
def State.storeSteps (s : State) (c q : Nat) : List Move :=
  match (s.seq c q).nextStore with
  | none => []
  | some st =>
    match st.kind with
    | .plain | .tile .. =>
      if !(s.core c).storeReady q st || s.partTravels c st then []
      else if st.toMemory then [execMerge c q]
      else s.inTurn c q st.since st.order ((st.parts.head?).map (·.loc)) (execScratchpadStorePerformed c q)
    | .kick .. => [execMerge c q]
    | .release pa _ _ _ =>
      if s.slotWaits c (.mem pa) false then [] else [Move.andThen (execReleasePerform c q) fun t => t.takeSlot c (.mem pa) false]
    | .atomic => []
    | .arrival .. => [execBarrierArrival c q]
    | .bfree _ => [execBarrierEntryFree c q]
    | .spawn _ => [execChildLaunchAccept c q]
    | .rebuild .. => []
    | .grad p _ _ _ _ => if s.trestle.quiet p then [execEpGradMerge c q] else []

/-- The reads that the next load-class operation may make out of turn (R340). -/
def State.aheadSteps (s : State) (c q : Nat) : List Move :=
  match (s.seq c q).loadReady fun e => !e.readsRecords with
  | some e => (((s.aheadOf c q).filter fun i => !(e.parts[i]?.any fun p => s.fillWaits c q e p)).map fun i =>
      s.readMove c q e i (unnamed fun s => s.readAhead c q i)).flatten
  | none => []

def State.unitSteps (s : State) (c q : Nat) : List Move :=
  let k := s.core c
  let x := k.seq q
  (duePorts x.now x k (k.owns q .vx)).map (fun p => execFixedLatencyResult c q p) ++
  s.loadSteps c q ++ s.aheadSteps c q ++ s.atomicSteps c q ++
  (x.arriving fun e => e.landsAt == 0 && e.fillAt == 0 && e.mayArrive s.clock).map (fun i => execLoadDataArrival c q i) ++
  (s.unwalked c q).map (fun m => unnamed fun s => s.startWalk c q m) ++
  (match x.hold with
    | some (.kv op) =>
      (if (s.kvMiss c q).isSome then [] else [unnamed fun s => s.kvForward c q]) ++ (if waitEnds k q x (.kv op) then [execFlagWaitEnd c q] else [])
    | some (.invalidate _ _ left) => left.map fun u => unnamed fun s => s.dropOther c q u
    | _ => if x.kvOver then [] else [unnamed fun s => s.kvForward c q]) ++
  (if x.leaver.any fun st => (st.parts[st.left]?).any fun p => !s.slotWaits c p.loc false then [unnamed fun s => s.storeLeave c q] else []) ++
  s.storeSteps c q ++
  (if s.unitDone c q then [execUnitComplete c q] else [])

/-- The operation at the head of tf can complete. -/
def TileOp.tfDone (op : TileOp) : Bool :=
  match op.kind with
  | .load .. => op.ready
  | .bind .. => false
  | _ => true

/-- A holder has read a line: a bound tile, or a product on one. -/
def Core.holdsLine (k : Core) (line h : Nat) : Bool :=
  if h < 16 then (k.tile h).copies.any (·.1 == line)
  else ((k.mxOps[h - 16]?).any fun op => op.bound.any fun b => b.2.copies.any (·.1 == line))

/-- The fills of a tile load have landed (R315). -/
def State.fillsLanded (s : State) (c : Nat) (op : TileOp) : Bool := (s.seq c op.q).allLoads.all fun e => e.order != op.order || e.fillAt ≤ s.clock

/-- Holders of lines of their own die that they may read once more, each in a slot (R174, R315): a bound tile by its number,
a product on one by its place in the queue of mx from 16 on. -/
def State.rereads (s : State) (c : Nat) : List Move :=
  let k := s.core c
  (((k.ownLines (dieOf c)).filter fun l => !s.slotWaits c (.mem (l * 256)) true).map fun l =>
    ((List.range (16 + k.mxOps.length)).filter (k.holdsLine l)).map fun h =>
      unnamed fun s => (s.rereadLine c l h).takeSlot c (.mem (l * 256)) true).flatten

def State.coreSteps (s : State) (c : Nat) : List Move :=
  let k := s.core c
  s.rereads c ++ (s.repinnable c).map (fun e => unnamed fun s => s.repinLine c e.1 e.2) ++
  s.unitSteps c 0 ++ s.unitSteps c 1 ++
  (match k.tfOps with
    | op :: _ => if op.tfDone && s.fillsLanded c op then [execTileOpComplete c true] else []
    | [] => []) ++
  (match k.mxOps with
    | _ :: _ => [execTileOpComplete c false]
    | [] => []) ++
  (match k.stopk with
    | some t => if k.stopkGoes t then
        execStopkComplete c :: ((List.range t.k).filter fun i => !t.written.contains i).map fun i => unnamed fun s => s.stopkWrite c i
      else []
    | none => []) ++
  (match k.drain with
    | some d => if d.cycle + 2 + d.rows.length ≤ (k.seq k.mxHolder).cycle then [execMdrainRow c] else []
    | none => []) ++
  (if k.sends.isEmpty then [] else if (s.departures c).isEmpty then [] else [execCxSendDepart c])

def State.launchSteps (s : State) (id : Nat) (l : Launch) : List Move :=
  (if s.saveReady l then [execCheckpointSave id] else []) ++ (if l.state = .restoring then [execLaunchRestore id] else [])

/-- The next step of a walk: its end for a sequencer that misses, or one that no row names. -/
def State.walkMove (s : State) (d : Nat) (w : Walker) : Move :=
  match (s.dieUnits d).find? fun u => s.walkerOf u.1 u.2 == some w with
  | some u => if (s.walkerNext w).last then execTlbWalk u.1 u.2 else unnamed fun s => s.walkStep d w
  | none => unnamed fun s => s.walkStep d w

/-- Steps of a die: its scheduler may place a candidate in any clock (R254; log entry 139), and its walks go on. -/
def State.dieSteps (s : State) (d : Nat) : List Move :=
  (s.die d).walkers.map (s.walkMove d) ++
  (if (s.preempts d).isSome || (s.nextPlaced d).isSome then [execSchedulerSelect d] else [])

/-- An engine's steps wait, as walks do, for stores that a `cr.tlbinv` of the space came after (R204). -/
def State.ringSteps (s : State) (key : Nat) (r : Ring) : List Move :=
  if s.walkHeld (key / 16) then []
  else if r.finished.isSome then [execXformCompletion (key / 16) (key % 16)]
  else if r.running then [execXformRequest (key / 16) (key % 16)] else []

/-- Trestle's own steps, which go on where EN has been cleared (log entry 144). -/
def State.trestleSteps (s : State) : List Move :=
  let t := s.trestle
  if s.walkHeld t.asid then [] else
  (if t.arriving.isEmpty then [] else [execHistCountArrive]) ++ (if t.plan.isSome then [execTrestlePublish] else []) ++
  (t.slots.filter fun e => e.2.state == .retiring && e.2.inflight == 0 && e.1 % 4 != 0).map fun e => execSlotRetire (e.1 / 4) (e.1 % 4)

/-- Every step that may happen. -/
def State.internal (s : State) : List Move :=
  (match s.hostDrops with | h :: _ => h.2.2.2.map fun u => unnamed fun s => s.hostDrop u | [] => []) ++
  (s.coreIds.map s.coreSteps).flatten ++
  (s.launches.map fun e => match e.2 with
    | some l => s.launchSteps e.1 l
    | none => []).flatten ++
  ((s.dies.map (·.1)).map s.dieSteps).flatten ++
  (s.rings.map fun e => match e.2 with
    | some r => s.ringSteps e.1 r
    | none => []).flatten ++
  (s.phases.filter fun e => match e.2 with
    | some r => r.posting
    | none => false).map (fun e => execPhaseRecordPost e.1) ++
  (s.unsaved.map fun e => unnamed fun s => s.saveRecord e.1) ++
  ((s.digests.filter fun e => !mapGet false s.unsaved e.1).map fun e => unnamed fun s => s.reloadRecord e.1) ++
  s.trestleSteps

/-! ### The next step -/

/-- The bundles that the merge stages of this clock let go on. -/
def State.granted (s : State) : List Move :=
  (s.coreIds.map fun c => (s.core c).grants.map fun g => execBundleIssue c (g % 2)).flatten

/-- What may come next: the bundles of this clock, which issue as the merge stages have found them (R21, R23); then
whatever is due or may happen, and the end of the clock when nothing is due. -/
def State.moves (s : State) : List Move :=
  match s.granted with
  | m :: ms => m :: ms
  | [] =>
    let due := s.due
    due ++ s.internal ++ (if due.isEmpty then [unnamed State.tick] else [])

/-- Take one of several moves: the only one, or an open choice. -/
def runMove (s : State) : List Move → Out
  | [] => .next s.tick
  | [m] => m s
  | ms => let r := s.nextChoice; (ms.getD (r.1 % ms.length) fun s => .next s.tick) r.2

/-! ### A bundle laid out for the next step -/

/-- Where the bundle stands: the first byte of a page mapped onto itself. -/
def placedPc : Nat := 0x10000

def placedPage : Page := { asid := 0, va := placedPc, size := 65536, pa := placedPc, w := true, x := true }

/-- Slot words with the given one in its slot; each slot that a header extends holds a move of an immediate
to p0, which is discarded (R11, R50). -/
def placedWords (x : BitVec 32) : List (BitVec 32) :=
  let ext := if tableSlot x = 0 && isHeaderWord x then
      headerExt (fieldOf x 28 1) (fieldOf x 27 1) (fieldOf x 26 1) (fieldOf x 16 8) (fieldOf x 8 8) (fieldOf x 0 8)
    else [none, none, none, none]
  (List.range 4).map fun k => if k = tableSlot x then x else if (ext.getD k none).isSome then moveWord 0 0x060 0x800 else 0

/-- The sequencer that issues the bundle: running at its address, its translation in the TLB. -/
def placedSeq (x : Seq) : Seq :=
  { x with run := .running, pc := BitVec.ofNat 64 placedPc, slot := 0, hold := none, handler := false, pending := [],
           asid := 0, tlb := [placedPage] }

/-- q0 of core 0, holding every unit, has a bundle with the word in its slot, and issues it in this clock. -/
def State.placeWord (s : State) (w : Nat) : State :=
  let s := s.writeMem placedPc (((placedWords (BitVec.ofNat 32 w)).map fun v => (natBytes 4 v.toNat).map some).flatten)
  let s := s.modCore 0 fun k =>
    { k.setSeq 0 (placedSeq (k.seq 0)) with
      claim := 0x7F, hold := 0, held := 0x7F, nextHold := 0, nextHeld := 0x7F, grants := [0] }
  { s with inputs := [] }

end Sys2Proof.Machine
end

