-- ==== Sys2Proof/Machine/Dispatch.lean ====
section
/-! DEFINITION. The meaning of every constructor of `Instr`. -/
namespace Sys2Proof.Machine

def exec (i : Instr) (s : State) : Host.Outcome State Fault Refusal :=
  match i with
  | .move g d src => Sys2Proof.Machine.execMove g d src s
  | .wideImmediateMove d imm => Sys2Proof.Machine.execWideImmediateMove d imm s
  | .header nm e1 e2 e3 x1 x2 x3 => Sys2Proof.Machine.execHeader nm e1 e2 e3 x1 x2 x3 s
  | .lqPop g d => Sys2Proof.Machine.execLqPop g d s
  | .cxPop g d => Sys2Proof.Machine.execCxPop g d s
  | .cqPop g d => Sys2Proof.Machine.execCqPop g d s
  | .cqPush g src => Sys2Proof.Machine.execCqPush g src s
  | .iaAdd g u src => Sys2Proof.Machine.execIaAdd g u src s
  | .iaSub g u src => Sys2Proof.Machine.execIaSub g u src s
  | .iaAnd g u src => Sys2Proof.Machine.execIaAnd g u src s
  | .iaOr g u src => Sys2Proof.Machine.execIaOr g u src s
  | .iaXor g u src => Sys2Proof.Machine.execIaXor g u src s
  | .iaAndn g u src => Sys2Proof.Machine.execIaAndn g u src s
  | .iaShl g u src => Sys2Proof.Machine.execIaShl g u src s
  | .iaShr g u src => Sys2Proof.Machine.execIaShr g u src s
  | .iaSar g u src => Sys2Proof.Machine.execIaSar g u src s
  | .iaRotr g u src => Sys2Proof.Machine.execIaRotr g u src s
  | .iaMin g u src => Sys2Proof.Machine.execIaMin g u src s
  | .iaMax g u src => Sys2Proof.Machine.execIaMax g u src s
  | .iaMinn g u src => Sys2Proof.Machine.execIaMinn g u src s
  | .iaMaxn g u src => Sys2Proof.Machine.execIaMaxn g u src s
  | .iaCmpeq g u src => Sys2Proof.Machine.execIaCmpeq g u src s
  | .iaCmpne g u src => Sys2Proof.Machine.execIaCmpne g u src s
  | .iaCmplt g u src => Sys2Proof.Machine.execIaCmplt g u src s
  | .iaCmple g u src => Sys2Proof.Machine.execIaCmple g u src s
  | .iaCmpltn g u src => Sys2Proof.Machine.execIaCmpltn g u src s
  | .iaCmplen g u src => Sys2Proof.Machine.execIaCmplen g u src s
  | .iaClz g u src => Sys2Proof.Machine.execIaClz g u src s
  | .iaCtz g u src => Sys2Proof.Machine.execIaCtz g u src s
  | .iaPopc g u src => Sys2Proof.Machine.execIaPopc g u src s
  | .iaSext g u src => Sys2Proof.Machine.execIaSext g u src s
  | .iaZext g u src => Sys2Proof.Machine.execIaZext g u src s
  | .imMul g src => Sys2Proof.Machine.execImMul g src s
  | .imMulhi g src => Sys2Proof.Machine.execImMulhi g src s
  | .imMulhn g src => Sys2Proof.Machine.execImMulhn g src s
  | .imDiv g src => Sys2Proof.Machine.execImDiv g src s
  | .imDivn g src => Sys2Proof.Machine.execImDivn g src s
  | .imRem g src => Sys2Proof.Machine.execImRem g src s
  | .imRemn g src => Sys2Proof.Machine.execImRemn g src s
  | .imMad g src => Sys2Proof.Machine.execImMad g src s
  | .plPand g src => Sys2Proof.Machine.execPlPand g src s
  | .plPor g src => Sys2Proof.Machine.execPlPor g src s
  | .plPxor g src => Sys2Proof.Machine.execPlPxor g src s
  | .plPandn g src => Sys2Proof.Machine.execPlPandn g src s
  | .plPnot g src => Sys2Proof.Machine.execPlPnot g src s
  | .plPall g src => Sys2Proof.Machine.execPlPall g src s
  | .plPany g src => Sys2Proof.Machine.execPlPany g src s
  | .plPcnt g src => Sys2Proof.Machine.execPlPcnt g src s
  | .plPfirst g src => Sys2Proof.Machine.execPlPfirst g src s
  | .plPlt g src => Sys2Proof.Machine.execPlPlt g src s
  | .lqLdb g src => Sys2Proof.Machine.execLqLdb g src s
  | .lqLdbs g src => Sys2Proof.Machine.execLqLdbs g src s
  | .lqLdh g src => Sys2Proof.Machine.execLqLdh g src s
  | .lqLdhs g src => Sys2Proof.Machine.execLqLdhs g src s
  | .lqLdw g src => Sys2Proof.Machine.execLqLdw g src s
  | .lqLdws g src => Sys2Proof.Machine.execLqLdws g src s
  | .lqLdd g src => Sys2Proof.Machine.execLqLdd g src s
  | .lqVld g src => Sys2Proof.Machine.execLqVld g src s
  | .lqVldbf g src => Sys2Proof.Machine.execLqVldbf g src s
  | .lqVldhf g src => Sys2Proof.Machine.execLqVldhf g src s
  | .lqVldb g src => Sys2Proof.Machine.execLqVldb g src s
  | .lqGth g src => Sys2Proof.Machine.execLqGth g src s
  | .sqStb g src => Sys2Proof.Machine.execSqStb g src s
  | .sqSth g src => Sys2Proof.Machine.execSqSth g src s
  | .sqStw g src => Sys2Proof.Machine.execSqStw g src s
  | .sqStd g src => Sys2Proof.Machine.execSqStd g src s
  | .sqVst g src => Sys2Proof.Machine.execSqVst g src s
  | .sqVstbf g src => Sys2Proof.Machine.execSqVstbf g src s
  | .sqVsthf g src => Sys2Proof.Machine.execSqVsthf g src s
  | .sqSct g src => Sys2Proof.Machine.execSqSct g src s
  | .lqMark g src => Sys2Proof.Machine.execLqMark g src s
  | .agSld g src => Sys2Proof.Machine.execAgSld g src s
  | .agSst g src => Sys2Proof.Machine.execAgSst g src s
  | .agSrld g src => Sys2Proof.Machine.execAgSrld g src s
  | .agSset g src => Sys2Proof.Machine.execAgSset g src s
  | .agSadv g src => Sys2Proof.Machine.execAgSadv g src s
  | .agRfence g src => Sys2Proof.Machine.execAgRfence g src s
  | .vxVadd g src => Sys2Proof.Machine.execVxVadd g src s
  | .vxVsub g src => Sys2Proof.Machine.execVxVsub g src s
  | .vxVmul g src => Sys2Proof.Machine.execVxVmul g src s
  | .vxVmulhi g src => Sys2Proof.Machine.execVxVmulhi g src s
  | .vxVmulhn g src => Sys2Proof.Machine.execVxVmulhn g src s
  | .vxVmin g src => Sys2Proof.Machine.execVxVmin g src s
  | .vxVmax g src => Sys2Proof.Machine.execVxVmax g src s
  | .vxVminn g src => Sys2Proof.Machine.execVxVminn g src s
  | .vxVmaxn g src => Sys2Proof.Machine.execVxVmaxn g src s
  | .vxVand g src => Sys2Proof.Machine.execVxVand g src s
  | .vxVor g src => Sys2Proof.Machine.execVxVor g src s
  | .vxVxor g src => Sys2Proof.Machine.execVxVxor g src s
  | .vxVandn g src => Sys2Proof.Machine.execVxVandn g src s
  | .vxVshl g src => Sys2Proof.Machine.execVxVshl g src s
  | .vxVshr g src => Sys2Proof.Machine.execVxVshr g src s
  | .vxVsar g src => Sys2Proof.Machine.execVxVsar g src s
  | .vxVabs g src => Sys2Proof.Machine.execVxVabs g src s
  | .vxVneg g src => Sys2Proof.Machine.execVxVneg g src s
  | .vxVclz g src => Sys2Proof.Machine.execVxVclz g src s
  | .vxVpopc g src => Sys2Proof.Machine.execVxVpopc g src s
  | .vxVcmpeq g src => Sys2Proof.Machine.execVxVcmpeq g src s
  | .vxVcmpne g src => Sys2Proof.Machine.execVxVcmpne g src s
  | .vxVcmplt g src => Sys2Proof.Machine.execVxVcmplt g src s
  | .vxVcmple g src => Sys2Proof.Machine.execVxVcmple g src s
  | .vxVcmpltn g src => Sys2Proof.Machine.execVxVcmpltn g src s
  | .vxVcmplen g src => Sys2Proof.Machine.execVxVcmplen g src s
  | .vxVfadd g src => Sys2Proof.Machine.execVxVfadd g src s
  | .vxVfsub g src => Sys2Proof.Machine.execVxVfsub g src s
  | .vxVfmul g src => Sys2Proof.Machine.execVxVfmul g src s
  | .vxVfma g src => Sys2Proof.Machine.execVxVfma g src s
  | .vxVfmin g src => Sys2Proof.Machine.execVxVfmin g src s
  | .vxVfmax g src => Sys2Proof.Machine.execVxVfmax g src s
  | .vxVfabs g src => Sys2Proof.Machine.execVxVfabs g src s
  | .vxVfneg g src => Sys2Proof.Machine.execVxVfneg g src s
  | .vxVfrcp g src => Sys2Proof.Machine.execVxVfrcp g src s
  | .vxVfrsqrt g src => Sys2Proof.Machine.execVxVfrsqrt g src s
  | .vxVfsqrt g src => Sys2Proof.Machine.execVxVfsqrt g src s
  | .vxVfexp2 g src => Sys2Proof.Machine.execVxVfexp2 g src s
  | .vxVflog2 g src => Sys2Proof.Machine.execVxVflog2 g src s
  | .vxVfcmpeq g src => Sys2Proof.Machine.execVxVfcmpeq g src s
  | .vxVfcmplt g src => Sys2Proof.Machine.execVxVfcmplt g src s
  | .vxVfcmple g src => Sys2Proof.Machine.execVxVfcmple g src s
  | .vxVfcmpun g src => Sys2Proof.Machine.execVxVfcmpun g src s
  | .vxVcvtif g src => Sys2Proof.Machine.execVxVcvtif g src s
  | .vxVcvtfi g src => Sys2Proof.Machine.execVxVcvtfi g src s
  | .vxVcvtfbf g src => Sys2Proof.Machine.execVxVcvtfbf g src s
  | .vxVcvtbff g src => Sys2Proof.Machine.execVxVcvtbff g src s
  | .vxVcvtfh g src => Sys2Proof.Machine.execVxVcvtfh g src s
  | .vxVcvthf g src => Sys2Proof.Machine.execVxVcvthf g src s
  | .vxVqnt2 g src => Sys2Proof.Machine.execVxVqnt2 g src s
  | .vxVqnt4 g src => Sys2Proof.Machine.execVxVqnt4 g src s
  | .vxVqnt7 g src => Sys2Proof.Machine.execVxVqnt7 g src s
  | .vxVdeq2 g src => Sys2Proof.Machine.execVxVdeq2 g src s
  | .vxVdeq4 g src => Sys2Proof.Machine.execVxVdeq4 g src s
  | .vxVdeq7 g src => Sys2Proof.Machine.execVxVdeq7 g src s
  | .vxVperm g src => Sys2Proof.Machine.execVxVperm g src s
  | .vxVbcast g src => Sys2Proof.Machine.execVxVbcast g src s
  | .vxVslide g src => Sys2Proof.Machine.execVxVslide g src s
  | .vxVget g src => Sys2Proof.Machine.execVxVget g src s
  | .vxVredadd g src => Sys2Proof.Machine.execVxVredadd g src s
  | .vxVredmin g src => Sys2Proof.Machine.execVxVredmin g src s
  | .vxVredmax g src => Sys2Proof.Machine.execVxVredmax g src s
  | .vxVfredadd g src => Sys2Proof.Machine.execVxVfredadd g src s
  | .vxVfredmin g src => Sys2Proof.Machine.execVxVfredmin g src s
  | .vxVfredmax g src => Sys2Proof.Machine.execVxVfredmax g src s
  | .vxVscan g src => Sys2Proof.Machine.execVxVscan g src s
  | .vxVfscan g src => Sys2Proof.Machine.execVxVfscan g src s
  | .vxVtopk g src => Sys2Proof.Machine.execVxVtopk g src s
  | .vxStopk g src => Sys2Proof.Machine.execVxStopk g src s
  | .mxMma g src => Sys2Proof.Machine.execMxMma g src s
  | .mxMmas g src => Sys2Proof.Machine.execMxMmas g src s
  | .mxMmag g src => Sys2Proof.Machine.execMxMmag g src s
  | .mxMzero g src => Sys2Proof.Machine.execMxMzero g src s
  | .mxMdrain g src => Sys2Proof.Machine.execMxMdrain g src s
  | .tfTld g src => Sys2Proof.Machine.execTfTld g src s
  | .tfTbind g src => Sys2Proof.Machine.execTfTbind g src s
  | .tfTst g src => Sys2Proof.Machine.execTfTst g src s
  | .tfTrel g src => Sys2Proof.Machine.execTfTrel g src s
  | .tfTcvt g src => Sys2Proof.Machine.execTfTcvt g src s
  | .dgDq g src => Sys2Proof.Machine.execDgDq g src s
  | .dgDqr g src => Sys2Proof.Machine.execDgDqr g src s
  | .dgDqz g src => Sys2Proof.Machine.execDgDqz g src s
  | .dgDfence g src => Sys2Proof.Machine.execDgDfence g src s
  | .dgDrebuild g src => Sys2Proof.Machine.execDgDrebuild g src s
  | .dgDregion g src => Sys2Proof.Machine.execDgDregion g src s
  | .syAadd g src => Sys2Proof.Machine.execSyAadd g src s
  | .syAmin g src => Sys2Proof.Machine.execSyAmin g src s
  | .syAmax g src => Sys2Proof.Machine.execSyAmax g src s
  | .syAminn g src => Sys2Proof.Machine.execSyAminn g src s
  | .syAmaxn g src => Sys2Proof.Machine.execSyAmaxn g src s
  | .syAand g src => Sys2Proof.Machine.execSyAand g src s
  | .syAor g src => Sys2Proof.Machine.execSyAor g src s
  | .syAxor g src => Sys2Proof.Machine.execSyAxor g src s
  | .syAswp g src => Sys2Proof.Machine.execSyAswp g src s
  | .syAcas g src => Sys2Proof.Machine.execSyAcas g src s
  | .syAincb g src => Sys2Proof.Machine.execSyAincb g src s
  | .syRel g src => Sys2Proof.Machine.execSyRel g src s
  | .syAcq g src => Sys2Proof.Machine.execSyAcq g src s
  | .syBget g src => Sys2Proof.Machine.execSyBget g src s
  | .syBarv g src => Sys2Proof.Machine.execSyBarv g src s
  | .syBwait g src => Sys2Proof.Machine.execSyBwait g src s
  | .syBfree g src => Sys2Proof.Machine.execSyBfree g src s
  | .sySstep g src => Sys2Proof.Machine.execSySstep g src s
  | .sySpawn g src => Sys2Proof.Machine.execSySpawn g src s
  | .cxSend g src => Sys2Proof.Machine.execCxSend g src s
  | .cxMcst g src => Sys2Proof.Machine.execCxMcst g src s
  | .kvFork g src => Sys2Proof.Machine.execKvFork g src s
  | .kvFree g src => Sys2Proof.Machine.execKvFree g src s
  | .kvPerm g src => Sys2Proof.Machine.execKvPerm g src s
  | .kvApp g src => Sys2Proof.Machine.execKvApp g src s
  | .kvMap g src => Sys2Proof.Machine.execKvMap g src s
  | .epHist g src => Sys2Proof.Machine.execEpHist g src s
  | .epRep g src => Sys2Proof.Machine.execEpRep g src s
  | .epDone g src => Sys2Proof.Machine.execEpDone g src s
  | .epGrad g src => Sys2Proof.Machine.execEpGrad g src s
  | .xkKick g src => Sys2Proof.Machine.execXkKick g src s
  | .crRd g src => Sys2Proof.Machine.execCrRd g src s
  | .crWr g src => Sys2Proof.Machine.execCrWr g src s
  | .crTlbinv g src => Sys2Proof.Machine.execCrTlbinv g src s
  | .crCinv g src => Sys2Proof.Machine.execCrCinv g src s
  | .crTrace g src => Sys2Proof.Machine.execCrTrace g src s
  | .remwaysWrite die v => Sys2Proof.Machine.execRemwaysWrite die v s
  | .digbaseWrite v => Sys2Proof.Machine.execDigbaseWrite v s
  | .nop cond inv rest => Sys2Proof.Machine.execNop cond inv rest s
  | .br cond inv pop off => Sys2Proof.Machine.execBr cond inv pop off s
  | .brx cond inv pop reg => Sys2Proof.Machine.execBrx cond inv pop reg s
  | .call cond inv off => Sys2Proof.Machine.execCall cond inv off s
  | .ret cond inv => Sys2Proof.Machine.execRet cond inv s
  | .loop reg fin => Sys2Proof.Machine.execLoop reg fin s
  | .loopq fin => Sys2Proof.Machine.execLoopq fin s
  | .halt cond inv => Sys2Proof.Machine.execHalt cond inv s
  | .trap cond inv code => Sys2Proof.Machine.execTrap cond inv code s
  | .rft => Sys2Proof.Machine.execRft s
  | .wake cond inv off => Sys2Proof.Machine.execWake cond inv off s
  | .cede mask => Sys2Proof.Machine.execCede mask s
  | .wait ld st tiles => Sys2Proof.Machine.execWait ld st tiles s
  | .brk cond inv code => Sys2Proof.Machine.execBrk cond inv code s
  | .bundleIssue core q => Sys2Proof.Machine.execBundleIssue core q s
  | .fixedLatencyResult core q port => Sys2Proof.Machine.execFixedLatencyResult core q port s
  | .loadPerformed core q => Sys2Proof.Machine.execLoadPerformed core q s
  | .loadDataArrival core q idx => Sys2Proof.Machine.execLoadDataArrival core q idx s
  | .freezeEnd core q => Sys2Proof.Machine.execFreezeEnd core q s
  | .flagWaitEnd core q => Sys2Proof.Machine.execFlagWaitEnd core q s
  | .tlbWalk core q => Sys2Proof.Machine.execTlbWalk core q s
  | .merge core q => Sys2Proof.Machine.execMerge core q s
  | .recordRead core q => Sys2Proof.Machine.execRecordRead core q s
  | .recordCacheEmpty core q => Sys2Proof.Machine.execRecordCacheEmpty core q s
  | .tileOpComplete core tf => Sys2Proof.Machine.execTileOpComplete core tf s
  | .tbindPinned core q => Sys2Proof.Machine.execTbindPinned core q s
  | .stopkComplete core => Sys2Proof.Machine.execStopkComplete core s
  | .mdrainRow core => Sys2Proof.Machine.execMdrainRow core s
  | .releasePerform core q => Sys2Proof.Machine.execReleasePerform core q s
  | .acquirePerform core q => Sys2Proof.Machine.execAcquirePerform core q s
  | .atomicApply core q => Sys2Proof.Machine.execAtomicApply core q s
  | .remoteAtomicBatch core => Sys2Proof.Machine.execRemoteAtomicBatch core s
  | .barrierArrival core q => Sys2Proof.Machine.execBarrierArrival core q s
  | .bwaitLimitExpiry core q => Sys2Proof.Machine.execBwaitLimitExpiry core q s
  | .communicationStepBegin launch => Sys2Proof.Machine.execCommunicationStepBegin launch s
  | .computationStepBegin launch => Sys2Proof.Machine.execComputationStepBegin launch s
  | .cxSendDepart core => Sys2Proof.Machine.execCxSendDepart core s
  | .cxVectorArrive core => Sys2Proof.Machine.execCxVectorArrive core s
  | .cxMcstLand core => Sys2Proof.Machine.execCxMcstLand core s
  | .circuitQueueEnlarge launch => Sys2Proof.Machine.execCircuitQueueEnlarge launch s
  | .trapEntry core q cause slot faddr => Sys2Proof.Machine.execTrapEntry core q cause slot faddr s
  | .deferredTrap core q => Sys2Proof.Machine.execDeferredTrap core q s
  | .cancel level id => Sys2Proof.Machine.execCancel level id s
  | .handlerBudgetExpiry core q => Sys2Proof.Machine.execHandlerBudgetExpiry core q s
  | .unitComplete core q => Sys2Proof.Machine.execUnitComplete core q s
  | .phaseRecordPost phase => Sys2Proof.Machine.execPhaseRecordPost phase s
  | .startVector v => Sys2Proof.Machine.execStartVector v s
  | .childLaunchAccept core q => Sys2Proof.Machine.execChildLaunchAccept core q s
  | .schedulerSelect die => Sys2Proof.Machine.execSchedulerSelect die s
  | .tokenAccrual die => Sys2Proof.Machine.execTokenAccrual die s
  | .drainRedecision launch => Sys2Proof.Machine.execDrainRedecision launch s
  | .safePointStop core q => Sys2Proof.Machine.execSafePointStop core q s
  | .checkpointWithdraw launch => Sys2Proof.Machine.execCheckpointWithdraw launch s
  | .checkpointSave launch => Sys2Proof.Machine.execCheckpointSave launch s
  | .launchRestore launch => Sys2Proof.Machine.execLaunchRestore launch s
  | .xformRequest asid ring => Sys2Proof.Machine.execXformRequest asid ring s
  | .xformCompletion asid ring => Sys2Proof.Machine.execXformCompletion asid ring s
  | .histCountArrive => Sys2Proof.Machine.execHistCountArrive s
  | .trestleWindowEnd => Sys2Proof.Machine.execTrestleWindowEnd s
  | .trestlePublish => Sys2Proof.Machine.execTrestlePublish s
  | .epRepServe core q => Sys2Proof.Machine.execEpRepServe core q s
  | .slotRetire pair slot => Sys2Proof.Machine.execSlotRetire pair slot s
  | .epGradMerge core q => Sys2Proof.Machine.execEpGradMerge core q s
  | .drebuildPerform core q => Sys2Proof.Machine.execDrebuildPerform core q s
  | .linkRowReceive link row crcOk => Sys2Proof.Machine.execLinkRowReceive link row crcOk s
  | .linkDown link => Sys2Proof.Machine.execLinkDown link s
  | .routerDrain => Sys2Proof.Machine.execRouterDrain s
  | .throttleStepDown die => Sys2Proof.Machine.execThrottleStepDown die s
  | .throttleStepUp die => Sys2Proof.Machine.execThrottleStepUp die s
  | .thermalStop die => Sys2Proof.Machine.execThermalStop die s
  | .coldReset verified offer => Sys2Proof.Machine.execColdReset verified offer s
  | .warmReset verified offer => Sys2Proof.Machine.execWarmReset verified offer s
  | .attestationRequest nonce => Sys2Proof.Machine.execAttestationRequest nonce s
  | .feataccWrite v => Sys2Proof.Machine.execFeataccWrite v s
  | .imageLoad handle asid va bytes => Sys2Proof.Machine.execImageLoad handle asid va bytes s
  | .imageUnload handle => Sys2Proof.Machine.execImageUnload handle s
  | .hostWrite asid va acc => Sys2Proof.Machine.execHostWrite asid va acc s
  | .hostRelease asid va v => Sys2Proof.Machine.execHostRelease asid va v s
  | .hostTlbInvalidate asid all va => Sys2Proof.Machine.execHostTlbInvalidate asid all va s
  | .tcfgWrite v => Sys2Proof.Machine.execTcfgWrite v s
  | .tresWrite v => Sys2Proof.Machine.execTresWrite v s
  | .hostRegisterWrite reg v => Sys2Proof.Machine.execHostRegisterWrite reg v s
  | .scratchpadStorePerformed core q => Sys2Proof.Machine.execScratchpadStorePerformed core q s
  | .barrierEntryFree core q => Sys2Proof.Machine.execBarrierEntryFree core q s
  | .softError site correctable => Sys2Proof.Machine.execSoftError site correctable s

end Sys2Proof.Machine
end

