-- ==== Sys2Proof/Machine/Step.lean ====
section
/-! DEFINITION. One step of the machine, and an instruction laid where the next step runs it. -/
namespace Sys2Proof.Machine

/-- One step: the outside world's next action when its clock has come and every sequencer has dropped what the host
invalidated before (R204), else one of the part's own. -/
def step (s : State) : Host.Outcome State Fault Refusal :=
  match s.inputs with
  | (t, i) :: rest => if t ≤ s.clock && s.hostDrops.isEmpty then exec i { s with inputs := rest } else runMove s s.moves
  | [] => runMove s s.moves

/-- The state with the instruction of `w` as the bundle that q0 of core 0 issues next. -/
def State.withFetchWord (s : State) (_nbits w : Nat) : State := s.placeWord w

end Sys2Proof.Machine
end

