-- ==== Sys2Proof/Safety.lean ====
section
/-! DEFINITION. The words claims are stated in: what an instruction answers, a memory in canonical form,
and a run of a bundle's instructions. -/
namespace Sys2Proof.Machine

/-- Memory is in canonical form: addresses rising, no byte listed that an unlisted address reads as. -/
def State.MemOk (s : State) : Prop := mapWf 0 s.mem

/-- The instructions of a bundle, one after another, while each answers a next state. -/
def execAll : List Instr → State → Out
  | [], s => .next s
  | i :: is, s =>
    match exec i s with
    | .next t => execAll is t
    | .fault r => .fault r
    | .refused r => .refused r

end Sys2Proof.Machine
end

