-- ==== Sys2Proof/Certificates/Slice0/Obligations.lean ====
section
/-! DEFINITION. What is to be proved about the model: the spec's rules, said of its step and its meanings.

`Obligations.<Name>` is one statement; the tables before it name the instructions it covers and, for each, what
the rule says its result is. -/
namespace Sys2Proof.Claims
open Sys2Proof Sys2Proof.Machine

/-! ### Scalar units -/

/-- What R72 says of the result `r` for o and t, operation by operation. -/
def iaRules : List ((BitVec 7 → BitVec 1 → BitVec 12 → Instr) × (Word → Word → Word → Prop)) :=
  [(.iaAdd, fun o t r => r = BitVec.ofInt 64 (o.toInt + t.toInt)),
   (.iaSub, fun o t r => r = BitVec.ofInt 64 (o.toInt - t.toInt)),
   (.iaAnd, fun o t r => ∀ i < 64, r.getLsbD i = (o.getLsbD i && t.getLsbD i)),
   (.iaOr, fun o t r => ∀ i < 64, r.getLsbD i = (o.getLsbD i || t.getLsbD i)),
   (.iaXor, fun o t r => ∀ i < 64, r.getLsbD i = (o.getLsbD i != t.getLsbD i)),
   (.iaAndn, fun o t r => ∀ i < 64, r.getLsbD i = (o.getLsbD i && !t.getLsbD i)),
   (.iaShl, fun o t r => ∀ i < 64, r.getLsbD i = (decide (t.toNat ≤ i) && o.getLsbD (i - t.toNat))),
   (.iaShr, fun o t r => ∀ i < 64, r.getLsbD i = o.getLsbD (i + t.toNat)),
   (.iaSar, fun o t r => ∀ i < 64, r.getLsbD i = o.getLsbD (min (i + t.toNat) 63)),
   (.iaRotr, fun o t r => ∀ i < 64, r.getLsbD i = o.getLsbD ((i + t.toNat % 64) % 64))] ++
  [(.iaMin, fun o t r => r.toInt = min o.toInt t.toInt),
   (.iaMax, fun o t r => r.toInt = max o.toInt t.toInt),
   (.iaMinn, fun o t r => r.toNat = min o.toNat t.toNat),
   (.iaMaxn, fun o t r => r.toNat = max o.toNat t.toNat),
   (.iaCmpeq, fun o t r => r = if o = t then Word.ones else 0),
   (.iaCmpne, fun o t r => r = if o = t then 0 else Word.ones),
   (.iaCmplt, fun o t r => r = if o.toInt < t.toInt then Word.ones else 0),
   (.iaCmple, fun o t r => r = if o.toInt ≤ t.toInt then Word.ones else 0),
   (.iaCmpltn, fun o t r => r = if o.toNat < t.toNat then Word.ones else 0),
   (.iaCmplen, fun o t r => r = if o.toNat ≤ t.toNat then Word.ones else 0)] ++
  [(.iaClz, fun _ t r => r.toNat ≤ 64 ∧ (∀ i < 64, 64 - r.toNat ≤ i → t.getLsbD i = false) ∧
      (r.toNat < 64 → t.getLsbD (63 - r.toNat) = true)),
   (.iaCtz, fun _ t r => r.toNat ≤ 64 ∧ (∀ i < r.toNat, t.getLsbD i = false) ∧
      (r.toNat < 64 → t.getLsbD r.toNat = true)),
   (.iaPopc, fun _ t r => r.toNat = ((List.range 64).filter fun i => t.getLsbD i).length),
   (.iaSext, fun o t r => ∀ i < 64, r.getLsbD i = (t.toNat != 0 && o.getLsbD (min i (t.toNat - 1)))),
   (.iaZext, fun o t r => ∀ i < 64, r.getLsbD i = (decide (i < t.toNat) && o.getLsbD i))]

/-- Bits of a product or a quotient, as R73 and R74 form them from o, t and `im.p`: what goes to `im.r`. -/
def imRules : List ((BitVec 7 → BitVec 12 → Instr) × (Word → Word → Word → Word → Prop)) :=
  [(.imMul, fun o t _ r => r = BitVec.ofInt 64 (o.toInt * t.toInt)),
   (.imMulhi, fun o t _ r => r = BitVec.ofInt 64 (o.toInt * t.toInt / 2 ^ 64)),
   (.imMulhn, fun o t _ r => r.toNat = o.toNat * t.toNat / 2 ^ 64),
   (.imMad, fun o t p r => r = BitVec.ofNat 64 (o.toNat * t.toNat + p.toNat))]

/-- Quotient and remainder of o by t as i64 (R74). -/
def divSigned (o t q m : Word) : Prop :=
  if t = 0 then q = Word.ones ∧ m = o
  else if o.toInt = -2 ^ 63 ∧ t.toInt = -1 then q.toInt = -2 ^ 63 ∧ m = 0
  else q.toInt = o.toInt.tdiv t.toInt ∧ m.toInt = o.toInt.tmod t.toInt

/-- Quotient and remainder of o by t as n64 (R74). -/
def divPlain (o t q m : Word) : Prop :=
  if t = 0 then q = Word.ones ∧ m = o else q.toNat = o.toNat / t.toNat ∧ m.toNat = o.toNat % t.toNat

/-- The divides: what goes to `im.r` and to `im.h` (R73). -/
def divRules : List ((BitVec 7 → BitVec 12 → Instr) × (Word → Word → Word → Word → Prop)) :=
  [(.imDiv, fun o t r h => divSigned o t r h), (.imDivn, fun o t r h => divPlain o t r h),
   (.imRem, fun o t r h => divSigned o t h r), (.imRemn, fun o t r h => divPlain o t h r)]

/-- What R75 says of the 64 result bits. -/
def plRules : List ((BitVec 7 → BitVec 12 → Instr) × (Word → Word → Word → Prop)) :=
  [(.plPand, fun o t r => ∀ i < 64, r.getLsbD i = (o.getLsbD i && t.getLsbD i)),
   (.plPor, fun o t r => ∀ i < 64, r.getLsbD i = (o.getLsbD i || t.getLsbD i)),
   (.plPxor, fun o t r => ∀ i < 64, r.getLsbD i = (o.getLsbD i != t.getLsbD i)),
   (.plPandn, fun o t r => ∀ i < 64, r.getLsbD i = (o.getLsbD i && !t.getLsbD i)),
   (.plPnot, fun _ t r => ∀ i < 64, r.getLsbD i = !t.getLsbD i),
   (.plPall, fun o t r => r = if (List.range 64).all fun i => !o.getLsbD i || t.getLsbD i then Word.ones else 0),
   (.plPany, fun o t r => r = if (List.range 64).any fun i => o.getLsbD i && t.getLsbD i then Word.ones else 0),
   (.plPcnt, fun o t r => r.toNat = ((List.range 64).filter fun i => o.getLsbD i && t.getLsbD i).length),
   (.plPfirst, fun o t r => ∀ i < 64, r.getLsbD i =
      (o.getLsbD i && t.getLsbD i && !(List.range i).any fun j => o.getLsbD j && t.getLsbD j)),
   (.plPlt, fun o t r => ∀ i < 64, r.getLsbD i = (o.getLsbD i && decide (i < t.toNat)))]

/-- The source of a slot of class V or P is read: the issue runs, and a pop of the count queue has its guard bit set, for with
the bit clear it does not take place; every other source is read whatever the guard (R55, R78; log entry 131). -/
def SourceRead (s : State) (g : BitVec 7) (a : BitVec 12) (k : Cls) (v : Value) (s' : State) : Prop :=
  s.cur.live = true ∧ (a = 0x0AC → (s.guardMask g).getLsbD 0 = true) ∧ readSrc a k s = .val v s'

/-- The operand port of the integer ALU `u` (R71). -/
def iaPort (s : State) (u : BitVec 1) : Word := if u = 0 then s.me.ports.ia0o else s.me.ports.ia1o

/-! ### The vector unit -/

/-- R145: what the result lane `r` is for a = o[i] and b = t[i]. -/
def laneRules : List ((BitVec 7 → BitVec 12 → Instr) × (Lane → Lane → Lane → Prop)) :=
  [(.vxVadd, fun a b r => r = BitVec.ofInt 32 (a.toInt + b.toInt)),
   (.vxVsub, fun a b r => r = BitVec.ofInt 32 (a.toInt - b.toInt)),
   (.vxVmul, fun a b r => r = BitVec.ofInt 32 (a.toInt * b.toInt)),
   (.vxVmulhi, fun a b r => r = BitVec.ofInt 32 (a.toInt * b.toInt / 2 ^ 32)),
   (.vxVmulhn, fun a b r => r.toNat = a.toNat * b.toNat / 2 ^ 32),
   (.vxVmin, fun a b r => r.toInt = min a.toInt b.toInt),
   (.vxVmax, fun a b r => r.toInt = max a.toInt b.toInt),
   (.vxVminn, fun a b r => r.toNat = min a.toNat b.toNat),
   (.vxVmaxn, fun a b r => r.toNat = max a.toNat b.toNat),
   (.vxVand, fun a b r => ∀ i < 32, r.getLsbD i = (a.getLsbD i && b.getLsbD i))] ++
  [(.vxVor, fun a b r => ∀ i < 32, r.getLsbD i = (a.getLsbD i || b.getLsbD i)),
   (.vxVxor, fun a b r => ∀ i < 32, r.getLsbD i = (a.getLsbD i != b.getLsbD i)),
   (.vxVandn, fun a b r => ∀ i < 32, r.getLsbD i = (a.getLsbD i && !b.getLsbD i)),
   (.vxVshl, fun a b r => ∀ i < 32, r.getLsbD i = (decide (b.toNat ≤ i) && a.getLsbD (i - b.toNat))),
   (.vxVshr, fun a b r => ∀ i < 32, r.getLsbD i = a.getLsbD (i + b.toNat)),
   (.vxVsar, fun a b r => ∀ i < 32, r.getLsbD i = a.getLsbD (min (i + b.toNat) 31)),
   (.vxVabs, fun _ b r => r = BitVec.ofInt 32 (if b.toInt < 0 then -b.toInt else b.toInt)),
   (.vxVneg, fun _ b r => r = BitVec.ofInt 32 (-b.toInt)),
   (.vxVclz, fun _ b r => r.toNat ≤ 32 ∧ (∀ i < 32, 32 - r.toNat ≤ i → b.getLsbD i = false) ∧
      (r.toNat < 32 → b.getLsbD (31 - r.toNat) = true)),
   (.vxVpopc, fun _ b r => r.toNat = ((List.range 32).filter fun i => b.getLsbD i).length)]

/-- R146, R149: latency, whether the comparison holds, and the flags it raises. -/
def compareRules : List ((BitVec 7 → BitVec 12 → Instr) × Nat × (Lane → Lane → Bool) × (Lane → Lane → Flags)) :=
  [(.vxVcmpeq, 2, (fun a b => a == b), fun _ _ => 0),
   (.vxVcmpne, 2, (fun a b => a != b), fun _ _ => 0),
   (.vxVcmplt, 2, (fun a b => decide (a.toInt < b.toInt)), fun _ _ => 0),
   (.vxVcmple, 2, (fun a b => decide (a.toInt ≤ b.toInt)), fun _ _ => 0),
   (.vxVcmpltn, 2, (fun a b => decide (a.toNat < b.toNat)), fun _ _ => 0),
   (.vxVcmplen, 2, (fun a b => decide (a.toNat ≤ b.toNat)), fun _ _ => 0)] ++
  [(.vxVfcmpeq, 4, (fun a b => !(f32Of a).isNan && !(f32Of b).isNan && fCompare (f32Of a) (f32Of b) == .eq),
      fun a b => snanFlag [f32Of a, f32Of b]),
   (.vxVfcmplt, 4, (fun a b => !(f32Of a).isNan && !(f32Of b).isNan && fCompare (f32Of a) (f32Of b) == .lt),
      fun a b => snanFlag [f32Of a, f32Of b]),
   (.vxVfcmple, 4, (fun a b => !(f32Of a).isNan && !(f32Of b).isNan && fCompare (f32Of a) (f32Of b) != .gt),
      fun a b => snanFlag [f32Of a, f32Of b]),
   (.vxVfcmpun, 4, (fun a b => (f32Of a).isNan || (f32Of b).isNan), fun a b => snanFlag [f32Of a, f32Of b])]

/-- R147, R150, R151, R153: latency, and the lane with its flags from the mode, o[i], t[i] and `vx.p`[i]. -/
def floatRules : List ((BitVec 7 → BitVec 12 → Instr) × Nat × (RM → Lane → Lane → Lane → Lane × Flags)) :=
  [(.vxVfadd, 4, fun rm a b _ => f32Add rm a b), (.vxVfsub, 4, fun rm a b _ => f32Sub rm a b),
   (.vxVfmul, 4, fun rm a b _ => f32Mul rm a b), (.vxVfma, 4, fun rm a b c => f32Fma rm a b c),
   (.vxVfmin, 4, fun _ a b _ => f32MinMax false a b), (.vxVfmax, 4, fun _ a b _ => f32MinMax true a b),
   (.vxVfabs, 4, fun _ _ b _ => fSign (fun x => x &&& 0x7FFFFFFF) b), (.vxVfneg, 4, fun _ _ b _ => fSign negLane b)] ++
  [(.vxVfrcp, 8, fun rm _ b _ => f32Rcp rm b), (.vxVfrsqrt, 8, fun rm _ b _ => f32Rsqrt rm b),
   (.vxVfsqrt, 8, fun rm _ b _ => f32Sqrt rm b), (.vxVfexp2, 8, fun rm _ b _ => f32Exp2 rm b),
   (.vxVflog2, 8, fun rm _ b _ => f32Log2 rm b)] ++
  [(.vxVcvtif, 8, fun rm _ b _ => i32ToF32 rm b), (.vxVcvtfi, 8, fun rm _ b _ => f32ToI32 rm b),
   (.vxVcvtfbf, 8, fun rm _ b _ => f32Narrow .bf16 rm b), (.vxVcvtbff, 8, fun _ _ b _ => f32Widen .bf16 (b.toNat % 65536)),
   (.vxVcvtfh, 8, fun rm _ b _ => f32Narrow .f16 rm b), (.vxVcvthf, 8, fun _ _ b _ => f32Widen .f16 (b.toNat % 65536))]

/-- R152, R153: the HX formats of the quantisations and dequantisations. -/
def quantRules : List ((BitVec 7 → BitVec 12 → Instr) × Hx) := [(.vxVqnt2, .hx2), (.vxVqnt4, .hx4), (.vxVqnt7, .hx7)]
def dequantRules : List ((BitVec 7 → BitVec 12 → Instr) × Hx) := [(.vxVdeq2, .hx2), (.vxVdeq4, .hx4), (.vxVdeq7, .hx7)]

/-- R154: the index of the lane of o that lane i takes, from t; a negative one or one of 64 or more gives 0. -/
def permuteRules : List ((BitVec 7 → BitVec 12 → Instr) × (Vec → Nat → Int)) :=
  [(.vxVperm, fun t i => (lane t i).toNat), (.vxVbcast, fun t _ => (lane t 0).toNat),
   (.vxVslide, fun t i => i + (lane t 0).toInt)]

/-! Numbers (R125 to R133, R147 to R151): what the floating operations compute, said of exact rationals. -/

/-- The rational that a finite value is. -/
def ratOf : FVal → Rat
  | .fin n m e => (if n then -1 else 1) * (m : Rat) * (2 : Rat) ^ e
  | _ => 0

/-- R125: what a bit pattern of each format is. -/
def PatternsRead : Prop :=
  ∀ e ∈ ([(.f32, 8, 23, 127), (.f16, 5, 10, 15), (.bf16, 8, 7, 127)] : List (Fmt × Nat × Nat × Nat)), ∀ (n : Bool) (x y : Nat),
    let (f, eb, mb, bias) := e
    x < 2 ^ eb → y < 2 ^ mb →
    let v := f.read ((if n then 2 ^ (eb + mb) else 0) + x * 2 ^ mb + y)
    (x = 2 ^ eb - 1 → v = if y = 0 then .inf n else .nan (decide (y < 2 ^ (mb - 1)))) ∧
    (x ≠ 2 ^ eb - 1 → ∃ m d, v = .fin n m d ∧ (m : Rat) * (2 : Rat) ^ d =
      if x = 0 then (y : Rat) * (2 : Rat) ^ ((1 : Int) - bias - mb) else ((2 ^ mb + y : Nat) : Rat) * (2 : Rat) ^ ((x : Int) - bias - mb))

/-- R128: a positive number, given by what lies below it (`lt`) and by what it equals (`eq`), rounded to q times `u`; `neg` is
the sign of the value that it is the magnitude of. -/
def RoundedTo (rm : RM) (neg : Bool) (lt eq : Rat → Prop) (u : Rat) (q : Nat) : Prop :=
  let down := (lt (q * u) ∨ eq (q * u)) ∧ ¬ lt ((q + 1) * u) ∧ ¬ eq ((q + 1) * u)
  let up := lt ((q - 1) * u) ∧ ¬ lt (q * u)
  let near := (lt ((q - 1 / 2) * u) ∨ eq ((q - 1 / 2) * u)) ∧ ¬ lt ((q + 1 / 2) * u)
  match rm with
  | .rtz => down
  | .rup => if neg then down else up
  | .rdn => if neg then up else down
  | .rne => near ∧ (eq ((q - 1 / 2) * u) ∨ eq ((q + 1 / 2) * u) → q % 2 = 0)
  | .rna => near ∧ ¬ eq ((q + 1 / 2) * u)

/-- R132: what overflow delivers, an infinity or the largest finite value. -/
def OverflowIs (f : Fmt) (rm : RM) (neg : Bool) (v : FVal) : Prop :=
  if rm = .rne ∨ rm = .rna ∨ rm = .rup ∧ neg = false ∨ rm = .rdn ∧ neg = true then v = .inf neg
  else ∃ m e, v = .fin neg m e ∧ (m : Rat) * (2 : Rat) ^ e = ((2 ^ (f.mbits + 1) - 1 : Nat) : Rat) * (2 : Rat) ^ (f.bias - f.mbits)

/-- R128, R132: `w` is a nonzero value rounded once to the format, with its flags: to a multiple of the unit in the last place of
its binade, or of the subnormals below them; tininess is that of the value rounded as if no exponent were too small. -/
def Rounded (f : Fmt) (rm : RM) (neg : Bool) (lt eq : Rat → Prop) (w : Nat) (fl : Flags) : Prop :=
  w < 2 ^ (1 + f.ebits + f.mbits) ∧ ∃ (top : Int) (q p : Nat),
    (lt ((2 : Rat) ^ top) ∨ eq ((2 : Rat) ^ top)) ∧ ¬ lt ((2 : Rat) ^ (top + 1)) ∧ ¬ eq ((2 : Rat) ^ (top + 1)) ∧
    let u := (2 : Rat) ^ (max top (1 - f.bias) - f.mbits)
    RoundedTo rm neg lt eq u q ∧ RoundedTo rm neg lt eq ((2 : Rat) ^ (top - f.mbits)) p ∧
    if (2 : Rat) ^ (f.bias + 1) ≤ q * u then OverflowIs f rm neg (f.read w) ∧ fl = Flag.of ||| Flag.nx
    else (∃ m e, f.read w = .fin neg m e ∧ (m : Rat) * (2 : Rat) ^ e = q * u) ∧ (eq (q * u) → fl = 0) ∧
      (¬ eq (q * u) → fl = Flag.nx ||| if p * (2 : Rat) ^ (top - f.mbits) < (2 : Rat) ^ (1 - f.bias) then Flag.uf else 0)

/-- A rational rounded once to the format; a zero has the sign `zero` and raises nothing. -/
def RoundsTo (f : Fmt) (rm : RM) (z : Rat) (zero : Bool) (r : Lane × Flags) : Prop :=
  (z = 0 → r = (BitVec.ofNat 32 (if zero then f.signBit else 0), 0)) ∧
  (z ≠ 0 → Rounded f rm (decide (z < 0)) (· < if z < 0 then -z else z) (· = if z < 0 then -z else z) r.1.toNat r.2)

/-- R127: the canonical NaN, with NV where one of the operands signals. -/
def nanOf (xs : List FVal) : Lane × Flags := (0x7FC00000, if FVal.nan true ∈ xs then Flag.nv else 0)
def infLane (n : Bool) : Lane := if n then 0xFF800000 else 0x7F800000

/-- R127, R147: the sum of two values, rounded once. -/
def SumIs (rm : RM) (x y : FVal) (r : Lane × Flags) : Prop :=
  (x.isNan = true ∨ y.isNan = true → r = nanOf [x, y]) ∧
  (∀ n, x = .inf n → (y = .inf !n → r = (0x7FC00000, Flag.nv)) ∧ (y.isNan = false → y ≠ .inf !n → r = (infLane n, 0))) ∧
  (∀ n a i, x = .fin n a i → ∀ k, (y = .inf k → r = (infLane k, 0)) ∧
    ∀ b j, y = .fin k b j → RoundsTo .f32 rm (ratOf x + ratOf y) (if n = k then n else rm == .rdn) r)

/-- A product of an infinity and a zero. -/
def infTimesZero (x y : FVal) : Prop := ∃ n k e, (x = .inf n ∧ y = .fin k 0 e) ∨ (x = .fin k 0 e ∧ y = .inf n)

/-- R127, R147: the product of two values, rounded once. -/
def ProductIs (rm : RM) (x y : FVal) (r : Lane × Flags) : Prop :=
  (x.isNan = true ∨ y.isNan = true → r = nanOf [x, y]) ∧ (infTimesZero x y → r = (0x7FC00000, Flag.nv)) ∧
  (∀ n k, (x = .inf n ∧ y = .inf k ∨ ∃ m e, 0 < m ∧ (x = .inf n ∧ y = .fin k m e ∨ x = .fin n m e ∧ y = .inf k)) →
    r = (infLane (n != k), 0)) ∧
  (∀ n a i k b j, x = .fin n a i → y = .fin k b j → RoundsTo .f32 rm (ratOf x * ratOf y) (n != k) r)

/-- R127, R147: a product and a sum, rounded once. -/
def FusedIs (rm : RM) (x y z : FVal) (r : Lane × Flags) : Prop :=
  (infTimesZero x y → r = (0x7FC00000, Flag.nv)) ∧
  (¬ infTimesZero x y → (x.isNan = true ∨ y.isNan = true ∨ z.isNan = true → r = nanOf [x, y, z]) ∧
    (∀ n k, x.isNan = false → y.isNan = false → z.isNan = false → fIsNeg x = n → fIsNeg y = k →
      ((∃ i, x = .inf i ∨ y = .inf i) → (z = .inf !(n != k) → r = (0x7FC00000, Flag.nv)) ∧ (z ≠ .inf !(n != k) → r = (infLane (n != k), 0))) ∧
      ((∀ i, x ≠ .inf i ∧ y ≠ .inf i) → (∀ i, z = .inf i → r = (infLane i, 0)) ∧
        ∀ l m e, z = .fin l m e → RoundsTo .f32 rm (ratOf x * ratOf y + ratOf z) (if (n != k) = l then l else rm == .rdn) r)))

/-- The order of two values that are no NaN; −0 equals +0. -/
def Below : FVal → FVal → Prop
  | .inf a, .inf b => a = true ∧ b = false
  | .inf a, _ => a = true
  | _, .inf b => b = false
  | x, y => ratOf x < ratOf y

/-- R147 to R150: the operations of one and two operands. -/
def ArithmeticIs : Prop :=
  ∀ (rm : RM) (a b c : Lane),
    let (x, y, z) := (f32Of a, f32Of b, f32Of c)
    SumIs rm x y (f32Add rm a b) ∧ SumIs rm x y.negate (f32Sub rm a b) ∧ ProductIs rm x y (f32Mul rm a b) ∧
    FusedIs rm x y z (f32Fma rm a b c) ∧
    (x.isNan = true ∨ y.isNan = true → ∀ w, f32MinMax w a b = nanOf [x, y]) ∧
    (x.isNan = false → y.isNan = false → ∀ w, let r := f32MinMax w a b
      r.2 = 0 ∧ (r.1 = a ∨ r.1 = b) ∧ ∀ v ∈ [a, b],
        if w then ¬ Below (f32Of r.1) (f32Of v) ∧ (v = 0 → r.1 ≠ 0x80000000) else ¬ Below (f32Of v) (f32Of r.1) ∧ (v = 0x80000000 → r.1 ≠ 0)) ∧
    (y.isNan = true → ∀ f ∈ [f32Rcp, f32Rsqrt, f32Sqrt, f32Exp2, f32Log2], f rm b = nanOf [y]) ∧
    (∀ n, y = .inf n → f32Rcp rm b = (if n then 0x80000000 else 0, 0) ∧ f32Exp2 rm b = (if n then 0 else 0x7F800000, 0) ∧
      f32Rsqrt rm b = (if n then (0x7FC00000, Flag.nv) else (0, 0)) ∧
      ∀ f ∈ [f32Sqrt, f32Log2], f rm b = if n then (0x7FC00000, Flag.nv) else (0x7F800000, 0)) ∧
    (∀ n m e, y = .fin n m e →
      let v := ratOf y
      (m = 0 → f32Rcp rm b = (infLane n, Flag.dz) ∧ f32Rsqrt rm b = (infLane n, Flag.dz) ∧ f32Sqrt rm b = (b, 0) ∧
        f32Log2 rm b = (0xFF800000, Flag.dz)) ∧
      (v ≠ 0 → RoundsTo .f32 rm (1 / v) n (f32Rcp rm b)) ∧
      (v < 0 → ∀ f ∈ [f32Rsqrt, f32Sqrt, f32Log2], f rm b = (0x7FC00000, Flag.nv)) ∧
      (0 < v → (let r := f32Sqrt rm b; Rounded .f32 rm false (fun u => u < 0 ∨ u * u < v) (fun u => 0 ≤ u ∧ u * u = v) r.1.toNat r.2) ∧
        (let r := f32Rsqrt rm b; Rounded .f32 rm false (fun u => u < 0 ∨ u * u * v < 1) (fun u => 0 < u ∧ u * u * v = 1) r.1.toNat r.2)) ∧
      (∀ k : Int, v = (2 : Rat) ^ k → RoundsTo .f32 rm (k : Rat) false (f32Log2 rm b)) ∧
      (∀ k : Int, v = (k : Rat) → RoundsTo .f32 rm ((2 : Rat) ^ k) false (f32Exp2 rm b)) ∧
      (128 ≤ v → RoundsTo .f32 rm ((2 : Rat) ^ (128 : Int)) false (f32Exp2 rm b)))

/-- R133, R151: the conversions between f32 and i32, f16 and bf16. -/
def ConversionsAre : Prop :=
  ∀ (rm : RM) (b : Lane),
    let y := f32Of b
    RoundsTo .f32 rm (b.toInt : Rat) false (i32ToF32 rm b) ∧
    (y.isNan = true → f32ToI32 rm b = (0, Flag.nv)) ∧
    (∀ n, y = .inf n → f32ToI32 rm b = (if n then 0x80000000 else 0x7FFFFFFF, Flag.nv ||| Flag.sat)) ∧
    (∀ n m e, y = .fin n m e → ∃ q : Nat, let v := (m : Rat) * (2 : Rat) ^ e
      RoundedTo rm n (· < v) (· = v) 1 q ∧
      let i : Int := if n then -q else q
      if i < -2 ^ 31 then f32ToI32 rm b = (0x80000000, Flag.nv ||| Flag.sat)
      else if 2 ^ 31 - 1 < i then f32ToI32 rm b = (0x7FFFFFFF, Flag.nv ||| Flag.sat)
      else f32ToI32 rm b = (BitVec.ofInt 32 i, if (q : Rat) = v then 0 else Flag.nx)) ∧
    (∀ e ∈ ([(.bf16, 0x7FC0, 0x7F80), (.f16, 0x7E00, 0x7C00)] : List (Fmt × Lane × Lane)),
      (y.isNan = true → f32Narrow e.1 rm b = (e.2.1, (nanOf [y]).2)) ∧
      (∀ n, y = .inf n → f32Narrow e.1 rm b = (if n then e.2.2 ||| 0x8000 else e.2.2, 0)) ∧
      (∀ n m d, y = .fin n m d → RoundsTo e.1 rm (ratOf y) n (f32Narrow e.1 rm b)) ∧
      ∀ w < 65536, let x := e.1.read w
        (x.isNan = true → f32Widen e.1 w = nanOf [x]) ∧ (∀ n, x = .inf n → f32Widen e.1 w = (infLane n, 0)) ∧
        ∀ n m d, x = .fin n m d → (f32Widen e.1 w).2 = 0 ∧
          ∃ k i, f32Of (f32Widen e.1 w).1 = .fin n k i ∧ ratOf (.fin n k i) = ratOf x)

/-- R157: the order keys of f32, i32 and n32: a NaN ranks last, then −∞, the numbers in their order with −0 as +0, and +∞. -/
def KeysOrder : Prop :=
  ∀ a b : Lane,
    (okey a 0 = 0 ↔ (f32Of a).isNan = true) ∧
    ((f32Of a).isNan = false → (f32Of b).isNan = false → (okey a 0 < okey b 0 ↔ Below (f32Of a) (f32Of b))) ∧
    (okey a 1 < okey b 1 ↔ a.toInt < b.toInt) ∧ ∀ k, 2 ≤ k → (okey a k < okey b k ↔ a.toNat < b.toNat)

/-- Lanes of t that take part in a reduction or a scan (R155, R156). -/
def taking (m : Word) (t : Vec) : List Lane := ((List.range 64).filter fun i => m.getLsbD i).map (lane t)

/-- R155: what the result is of the lanes that take part. -/
def reduceRules : List ((BitVec 7 → BitVec 12 → Instr) × (List Lane → Lane → Prop)) :=
  [(.vxVredadd, fun l r => r = BitVec.ofInt 32 ((l.map BitVec.toInt).sum)),
   (.vxVredmin, fun l r => (∀ x ∈ l, r.toInt ≤ x.toInt) ∧ (r ∈ l ∨ r = 0x7FFFFFFF)),
   (.vxVredmax, fun l r => (∀ x ∈ l, x.toInt ≤ r.toInt) ∧ (r ∈ l ∨ r = 0x80000000))]

/-- R155, R137: the floating reductions, by their step and by what stands in for a lane that takes no part. -/
def treeRules : List ((BitVec 7 → BitVec 12 → Instr) × Lane × (RM → Lane → Lane → Lane × Flags)) :=
  [(.vxVfredadd, 0x80000000, fun rm a b => f32Add rm a b), (.vxVfredmin, 0x7F800000, fun _ a b => f32MinMax false a b),
   (.vxVfredmax, 0xFF800000, fun _ a b => f32MinMax true a b)]

/-- The tree of R137 over 2^n values, with the flags that its steps raise. -/
def treeFlags (f : Lane → Lane → Lane × Flags) : Nat → (Nat → Lane) → Flags
  | 0, _ => 0
  | n + 1, x => (List.range (2 ^ n)).foldl (fun a i => a ||| (f (x (2 * i)) (x (2 * i + 1))).2) 0 |||
      treeFlags f n fun i => (f (x (2 * i)) (x (2 * i + 1))).1

/-- The tree of R137 over 2^n values: each level joins neighbours. -/
def tree (f : Lane → Lane → Lane) : Nat → (Nat → Lane) → Lane
  | 0, x => x 0
  | n + 1, x => tree f n fun i => f (x (2 * i)) (x (2 * i + 1))

/-- The selected lanes of a result take it, the others hold those of o (R144). -/
def Lanes (m : Word) (o x : Vec) (p : Nat → Lane → Prop) : Prop :=
  x.length = 64 ∧ ∀ i < 64, if m.getLsbD i then p i (lane x i) else lane x i = lane o i

/-- A flag is raised exactly when some selected lane raises it (R131, R144). -/
def FlagsOf (m : Word) (f : Flags) (p : Nat → Flags) : Prop :=
  ∀ j < 7, f.getLsbD j = true ↔ ∃ i < 64, m.getLsbD i = true ∧ (p i).getLsbD j = true

/-- The issue runs, vx is within reach, and the source reads `v` for a class-V trigger. -/
def VxReads (s : State) (g : BitVec 7) (a : BitVec 12) (v : Value) (s' : State) : Prop :=
  s.mayReach (some .vx) = true ∧ SourceRead s g a .v v s'

/-! ### Loads and stores -/

/-- R104, R105: bytes read, what is made of them, and the class of the entry. -/
def loadRules : List ((BitVec 7 → BitVec 12 → Instr) × Nat × LoadKind × Cls) :=
  [(.lqLdb, 1, .scalar 1 false, .s), (.lqLdbs, 1, .scalar 1 true, .s), (.lqLdh, 2, .scalar 2 false, .s),
   (.lqLdhs, 2, .scalar 2 true, .s), (.lqLdw, 4, .scalar 4 false, .s), (.lqLdws, 4, .scalar 4 true, .s),
   (.lqLdd, 8, .scalar 8 false, .s), (.lqVld, 256, .vector .words, .v), (.lqVldbf, 128, .vector .bf16, .v),
   (.lqVldhf, 128, .vector .f16, .v), (.lqVldb, 64, .vector .bytes, .v)]

/-- R107: bytes of a scalar store. -/
def storeRules : List ((BitVec 7 → BitVec 12 → Instr) × Nat) := [(.sqStb, 1), (.sqSth, 2), (.sqStw, 4), (.sqStd, 8)]

/-- R107, R108: bytes of a lane of a vector store, and what a lane becomes, with its flags. -/
def vectorStoreRules : List ((BitVec 7 → BitVec 12 → Instr) × Nat × (RM → Lane → Lane × Flags)) :=
  [(.sqVst, 4, fun _ x => (x, 0)), (.sqVstbf, 2, f32Narrow .bf16), (.sqVsthf, 2, f32Narrow .f16)]

/-- The load queue in force has room (R96, R100). -/
def LoadRoom (s : State) : Prop := s.me.loadQueue.length < if s.me.handler then 8 else 64

/-- An entry as its trigger in state `s` makes it (R97): its order, its epoch and its landing cycle. -/
def Fresh (s : State) (e : LoadEntry) : Prop :=
  e.order = s.me.order ∧ e.epoch = s.me.epoch ∧ e.performed = false ∧ e.arrived = false ∧ e.mark = none ∧ e.silent = false ∧
    e.landing = s.me.cycle + (if s.me.ports.lqa.toNat % 4096 = 0 then 1 else s.me.ports.lqa.toNat % 4096)

/-- The virtual address of lane i of a gather or a scatter (R106, R109). -/
def laneAt (base : Word) (t : Vec) (i : Nat) : Nat := (base + (lane t i).zeroExtend 64).toNat

/-- A trap at the current slot, taken from the state `u` in which the slot's source has not been popped (R57, R66). -/
def trapHere (u : State) (c : Cause) (w : Word) : Host.Outcome State Fault Refusal :=
  .next (u.takeTrap u.cur.core u.cur.q c u.cur.slot w none false u.cur.addr).endIssue

/-- The same of a slot that read its source between `s` and `s'`. -/
def trapAt (s s' : State) (c : Cause) (w : Word) : Host.Outcome State Fault Refusal := trapHere (s.unread s') c w

/-- The same of a slot that has read no source. -/
def trapNow (s : State) (c : Cause) (w : Word) : Host.Outcome State Fault Refusal := trapAt s s c w

/-- A flag-wait at the current slot, with what the slot read put back (R57, R66, R268). -/
def waitAt (s s' : State) (h : Hold) : Host.Outcome State Fault Refusal := .next ((s.unread s').holdAt h true)

/-- A class-V trigger that goes ahead. -/
def TriggersV (s : State) (g : BitVec 7) (a : BitVec 12) (v : Value) (s' : State) : Prop := SourceRead s g a .v v s'

/-- Of the lanes below `n` that a guard selects, `i` is the first whose address fails its check: it is no multiple of 4.
None of the others misses its translation (R103, R106, R109). -/
def FirstMisaligned (s s' : State) (g : BitVec 7) (r : Right) (base : Word) (t : Vec) (n i : Nat) : Prop :=
  i < n ∧ (s.guardMask g).getLsbD i = true ∧ laneAt base t i % 4 ≠ 0 ∧
  (∀ j < n, (s.guardMask g).getLsbD j = true → laneAt base t j % 4 = 0 →
    s'.resolve s'.cur.core s'.cur.q r (laneAt base t j) ≠ .miss) ∧
  ∀ j < i, (s.guardMask g).getLsbD j = true → laneAt base t j % 4 = 0 ∧
    ∃ l, s'.resolve s'.cur.core s'.cur.q r (laneAt base t j) = .at l

/-- A class-S trigger that goes ahead: the issue runs, the guard bit is set and the source reads `v`. -/
def Triggers (s : State) (g : BitVec 7) (a : BitVec 12) (v : Value) (s' : State) : Prop :=
  s.cur.live = true ∧ (s.guardMask g).getLsbD 0 = true ∧ readSrc a .s s = .val v s'

/-! ### Moves, pops and control words -/

/-- The move goes ahead: the issue runs, the destination is a register or an operand port within reach, the guard
lets a class-S destination through, and the source reads `v` for the destination's class (R46, R55, R58). -/
def Moves (s : State) (g : BitVec 7) (d : BitVec 11) (a : BitVec 12) (v : Value) (s' : State) : Prop :=
  s.cur.live = true ∧ d.toNat < 0xB4 ∧ s.mayReach (destUnit d.toNat) = true ∧
    (destCls d.toNat = .s ∨ a = 0x0AC → (s.guardMask g).getLsbD 0 = true) ∧ readSrc a (destCls d.toNat) s = .val v s'

/-- The mask of a move: the guard's for classes V and P, the whole of a class-S destination (R55). -/
def moveMask (s : State) (g : BitVec 7) (d : BitVec 11) : Word := if destCls d.toNat = .s then Word.ones else s.guardMask g

/-- The condition of a control word, inverted as it says (R85). -/
def conditionOf (s : State) (cond : BitVec 6) (inv : BitVec 1) : Word := if inv = 1 then ~~~(s.pred cond.toNat) else s.pred cond.toNat

/-- The state after the decision has gone to the trace, which a condition of p0 not inverted never does (R276). -/
def decided (s : State) (cond : BitVec 6) (inv : BitVec 1) (b : Bool) : State :=
  if cond = 0 ∧ inv = 0 then s else s.traceDecision s.cur.core s.cur.q b

/-- The operand ports of class S by address, and of class V (R58). -/
def scalarPorts : List (Nat × (State → Word)) :=
  [(0xA0, (·.me.ports.ia0o)), (0xA1, (·.me.ports.ia1o)), (0xA2, (·.me.ports.imo)), (0xA3, (·.me.ports.imp)),
   (0xA7, (·.myCore.mxo)), (0xA8, (·.myCore.tfo)), (0xA9, (·.me.ports.lqa)), (0xAA, (·.me.ports.lqb)), (0xAB, (·.me.ports.sqo)),
   (0xAC, (·.me.ports.ago)), (0xAE, (·.me.ports.syo)), (0xAF, (·.me.ports.syp)), (0xB0, (·.myCore.cxo)),
   (0xB1, (·.myCore.kvo)), (0xB2, (·.myCore.epo)), (0xB3, (·.me.ports.cro))]
def vecPorts : List (Nat × (State → Vec)) := [(0xA5, (·.myCore.vxo)), (0xA6, (·.myCore.vxp)), (0xAD, (·.me.ports.dgo))]

/-- The result ports by address (R56). -/
def sourcePorts : List (Nat × (State → Port)) :=
  [(0xA0, (·.me.results.ia0r)), (0xA1, (·.me.results.ia1r)), (0xA2, (·.me.results.imr)), (0xA3, (·.me.results.imh)),
   (0xA4, (·.me.results.plr)), (0xA5, (·.myCore.vxr)), (0xA6, (·.myCore.vxm)), (0xA7, (·.myCore.vxs)), (0xAB, (·.me.results.crr))]

/-- R69: `r` is the current result of a port in cycle `k`: of the results that are visible, in the order of their triggers,
it is the last with the latest visibility cycle. -/
def CurrentIn (p : Port) (k : Nat) (r : Res) : Prop :=
  ∃ a b, p.cur :: p.queue.filter (fun x => decide (x.vis ≤ k)) = a ++ r :: b ∧ (∀ x ∈ a, x.vis ≤ r.vis) ∧ ∀ x ∈ b, x.vis < r.vis

/-- R69: cycle `k` lies in the window of an operation that was triggered after the one whose result is `r`. -/
def WindowOpen (p : Port) (k : Nat) (r : Res) : Prop := ∃ x ∈ p.queue, r.trig < x.trig ∧ x.trig < k ∧ k < x.vis

/-- R47, R50, R56, R57, R69, R271: what a source delivers, for a destination of class `k`. -/
def SourceDelivers (s : State) (k : Cls) : Prop :=
  let reads := fun (a : Nat) (v : Value) => readSrc (BitVec.ofNat 12 a) k s = .val v s
  let ext := s.cur.ext.getD s.cur.slot none
  (∀ n : Int, -1024 ≤ n → n < 1024 → ext = none → readSrc (1#1 ++ BitVec.ofInt 11 n) k s = .val (.s (BitVec.ofInt 64 n)) s) ∧
  (∀ n : Int, -262144 ≤ n → n < 262144 → ext = some (BitVec.ofInt 8 (n / 2048)) →
    readSrc (1#1 ++ BitVec.ofInt 11 n) k s = .val (.s (BitVec.ofInt 64 n)) s) ∧
  (∀ n < 64, reads n (.s (s.me.sreg n))) ∧ (∀ n < 32, reads (0x40 + n) (.v (s.me.vreg n))) ∧
  (∀ n < 64, reads (0x60 + n) (.p (s.pred n))) ∧ s.pred 0 = Word.ones ∧
  (∀ e ∈ sourcePorts, s.mayReach (srcUnit e.1) = true → let p := e.2 s
    (s.me.handler = false → ∀ r, CurrentIn p s.me.cycle r →
      (¬ WindowOpen p s.me.cycle r → reads e.1 r.val) ∧
      (WindowOpen p s.me.cycle r → ∃ v t, readSrc (BitVec.ofNat 12 e.1) k s = .val v t ∧ v.cls = r.val.cls ∧ t = { s with free := t.free })) ∧
    (s.me.handler = true → if ∀ x ∈ p.queue, x.vis ≤ s.me.now then ∀ r, CurrentIn p s.me.now r → reads e.1 r.val
      else readSrc (BitVec.ofNat 12 e.1) k s = .wait (.port p.queue.length) s)) ∧
  (∀ d i v, s.mayReach (some .mx) = true → s.myCore.drain = some d → s.me.cycle = d.cycle + 2 + i → d.rows[i]? = some v → reads 0xA8 (.v v)) ∧
  reads 0xB3 (.s (BitVec.ofNat 64 (2 * s.cur.core + s.cur.q))) ∧
  reads 0xB4 (.v ((List.range 64).map fun i => BitVec.ofNat 32 i)) ∧
  reads 0xB5 (match k with
    | .s => .s 0
    | .v => .v (List.replicate 64 0)
    | .p => .p 0) ∧
  reads 0xB6 (match k with
    | .s => .s Word.ones
    | .v => .v (List.replicate 64 0xFFFFFFFF)
    | .p => .p Word.ones) ∧
  reads 0xB7 (.s (BitVec.ofNat 64 s.me.cycle)) ∧
  (∀ a, 0xB8 ≤ a → a < 0x800 → readSrc (BitVec.ofNat 12 a) k s = .trap .reservedPort 0 none s) ∧
  ∀ a ∈ [0xA5, 0xA6, 0xA7, 0xA8, 0xAA], s.mayReach (srcUnit a) = false → readSrc (BitVec.ofNat 12 a) k s = .trap .unitNotOwned 0 none s

/-- R53: what a move makes of a value for a destination of another class. -/
def ClassesConvert : Prop :=
  (∀ w : Word, (Value.s w).toS = w ∧ (Value.s w).toP = w ∧ (Value.p w).toS = w ∧ (Value.p w).toP = w ∧
    (Value.s w).toV = List.replicate 64 (w.extractLsb' 0 32) ∧
    (Value.p w).toV = (List.range 64).map fun i => if w.getLsbD i then 0xFFFFFFFF else 0) ∧
  ∀ x : Vec, (Value.v x).toV = x ∧ (Value.v x).toS.extractLsb' 0 32 = lane x 0 ∧ (Value.v x).toS.extractLsb' 32 32 = lane x 1 ∧
    ∀ i < 64, (Value.v x).toP.getLsbD i = (lane x i != 0)

/-! Rows of streams and tiles (R103, R120 to R122, R289, R290). -/

/-- A table word of `n` bytes, as the sequencer of the issue reads it. -/
def tabWord (s : State) (va n w : Nat) : Prop := s.kvGet s.cur.core s.cur.q va n = .ok w

/-- The fields of a fault record of a kv operation (R289). -/
def faultOf (seq reason pos frame page : Nat) : KvFault :=
  { seq := seq, reason := reason, pos := pos, frame := frame, page := page, fbase := 0, rstride := 0 }

/-- The bundle freezes for the translation of an address that misses in the TLB (R203). -/
def kvFreezes (s s' : State) (va : Nat) : Host.Outcome State Fault Refusal := .next (s.holdAt (.walk s'.me.asid (va / 65536 * 65536)) false)

/-- A trap at the slot that has a fault record, from the state `u`; where the record's address misses in the TLB the bundle
freezes for it first (R203, R289). -/
def kvTraps (s u : State) (k : Cause) (faults : Nat) (r : KvFault) : Host.Outcome State Fault Refusal :=
  match u.recordMiss u.cur.core u.cur.q faults with
  | some va => kvFreezes s u va
  | none => trapAt s (u.kvRecord u.cur.core u.cur.q faults r) k 0

/-- The runs of bytes of the row of stream n that begins at `row`, cut at lines and pages (R103, R114, R120). -/
def streamPieces (s' : State) (n : Nat) (row : Word) : List (Nat × Nat) :=
  let d := s'.me.stream n
  ((rowRuns d.fmt.toNat d.cols.toNat row d.sstride).map cutRun).flatten

/-- Every byte of the row is where `place` says, and may be read or written there. -/
def RowReady (s' : State) (n : Nat) (r : Right) (row : Word) (place : Nat → Loc) : Prop :=
  ∀ p ∈ streamPieces s' n row, resolveStream s' (s'.me.stream n) r p.1 = .at (place p.1)

/-- A row read with a stamp check lies in one line, and that line in a digest region (R103, R120). -/
def RowStamped (s' : State) (n : Nat) (row : Word) (place : Nat → Loc) : Prop :=
  s'.me.ports.lqb.getLsbD 16 = true → ((streamPieces s' n row).map fun p => p.1 / 256).eraseDups.length ≤ 1 ∧
    ∀ p ∈ streamPieces s' n row, s'.inRegion (place p.1) = true

/-- An entry's stamp check: the stamp in `lq.b` bits 15–0 and the predicate in bits 22–17, where bit 16 asks for it (R111). -/
def ChecksStamp (s' : State) (e : LoadEntry) : Prop :=
  if s'.me.ports.lqb.getLsbD 16 then
    ∃ k, e.check = some k ∧ k.stamp.toNat = s'.me.ports.lqb.toNat % 65536 ∧ k.pred.toNat = s'.me.ports.lqb.toNat / 131072 % 64 ∧
      e.fence = s'.me.dfence
  else e.check = none

/-- Stream n after an access to a row in the frame `fr`: POS advances where `adv` says so, and the frame is kept while POS stays
in its page (R121, R122). -/
def RowLeft (s' t : State) (n : Nat) (fr : Option (Nat × Nat)) (adv : Bool) : Prop :=
  (t.me.stream n).pos = (s'.me.stream n).pos + (if adv then 1 else 0) ∧
    (t.me.stream n).frame = fr.filter fun f => f.1 == (t.me.stream n).pos.toNat / 16

/-- `ag.sld` enters the row into the load queue. -/
def RowLoads (o : Host.Outcome State Fault Refusal) (s' : State) (n : Nat) (row : Word) (fr : Option (Nat × Nat)) (adv : Bool)
    (place : Nat → Loc) : Prop :=
  ∃ (t : State) (x : LoadEntry), o = .next t.slotDone ∧ Fresh s' x ∧ x.cls = .v ∧
    x.kind = .row (s'.me.stream n).fmt.toNat (s'.me.stream n).cols.toNat ∧
    x.parts = partsOf ((streamPieces s' n row).map fun p => (place p.1, p.2)) ∧ ChecksStamp s' x ∧
    t.me.loadQueue = s'.me.loadQueue ++ [x] ∧ RowLeft s' t n fr adv

/-- `ag.sst` puts the row's address into `sq.o`. -/
def RowPuts (o : Host.Outcome State Fault Refusal) (s' : State) (n : Nat) (row : Word) (fr : Option (Nat × Nat)) (adv : Bool) : Prop :=
  ∃ t : State, o = .next t.slotDone ∧ t.me.ports.sqo = row ∧ RowLeft s' t n fr adv ∧ t.mem = s'.mem

/-- The fields of a stream by their codes, POS apart (R118). -/
def streamFields (w : Word) : List (Nat × (Stream → Stream)) :=
  [(0, fun d => { d with base := w.truncate 56 }), (1, fun d => { d with fmt := w.truncate 8 }),
   (2, fun d => { d with mode := w.truncate 8 }), (3, fun d => { d with rows := w.truncate 16 }),
   (4, fun d => { d with cols := w.truncate 8 }), (5, fun d => { d with rstride := w }),
   (6, fun d => { d with sstride := w }), (7, fun d => { d with kvseq := w.truncate 16 })]

/-- `d` is the stream `o` with POS `p`: its description stays, and so does its frame while POS stays in the page of 16
rows that it belongs to (R121). -/
def MovedTo (o d : Stream) (p : BitVec 32) : Prop :=
  d = { o with pos := p, page := d.page, frame := o.frame.filter fun f => f.1 == p.toNat / 16 } ∧ (d.page = o.page ∨ d.page = none)

/-- R16, R79, R129, R190, R233, R265, R266, R275: what each control register reads as.  The loop stack holds six entries at
most (R87). -/
def CregReads (s : State) (c q : Nat) : Prop :=
  let k := s.core c
  let x := k.seq q
  let r := fun a => s.creg c q a
  (let sqs := r 0x000
   x.loops.length ≤ 6 → sqs.extractLsb' 0 6 = x.cause.code ∧ sqs.extractLsb' 6 2 = x.rslot ∧ sqs.getLsbD 8 = x.handler ∧
     sqs.getLsbD 9 = x.step ∧ (sqs.extractLsb' 10 3).toNat = x.loops.length ∧ sqs.getLsbD 13 = x.defer ∧ sqs.getLsbD 14 = x.clrHead ∧
     (∀ b < 7, sqs.getLsbD (15 + b) = k.holds q b) ∧ sqs.extractLsb' 22 2 = 0 ∧ sqs.extractLsb' 24 40 = x.fpage) ∧
  r 0x001 = x.xpc ∧ r 0x002 = x.fpctl ∧ r 0x004 = x.trapvec ∧ r 0x020 = x.remtime ∧ r 0x030 = x.tracectl ∧
  (∀ b < 7, (k.claim.getLsbD b = true → (r 0x003).getLsbD b = k.hold.getLsbD b) ∧ (r 0x003).getLsbD (8 + b) = k.claim.getLsbD b) ∧
  (∀ b < 64, b = 7 ∨ 15 ≤ b → (r 0x003).getLsbD b = false) ∧
  (∀ b < 32, ((r 0x010).extractLsb' (2 * b) 2).toNat = if b < k.scratchBanks then 1 else if 32 ≤ b + k.operandBanks then 2 else 0) ∧
  r 0x040 = BitVec.ofNat 64 (x.asid % 65536) ∧ r 0x100 = BitVec.ofNat 64 (s.die (dieOf c)).remways ∧ r 0x101 = s.digbase

/-- R79, R80, R129, R265, R266, R275: what a write of a control register leaves, made at the end of its cycle: the writable
fields, SQS and XPC in handler mode alone, take the new bits, and a register that is only read stays. -/
def CregWrites (s : State) (c q : Nat) (v : Word) : Prop :=
  let x := s.seq c q
  let t := fun a => s.applyOne c q (.creg a v)
  let y := fun a => (t a).seq c q
  let takes := fun (w : Word) (f : Nat → Bool) => ∀ b < 64, w.getLsbD b = (f b && v.getLsbD b)
  (x.handler = false → t 0x000 = s ∧ t 0x001 = s) ∧
  (x.handler = true →
    y 0x000 = { x with cause := Cause.ofCode (v.extractLsb' 0 6), rslot := v.extractLsb' 6 2, step := v.getLsbD 9, clrHead := v.getLsbD 14 } ∧
    y 0x001 = { x with xpc := (y 0x001).xpc } ∧ takes (y 0x001).xpc fun b => decide (4 ≤ b ∧ b ≤ 55)) ∧
  (y 0x002 = { x with fpctl := (y 0x002).fpctl } ∧ ∀ b < 64, (y 0x002).fpctl.getLsbD b =
    if (b < 3 ∧ v.toNat % 8 < 5) ∨ (4 ≤ b ∧ b ≤ 10) then v.getLsbD b else x.fpctl.getLsbD b) ∧
  (y 0x004 = { x with trapvec := (y 0x004).trapvec } ∧ takes (y 0x004).trapvec fun b => decide (4 ≤ b ∧ b ≤ 55)) ∧
  (y 0x020 = { x with remtime := (y 0x020).remtime } ∧ takes (y 0x020).remtime fun b => decide (b < 32)) ∧
  (takes (y 0x030).tracectl fun b => decide (b = 0 ∨ b = 2 ∨ (8 ≤ b ∧ b ≤ 55)) || (b == 1 && s.featAcc.getLsbD 5)) ∧
  (∀ a ∈ [0x003, 0x010, 0x040], t a = s) ∧
  exec (.remwaysWrite (dieOf c) v) s = .next (t 0x100) ∧ exec (.digbaseWrite v) s = .next (t 0x101)

/-- The control words that a condition decides (R84). -/
def conditional : List (BitVec 6 → BitVec 1 → BitVec 18 → Instr) :=
  [fun c i x => .br c i (x.extractLsb' 17 1) (x.extractLsb' 0 17), fun c i x => .brx c i (x.extractLsb' 17 1) (x.extractLsb' 0 6),
   fun c i x => .call c i x, fun c i _ => .ret c i, fun c i _ => .halt c i, fun c i x => .trap c i (x.extractLsb' 0 16),
   fun c i x => .wake c i x, fun c i x => .brk c i (x.extractLsb' 0 16)]

/-- The leased units that a sequencer holds, by LEASE bit (R13, R16). -/
def heldBits (k : Core) (q : Nat) : BitVec 7 :=
  BitVec.ofNat 7 (((List.range 7).filter fun b => k.holds q b).map (2 ^ ·)).sum

/-- The result ports of vx. -/
def vxPorts : List (Core → Port) := [(·.vxr), (·.vxm), (·.vxs)]

/-- The units of a mask go from sequencer `q` to the other at the end of the cycle: their HOLD bits change; of the result
that is current and those in flight, which become visible at once, the newest by its trigger stays; and the drain buffer
has no row left (R19). -/
def HandedOver (k u : Core) (q : Nat) (m : BitVec 7) : Prop :=
  (∀ b < 7, u.nextHold.getLsbD b = (if m.getLsbD b then decide (q = 0) else k.nextHold.getLsbD b) ∧
    u.nextHeld.getLsbD b = (m.getLsbD b || k.nextHeld.getLsbD b)) ∧
  (∀ p ∈ vxPorts, if m.getLsbD 0 then
      let n := (k.seq q).cycle
      let now := (p k).current n :: (p k).queue.filter (fun r => decide (n < r.vis))
      (p u).queue = [] ∧ ∃ r ∈ now, (p u).cur.val = r.val ∧ ∀ x ∈ now, x.trig ≤ r.trig
    else p u = p k) ∧
  u.drain = if m.getLsbD 1 then none else k.drain

/-- A sequencer as `wake` or a start vector starts it (R32). -/
def FreshUnit (y : Seq) (l : Launch) (pos : Nat) (entry : Word) : Prop :=
  y.run = .running ∧ y.pc = entry ∧ y.entry = entry ∧ y.slot = 0 ∧ y.asid = l.asid ∧
  y.sreg 0 = l.vec.arg ∧ y.sreg 1 = BitVec.ofNat 64 pos ∧ y.sreg 2 = BitVec.ofNat 64 l.hdr.cores ∧
  (∀ n, 3 ≤ n → y.sreg n = 0) ∧ (∀ n, y.vreg n = zeroVec) ∧ (∀ n, 1 ≤ n → y.preg n = 0) ∧
  (∀ n, y.stream n = Stream.init) ∧ y.loops = [] ∧ y.countQueue = [] ∧ y.loads = [] ∧ y.stores = [] ∧
  y.ports = OpPorts.init ∧ y.results = ResPorts.init ∧ y.fpctl = 0 ∧ y.remtime = BitVec.ofNat 64 l.hdr.remtime ∧
  y.arrival = none ∧ y.lastVersion = none ∧ y.cycle = 1 ∧ y.handler = false ∧ y.hold = none

/-! ### Tiles and the matrix engine -/

/-- A class-S trigger of a leased unit that goes ahead: the unit is within reach too (R14). -/
def Leased (u : UnitId) (s : State) (g : BitVec 7) (a : BitVec 12) (v : Value) (s' : State) : Prop :=
  s.mayReach (some u) = true ∧ Triggers s g a v s'

/-- Tiles an operation of mx or tf may write and read now: tags set, no claim on what it writes, and fewer than
`room` operations in its unit (R167). -/
def TilesFree (k : Core) (w r : List Nat) (ops : List TileOp) (room : Nat) : Prop :=
  (∀ t ∈ r, k.tileReady t = true) ∧ (∀ t ∈ w, k.tileReady t = true ∧ k.claimsOf t = 0) ∧ ops.length < room

/-- R179: operands `a` to `a`+n−1 and `b` to `b`+n−1 of a product of format `fmt`: tiles that hold something of that
format, HX ones in their direction, of one M, one N, and each COLS of A `1/scale` of the ROWS of its B. -/
def ProductOperands (k : Core) (a b n fmt scale : Nat) : Prop :=
  a + n ≤ 16 ∧ b + n ≤ 16 ∧ ∀ i < n,
    (k.tile (a + i)).state ≠ .empty ∧ (k.tile (b + i)).state ≠ .empty ∧ (k.tile (a + i)).fmt = fmt ∧ (k.tile (b + i)).fmt = fmt ∧
    ((hxOf fmt).isSome = true → (k.tile (a + i)).bdir = false ∧ (k.tile (b + i)).bdir = true) ∧
    (k.tile (a + i)).rows = (k.tile a).rows ∧ (k.tile (b + i)).cols = (k.tile b).cols ∧
    (k.tile (a + i)).cols * scale = (k.tile (b + i)).rows

/-- R165, R179: tile `d` takes an m × n product of format `out`: it is no operand and not bound, with ACC it is
resident in that shape and format, and the pool has the granules. -/
def ProductOutput (k : Core) (d m n out : Nat) (acc : Bool) (reads : List Nat) : Prop :=
  d ∉ reads ∧ (k.tile d).state ≠ .bound ∧
    (acc = true → (k.tile d).state = .resident ∧ (k.tile d).rows = m ∧ (k.tile d).cols = n ∧ (k.tile d).fmt = out) ∧
    k.granulesBut d + granulesOf out m n ≤ 40 * k.operandBanks

/-- An operation has started on mx: it is the last of its unit's list, its tile's tag is clear and its operands are
claimed (R165, R167). -/
def MxStarted (s' t : State) (op : TileOp) (d gr : Nat) (reads : List Nat) : Prop :=
  t.myCore.mxOps = s'.myCore.mxOps ++ [op] ∧ op.writes = [d] ∧ op.reads = reads ∧ op.q = s'.cur.q ∧
    t.myCore.tileReady d = false ∧ (t.myCore.tile d).granules = gr ∧
    ∀ x, t.myCore.claimsOf x = s'.myCore.claimsOf x + reads.count x

/-! Rows of tiles (R121, R122, R168, R175, R289). -/

/-- POS of source row r of a tile transfer. -/
def rowPos (d : Shape) (r : Nat) : Nat := (d.pos + r) % 2 ^ 32

/-- The addresses of a tile's rows in memory, and for mode 1 the table and the frame that each row lies in. -/
def TileRows (s' : State) (d : Shape) (rows : List Word) (fs : List (Option (KvDesc × Nat))) : Prop :=
  rows.length = d.rows ∧ fs.length = d.rows ∧ ∀ r < d.rows,
    let pos := rowPos d r
    if d.mode = 0 then rows[r]? = some (BitVec.ofNat 64 d.base + BitVec.ofNat 64 pos * d.rstride) ∧ fs[r]? = some none
    else ∃ (k : KvDesc) (e : KvSeq) (f : Nat), s'.kvDesc s'.cur.core s'.cur.q = .ok (some k) ∧ d.kvseq < k.nseq ∧
      s'.kvSeq s'.cur.core s'.cur.q k d.kvseq = .ok e ∧ pos < e.length ∧ tabWord s' (e.plist + 4 * (pos / 16)) 4 f ∧
      rows[r]? = some (BitVec.ofNat 64 d.base + BitVec.ofNat 64 (f * 16) * d.rstride + BitVec.ofNat 64 (pos % 16) * d.rstride) ∧
      fs[r]? = some (some (k, f))

/-- The fault record of row r of a tile transfer. -/
def rowFault (d : Shape) (r reason frame page : Nat) : KvFault :=
  { faultOf d.kvseq reason (rowPos d r) frame page with fbase := d.base, rstride := d.rstride.toNat }

/-- `o` is the trap KV_BOUNDS of the first row of a mode-1 transfer that has no place: of the first one where there is no table
or no such sequence in it, else of the first token beyond LENGTH. -/
def TileStops (s s' : State) (d : Shape) (o : Host.Outcome State Fault Refusal) : Prop :=
  d.mode ≠ 0 →
    (s'.kvDesc s'.cur.core s'.cur.q = .ok none → o = kvTraps s s' .kvBounds 0 (rowFault d 0 5 noFrame 0)) ∧
    ∀ k, s'.kvDesc s'.cur.core s'.cur.q = .ok (some k) →
      (k.nseq ≤ d.kvseq → o = kvTraps s s' .kvBounds k.faults (rowFault d 0 5 noFrame 0)) ∧
      ∀ e r, d.kvseq < k.nseq → s'.kvSeq s'.cur.core s'.cur.q k d.kvseq = .ok e → r < d.rows → e.length ≤ rowPos d r →
        (∀ i < r, rowPos d i < e.length ∧ ∃ f, tabWord s' (e.plist + 4 * (rowPos d i / 16)) 4 f) →
        o = kvTraps s s' .kvBounds k.faults (rowFault d r 1 noFrame (rowPos d r / 16))

/-- The frames of the first r rows may be written: neither read-only nor counted more than once. -/
def FramesFree (s' : State) (fs : List (Option (KvDesc × Nat))) (r : Nat) : Prop :=
  ∀ i < r, ∀ k f, fs[i]? = some (some (k, f)) → ∃ w, tabWord s' (k.frtab + 8 * f) 8 w ∧ w / 65536 % 2 = 0 ∧ w % 65536 ≤ 1

/-- `o` is the trap of a store whose row r lies in a frame that is read-only or shared. -/
def FrameStops (s s' : State) (d : Shape) (rows : List Word) (fs : List (Option (KvDesc × Nat))) (r : Nat)
    (o : Host.Outcome State Fault Refusal) : Prop :=
  ∀ k f w, fs[r]? = some (some (k, f)) → tabWord s' (k.frtab + 8 * f) 8 w →
    (w / 65536 % 2 = 1 → o = trapAt s s' .protection (rows.getD r 0)) ∧
    (w / 65536 % 2 = 0 → 1 < w % 65536 → o = kvTraps s s' .kvCow k.faults (rowFault d r 0 f (rowPos d r / 16)))

/-! ### Digests, atomics, barriers, circuits, tables and experts -/

/-- A load-class operation that places a marker before and after it has entered the load queue (R96, R102). -/
def MarkedLoad (s u : State) (e : LoadEntry) : Prop :=
  u.me.loadQueue = s.me.loadQueue ++ [e] ∧ e.order = s.me.order ∧ e.epoch = s.me.epoch + 1 ∧ u.me.epoch = s.me.epoch + 2 ∧
    e.performed = false ∧ e.arrived = false ∧ e.mark = none ∧ e.silent = false ∧
    e.landing = s.me.cycle + (if s.me.ports.lqa.toNat % 4096 = 0 then 1 else s.me.ports.lqa.toNat % 4096) ∧ u.mem = s.mem

/-- A store-class operation that places a marker before and after it has entered the store queue. -/
def MarkedStore (s u : State) (e : StoreEntry) : Prop :=
  u.me.stores = s.me.stores ++ [e] ∧ e.epoch = s.me.epoch + 1 ∧ u.me.epoch = s.me.epoch + 2 ∧ u.mem = s.mem

/-- The scope that `sy.p` asks for; 6 and 7 are taken as 5 (R213). -/
def scopeAsked (s : State) : Nat := min (s.me.ports.syp.toNat % 8) 5

/-- The signature that a release of a scope publishes, and RSIG after it (R217, R225). -/
def carried (scope : Nat) (g : BitVec 1024) : BitVec 1024 := if 2 ≤ scope then g else 0
def kept (scope : Nat) (g : BitVec 1024) : BitVec 1024 := if 2 ≤ scope then 0 else g

def atomicRules : List ((BitVec 7 → BitVec 12 → Instr) × AtomicOp) :=
  [(.syAadd, .aadd), (.syAmin, .amin), (.syAmax, .amax), (.syAminn, .aminn), (.syAmaxn, .amaxn), (.syAand, .aand),
   (.syAor, .aor), (.syAxor, .axor), (.syAswp, .aswp), (.syAcas, .acas), (.syAincb, .aincb)]

/-- The lines of a run of `n` lines from that of address `t`: line j stands at `place j` in memory, and all lie in
the region `key` (R245). -/
def RunInRegion (s : State) (t : Word) (n : Nat) (place : Nat → Nat) (key : Nat) (r : Region) : Prop :=
  1 ≤ n ∧ n ≤ 64 ∧ s.digbase.getLsbD 0 = true ∧ s.region key = some r ∧ ∀ j < n,
    let va := t.toNat / 256 * 256 + 256 * j
    inAperture va = false ∧ s.resolve s.cur.core s.cur.q .load va = .at (.mem (place j)) ∧
      ∃ c, mapGet none s.captured (place j / 65536) = some c ∧ c.region = key

/-- The record parts of the lines of a run, under the registration that the query has found (R245). -/
def runParts (r : Region) (n : Nat) (place : Nat → Nat) : List Part :=
  (List.range n).map fun j => .record (place j / 256 * 256) r.serial

/-- Byte `a` after the bytes `bs` have been written from `pa` on, `old` before (R107). -/
def afterWrite (pa : Nat) (bs : List (Option Byte)) (old : Nat → Byte) (a : Nat) : Byte :=
  if pa ≤ a then (bs.getD (a - pa) none).getD (old a) else old a

/-! The key-cache tables (R279 to R287), as the sequencer of the issue reads them. -/

/-- The frames of the pages of a sequence. -/
def Pages (s : State) (e : KvSeq) (fs : List Nat) : Prop :=
  fs.length = (e.length + 15) / 16 ∧ ∀ p < fs.length, tabWord s (e.plist + 4 * p) 4 (fs.getD p 0)

/-- COUNT of the frames of a list. -/
def Counts (s : State) (d : KvDesc) (fs : List Nat) (cnt : Nat → Nat) : Prop :=
  ∀ f ∈ fs, ∃ w, tabWord s (d.frtab + 8 * f) 8 w ∧ w % 65536 = cnt f

/-- The frame at place `p` of a list would be counted beyond 65,535, or below 0, as often as it stands there. -/
def tooOften (cnt : Nat → Nat) (fs : List Nat) (p : Nat) : Prop :=
  p < fs.length ∧ 65535 < cnt (fs.getD p 0) + (fs.take (p + 1)).count (fs.getD p 0)
def tooSeldom (cnt : Nat → Nat) (fs : List Nat) (p : Nat) : Prop :=
  p < fs.length ∧ cnt (fs.getD p 0) < (fs.take (p + 1)).count (fs.getD p 0)

/-- KV_BOUNDS at the slot, with its fault record, and with no table changed (R283, R289). -/
def kvStopped (s s' : State) (faults : Nat) (r : KvFault) : Host.Outcome State Fault Refusal := kvTraps s s' .kvBounds faults r

/-- A table word as an update reads it: at a place found when the operation's checks were made. -/
def wordFrom (at_ : KvWhere) (c : Nat) (s : State) (va n : Nat) : Except KvFail Nat := (at_ .load va n).bind (s.kvGetAt c va n)

/-- The slot has written what these updates write, each of them to a place that takes it, and is done. -/
def writesTables (as : List KvAct) (s' : State) (o : Host.Outcome State Fault Refusal) : Prop :=
  ∀ u, runActs s'.cur.core s'.cur.q as s' = .ok u → o = .next u.slotDone

/-- A kv operation that is about to be performed: its wait is over, and nothing of it is read or written yet. -/
def KvDue (s' : State) : Prop := s'.me.done = true ∧ s'.me.kvLeft = none ∧ s'.me.kvRead = []

/-! ### The gates of a trigger (R14, R55, R60, R64) -/

/-- The class-S triggers of the sequencer's own units that take no entry of the store queue. -/
def ownTriggers : List (BitVec 7 → BitVec 12 → Instr) :=
  (iaRules.map fun e g a => e.1 g 0 a) ++ (iaRules.map fun e g a => e.1 g 1 a) ++
  [.imMul, .imMulhi, .imMulhn, .imDiv, .imDivn, .imRem, .imRemn, .imMad, .lqLdb, .lqLdbs, .lqLdh, .lqLdhs, .lqLdw,
   .lqLdws, .lqLdd, .lqVld, .lqVldbf, .lqVldhf, .lqVldb, .lqMark, .agSld, .agSst, .agSrld,
   .agSset, .agSadv, .agRfence, .cqPush, .crRd, .crWr, .crTlbinv, .crCinv, .crTrace] ++
  [.dgDq, .dgDqr, .dgDqz, .dgDfence, .dgDregion, .syAcq, .syBwait, .sySstep]

/-- Those that take an entry of the store queue (R96). -/
def storingTriggers : List (BitVec 7 → BitVec 12 → Instr) :=
  [.sqStb, .sqSth, .sqStw, .sqStd, .dgDrebuild, .syAadd, .syAmin, .syAmax, .syAminn, .syAmaxn, .syAand, .syAor, .syAxor, .syAswp,
   .syAcas, .syAincb, .syRel, .syBget, .syBarv, .syBfree, .sySpawn]

/-- A trigger of a leased unit takes an entry of the store queue: `tf.tst`, `ep.grad`, `xk.kick`, and `ep.done` with a
bitmap (R96, R301). -/
def storesLeased (f : BitVec 7 → BitVec 12 → Instr) (s : State) : Prop :=
  f 0 0 = .tfTst 0 0 ∨ f 0 0 = .epGrad 0 0 ∨ f 0 0 = .xkKick 0 0 ∨ f 0 0 = .epDone 0 0 ∧ s.myCore.epo ≠ 0

/-- The triggers of leased units, class S and class V. -/
def leasedScalar : List (UnitId × (BitVec 7 → BitVec 12 → Instr)) :=
  [(.mx, .mxMma), (.mx, .mxMmas), (.mx, .mxMmag), (.mx, .mxMzero), (.mx, .mxMdrain), (.tf, .tfTld), (.tf, .tfTbind),
   (.tf, .tfTst), (.tf, .tfTrel), (.tf, .tfTcvt), (.kv, .kvFork), (.kv, .kvFree), (.kv, .kvApp), (.kv, .kvMap), (.ep, .epRep),
   (.ep, .epDone), (.ep, .epGrad), (.xk, .xkKick)]
def vectorTriggers : List (BitVec 7 → BitVec 12 → Instr) :=
  laneRules.map (·.1) ++ compareRules.map (·.1) ++ floatRules.map (·.1) ++ quantRules.map (·.1) ++ dequantRules.map (·.1) ++
    permuteRules.map (·.1) ++ reduceRules.map (·.1) ++ treeRules.map (·.1) ++ [.vxVscan, .vxVfscan, .vxVtopk, .vxStopk]
def leasedVector : List (UnitId × (BitVec 7 → BitVec 12 → Instr)) :=
  [(.cx, .cxSend), (.cx, .cxMcst), (.kv, .kvPerm), (.ep, .epHist)] ++ vectorTriggers.map fun f => (.vx, f)
/-- The triggers of classes V and P of the sequencer's own units. -/
def ownWide : List (BitVec 7 → BitVec 12 → Instr) := plRules.map (·.1) ++ [.lqGth, .sqVst, .sqVstbf, .sqVsthf, .sqSct]

/-- What is tried first at a trigger of class S, whatever it does: with bit 0 of its guard clear nothing happens, a pop
in its source included; with the bit set a source that traps takes the trap at its slot, but one that `stores` freezes
before that while the store queue is full (R55, R64, R66, R98, R99). -/
def ScalarGate (f : BitVec 7 → BitVec 12 → Instr) (stores : State → Prop) (s : State) : Prop :=
  ∀ (g : BitVec 7) (a : BitVec 12), s.cur.live = true →
    ((s.guardMask g).getLsbD 0 = false → exec (f g a) s = .next s.slotDone) ∧
    (∀ (s' : State) (c : Cause) (w : Word) (h : Option HeadRecord), (s.guardMask g).getLsbD 0 = true →
      readSrc a .s s = .trap c w h s' →
      (stores s' ∧ 64 ≤ s'.me.stores.length → exec (f g a) s = .next (s.holdAt .storeRoom false)) ∧
      (¬ (stores s' ∧ 64 ≤ s'.me.stores.length) →
        let u := s.unread s'
        exec (f g a) s = .next (u.takeTrap u.cur.core u.cur.q c u.cur.slot w h false u.cur.addr).endIssue))

/-! ### What the queues perform -/

/-- The load-class entry that is performed next, and may be: no store-class operation before its marker or its fence
is left (R101, R102, R247). -/
def NextLoad (x : Seq) (e : LoadEntry) : Prop :=
  (x.loads ++ x.handlerLoads).find? (fun e => !e.performed) = some e ∧ ∀ y ∈ x.stores, e.epoch ≤ y.epoch ∧ e.fence ≤ y.order

/-- The store-class entry at the head, with every load-class operation before its marker performed (R101, R102). -/
def NextStore (x : Seq) (y : StoreEntry) : Prop :=
  x.stores.head? = some y ∧ ∀ e ∈ x.loads ++ x.handlerLoads, e.performed = true ∨ y.epoch ≤ e.epoch

/-- Everything of an epoch or before has been performed. -/
def EpochOver (x : Seq) (n : Nat) : Prop :=
  (∀ y ∈ x.stores, n < y.epoch) ∧ ∀ e ∈ x.loads ++ x.handlerLoads, e.performed = true ∨ n < e.epoch

/-- R105: lane i of a vector load of the bytes `b`. -/
def vectorLane (form : VectorForm) (b : List Byte) (i : Nat) : Lane :=
  match form with
  | .words => BitVec.ofNat 32 (leNat ((b.drop (4 * i)).take 4))
  | .bf16 => widenElem 9 (leNat ((b.drop (2 * i)).take 2))
  | .f16 => widenElem 8 (leNat ((b.drop (2 * i)).take 2))
  | .bytes => BitVec.ofNat 32 (b.getD i 0).toNat

/-- Entry number `n` has been performed with value `v` and mark `m`, in either queue. -/
def PerformedWith (x : Seq) (n : Nat) (v : Value) (m : Option Cause) : Prop :=
  ∀ e ∈ x.loads ++ x.handlerLoads, e.order = n → e.performed = true ∧ e.value = v ∧ e.mark = m

/-- R220: the word that an atomic writes, from the old word and its operands; none where it writes nothing. -/
def atomicWrites (op : AtomicOp) (o a b : Word) : Option Word :=
  match op with
  | .aadd => some (BitVec.ofNat 64 (o.toNat + a.toNat))
  | .amin => some (if a.toInt < o.toInt then a else o)
  | .amax => some (if o.toInt < a.toInt then a else o)
  | .aminn => some (if a.toNat < o.toNat then a else o)
  | .amaxn => some (if o.toNat < a.toNat then a else o)
  | .aand => some (o &&& a)
  | .aor => some (o ||| a)
  | .axor => some (o ^^^ a)
  | .aswp => some a
  | .acas => if o = b then some a else none
  | .aincb => if o.toNat < a.toNat then some (BitVec.ofNat 64 (o.toNat + 1)) else none

/-- R114: lane j of a row of the bytes `b` in a format. -/
def rowLane (fmt : Nat) (b : List Byte) (j : Nat) : Lane :=
  let piece := fun n => leNat ((b.drop (n * j)).take n)
  match fmt with
  | 1 => BitVec.ofNat 32 (piece 1)
  | 2 => (BitVec.ofNat 8 (piece 1)).signExtend 32
  | 3 => BitVec.ofNat 32 (piece 2)
  | 4 => (BitVec.ofNat 16 (piece 2)).signExtend 32
  | 8 => vectorLane .f16 b j
  | 9 => vectorLane .bf16 b j
  | _ => match hxOf fmt with
    | some h => h.lane (leNat ((b.drop (j / 16 * h.bytes)).take h.bytes)) (j % 16)
    | none => BitVec.ofNat 32 (piece 4)

/-- Bits set among the lowest `n` of a number. -/
def onesBelow (n w : Nat) : Nat := ((List.range n).filter fun i => w.testBit i).length

/-- R246: what ranks last for the kind and the element type of a region. -/
def lastRank (etype kind : Nat) : Lane :=
  if kind = 2 ∨ kind = 1 ∧ 7 ≤ etype then 0x7FC00000 else if kind = 1 ∧ etype ∈ [2, 4, 6] then 0x80000000 else 0

/-- R246: the rank value of the record whose 16 bytes are `w`; kinds 1 to 4 are BOUNDS, SUM, ZMAP and SKETCH. -/
def recordRank (etype kind : Nat) (qsk : BitVec 96) (w : Nat) : Lane :=
  if w.testBit 123 = false then lastRank etype kind
  else if kind = 1 then BitVec.ofNat 32 (w / 2 ^ 32)
  else if kind = 2 then BitVec.ofNat 32 (w / 2 ^ 64)
  else if kind = 3 then BitVec.ofNat 32 (32 / (if etype ≤ 2 then 1 else if etype ∈ [3, 4, 8, 9] then 2 else 4) - onesBelow 32 w)
  else BitVec.ofNat 32 (96 - onesBelow 96 (w ^^^ qsk.toNat))

/-- R104 to R106, R120, R245, R246: the value that an entry of a kind makes of the bytes it has read. -/
def MadeOf (k : LoadKind) (b : List Byte) (v : Value) : Prop :=
  let rec16 := fun j => leNat ((b.drop (16 * j)).take 16)
  match k with
  | .scalar _ signed => ∃ w : Word, v = .s w ∧ ∀ i < 64, w.getLsbD i = if i < 8 * b.length then (b.getD (i / 8) 0).getLsbD (i % 8)
      else signed && (b.getD (b.length - 1) 0).getLsbD 7
  | .vector form => v = .v ((List.range 64).map fun i => vectorLane form b i)
  | .gather src => v = .v ((List.range 64).map fun i =>
      if src.getD i 0 = 0 then 0 else BitVec.ofNat 32 (leNat ((b.drop (4 * (src.getD i 0 - 1))).take 4)))
  | .row fmt cols => v = .v ((List.range 64).map fun j => if j < cols then rowLane fmt b j else 0)
  | .dq => v = .v ((List.range 64).map fun i => if i < 4 then BitVec.ofNat 32 (leNat ((b.drop (4 * i)).take 4)) else 0)
  | .dqr n qsk etype kind => v = .v ((List.range 64).map fun j => if j < n then recordRank etype kind qsk (rec16 j) else lastRank etype kind)
  | .dqz n vmap => ∃ w : Word, v = .p w ∧ ∀ j < 64, w.getLsbD j =
      (decide (j < n) && (rec16 j).testBit 123 && (vmap || onesBelow 32 (rec16 j) == 0))
  | _ => False

/-- An entry that has the shape of its kind when its last byte has come. -/
def Shaped (k : LoadKind) (b : List Byte) : Prop :=
  match k with
  | .scalar n _ => b.length = n ∧ n ∈ [1, 2, 4, 8]
  | .vector .words => b.length = 256
  | .vector .bytes => b.length = 64
  | .vector _ => b.length = 128
  | .gather src => src.length = 64 ∧ 4 * src.foldl max 0 ≤ b.length
  | .row fmt cols => 1 ≤ fmt ∧ fmt ≤ 12 ∧ 1 ≤ cols ∧ cols ≤ 64 ∧ ((hxOf fmt).isSome = true → cols % 16 = 0) ∧
      b.length = tileBytes fmt 1 cols
  | .dq => b.length = 16
  | .dqr n _ etype kind => n ≤ 64 ∧ b.length = 16 * n ∧ 1 ≤ etype ∧ etype ≤ 9 ∧ 1 ≤ kind ∧ kind ≤ 4
  | .dqz n _ => n ≤ 64 ∧ b.length = 16 * n
  | _ => False

/-- The next load-class entry, which nothing outside its queues holds back: no dirty sector of its core's banks (R198). -/
def GoesNow (s : State) (c q : Nat) (e : LoadEntry) : Prop := NextLoad (s.seq c q) e ∧ s.readWaits c q e = false

/-- A walk answers a miss: an address of its space in its granule, or on the page that it has found (R203). -/
def Reaches (w : Walker) (found : Option Page) (m : Nat × Nat) : Prop :=
  m.1 = w.asid ∧ (m.2 / 65536 = w.granule ∨ ∃ p, found = some p ∧ p.covers m.1 m.2 = true)

/-- Sequencer `u` of the die `d` may take the answer of a walk, and waits for one: its bundle, or its next `kv.map`. -/
def Missing (s : State) (d : Nat) (w : Walker) (found : Option Page) (u : Nat × Nat) : Prop :=
  u.1 ∈ s.coreIds ∧ dieOf u.1 = d ∧ u.2 < 2 ∧ u ∉ w.barred ∧
    ∃ m, (s.bundleMiss u.1 u.2 = some m ∨ s.mapMiss u.1 u.2 = some m) ∧ Reaches w found m

/-- The misses of a sequencer have been answered: what the walk has found is kept for the bundle and for the `kv.map` that
missed, and in the TLB (R203). -/
def Answered (s t : State) (w : Walker) (found : Option Page) (u : Nat × Nat) : Prop :=
  let x := s.seq u.1 u.2
  let y := t.seq u.1 u.2
  let kept := fun (m : Nat × Nat) => ({ asid := m.1, granule := m.2 / 65536, found := found } : Walk)
  y.hold = x.hold ∧
  (∀ m, s.bundleMiss u.1 u.2 = some m → Reaches w found m → y.walks = kept m :: x.walks) ∧
  ((∀ m, s.bundleMiss u.1 u.2 = some m → ¬ Reaches w found m) → y.walks = x.walks) ∧
  (∀ m e, s.mapMiss u.1 u.2 = some m → Reaches w found m → s.nextMap u.1 u.2 = some e →
    y.loads = x.loads.map fun f => if f.order = e.order then { f with walks := kept m :: f.walks } else f) ∧
  ((∀ m, s.mapMiss u.1 u.2 = some m → ¬ Reaches w found m) → y.loads = x.loads) ∧
  match found with
  | some p => (x.tlb.length < 64 → y.tlb = p :: x.tlb) ∧ (64 ≤ x.tlb.length → ∃ i < 64, y.tlb = p :: x.tlb.eraseIdx i)
  | none => y.tlb = x.tlb

/-- A part of another line than `p`, where that lies in memory. -/
def OtherLine (p x : Part) : Prop :=
  ∀ a n b m, p = .bytes (.mem a) n → x = .bytes (.mem b) m → lineIndex a ≠ lineIndex b

/-- The word at a place. -/
def wordAt (s : State) (pa : Nat) : Word := BitVec.ofNat 64 (leNat (s.readMem pa 8))

/-! ### What the units bring about -/

/-- R69, R70: a port with what is visible in cycle `k` presented: what is not stays in the queue, and the current result
is one of the visible ones that none follows. -/
def Presented (p : Port) (k : Nat) (p' : Port) : Prop :=
  p'.queue = p.queue.filter (fun r => decide (k < r.vis)) ∧
    p'.cur ∈ p.cur :: p.queue.filter (fun r => decide (r.vis ≤ k)) ∧
    ∀ r ∈ p.cur :: p.queue.filter (fun r => decide (r.vis ≤ k)), r.vis ≤ p'.cur.vis

def ownPorts : List (ResPort × (ResPorts → Port)) :=
  [(.ia0r, (·.ia0r)), (.ia1r, (·.ia1r)), (.imr, (·.imr)), (.imh, (·.imh)), (.plr, (·.plr)), (.crr, (·.crr))]
def vectorPorts : List (ResPort × (Core → Port)) := [(.vxr, (·.vxr)), (.vxm, (·.vxm)), (.vxs, (·.vxs))]

/-- The operation at the head of tf or mx is done: its claims are given up, and the tile it wrote is ready (R167). -/
def OperationDone (k k' : Core) (op : TileOp) (d : Nat) : Prop :=
  k'.tileReady d = true ∧ ∀ x, k'.claimsOf x = k.claimsOf x - op.reads.count x

/-- A resident tile in `fmt` that holds all of its bytes and no poison; an HX one is blocked down its columns as `down`
says (R164). -/
def Whole (x : Tile) (fmt : Nat) (down : Bool) : Prop :=
  x.state = .resident ∧ x.fmt = fmt ∧ x.bad = [] ∧ x.data.length = tileBytes fmt x.rows x.cols ∧
    ((hxOf fmt).isSome = true → x.bdir = down ∧ (if down then x.rows else x.cols) % 16 = 0)

/-- A place in a tile: the tile, a row and a column. -/
abbrev Place := Tile × Nat × Nat

/-- The value of an element of a float format (R125, R135): an HX block runs along a row, or down a column. -/
def elemVal (p : Place) : FVal :=
  let (x, r, c) := p
  match hxOf x.fmt with
  | some h =>
    let at_ := if x.bdir then c * x.rows + r else r * x.cols + c
    h.elem (leNat ((x.data.drop (at_ / 16 * h.bytes)).take h.bytes)) (at_ % 16)
  | none =>
    let n := elemBytes x.fmt
    (if x.fmt = 8 then Fmt.f16 else if x.fmt = 9 then Fmt.bf16 else Fmt.f32).read (leNat ((x.data.drop (n * (r * x.cols + c))).take n))

/-- An i8 element. -/
def i8At (p : Place) : Int := (p.1.data.getD (p.2.1 * p.1.cols + p.2.2) 0).toInt

/-- The accumulator after `k` chunks of `n` products, each chunk summed exactly with it and rounded once (R139, R182). -/
def afterChunks (n : Nat) (rm : RM) (rnd : FVal → FVal) (acc : FVal) (ps : List (FVal × FVal)) : Nat → FVal
  | 0 => acc
  | k + 1 => rnd (sumOf rm (afterChunks n rm rnd acc ps k :: ((ps.drop (n * k)).take n).map fun p => (fMul p.1 p.2).1)).1

/-- An element in classical order, from its accumulator value and the pairs of places that its products come from, `n` to a
chunk; an i8 sum wraps (R139, R180, R185). -/
def classicalSum (fmt n : Nat) (rm : RM) (c0 : Lane) (ps : List (Place × Place)) : Lane :=
  if fmt = 2 then BitVec.ofInt 32 (c0.toInt + (ps.map fun p => i8At p.1 * i8At p.2).sum)
  else if ps = [] then c0
  else BitVec.ofNat 32 (Fmt.f32.write rm (afterChunks n rm (fun x => (roundF32 rm x).1) (f32Of c0)
    (ps.map fun p => (elemVal p.1, elemVal p.2)) ((ps.length + n - 1) / n))).1

/-- Row `r` of `n` A tiles side by side, and column `j` of `n` B tiles below one another. -/
def rowOf (n : Nat) (x : Nat → Tile) (r : Nat) : List Place :=
  ((List.range n).map fun i => (List.range (x i).cols).map fun k => (x i, r, k)).flatten
def colOf (n : Nat) (y : Nat → Tile) (j : Nat) : List Place :=
  ((List.range n).map fun i => (List.range (y i).rows).map fun k => (y i, k, j)).flatten

/-- The pairs of a sparse element: elements 2g and 2g + 1 of the compressed row stand at the dense places that nibble g of
the metadata row names (R185). -/
def sparsePairs (mt : Tile) (r : Nat) (row col : List Place) : List (Place × Place) :=
  let z : Place := (Tile.init, 0, 0)
  ((List.range (row.length / 2)).map fun g =>
    let nib := (mt.data.getD (r * mt.cols + g / 2) 0).toNat / 2 ^ (4 * (g % 2)) % 16
    [(row.getD (2 * g) z, col.getD (4 * g + nib % 4) z), (row.getD (2 * g + 1) z, col.getD (4 * g + nib / 4) z)]).flatten

/-- An element in recombined order, of operands `a` of 64 rows and `b` of 64 columns with 2 n products (R182). -/
def recombinedSum (n : Nat) (rm : RM) (c0 : Lane) (a b : Nat → Nat → FVal) (r j : Nat) : Lane :=
  let pre := fun x y => (preAdd rm x y).1
  let e26 := fun x => (roundE26 rm x).1
  let plus := fun x y => e26 (fAdd rm x y).1
  let minus := fun x (y : FVal) => e26 (fAdd rm x y.negate).1
  let (a11, a12) := (fun i k => a i k, fun i k => a i (n + k))
  let (a21, a22) := (fun i k => a (32 + i) k, fun i k => a (32 + i) (n + k))
  let (b11, b12) := (fun k i => b k i, fun k i => b k (32 + i))
  let (b21, b22) := (fun k i => b (n + k) i, fun k i => b (n + k) (32 + i))
  let prod := fun (p q : Nat → Nat → FVal) => afterChunks 16 rm e26 (.fin false 0 0)
    ((List.range n).map fun k => (p (r % 32) k, q k (j % 32))) ((n + 15) / 16)
  let two := fun (p q : Nat → Nat → FVal) => fun i k => pre (p i k) (q i k)
  let diff := fun (p q : Nat → Nat → FVal) => fun i k => pre (p i k) (q i k).negate
  let m1 := prod (two a11 a22) (two b11 b22)
  let m2 := prod (two a21 a22) b11
  let m3 := prod a11 (diff b12 b22)
  let m4 := prod a22 (diff b21 b11)
  let m5 := prod (two a11 a12) b22
  let m6 := prod (diff a21 a11) (two b11 b12)
  let m7 := prod (diff a12 a22) (two b21 b22)
  let x := match decide (r < 32), decide (j < 32) with
    | true, true => plus (minus (plus m1 m4) m5) m7
    | true, false => plus m3 m5
    | false, true => plus m2 m4
    | false, false => plus (plus (minus m1 m2) m3) m6
  BitVec.ofNat 32 (Fmt.f32.write rm (fAdd rm (f32Of c0) x).1).1

/-- D of a product: its state, its shape, and each of its words (R179, R180). -/
def ResultIs (x : Tile) (fmt m n : Nat) (w : Nat → Nat → Lane) : Prop :=
  x.state = .resident ∧ x.fmt = (if fmt = 2 then 6 else 7) ∧ x.rows = m ∧ x.cols = n ∧ x.bad = [] ∧
    ∀ r < m, ∀ j < n, leNat ((x.data.drop (4 * (r * n + j))).take 4) = (w r j).toNat

/-- The accumulator value of an element: D as it stands, or +0 (R180). -/
def startAt (x : Tile) (acc : Bool) (r j : Nat) : Lane :=
  if acc then BitVec.ofNat 32 (leNat ((x.data.drop (4 * (r * x.cols + j))).take 4)) else 0

/-- D may be accumulated on: an f32 or i32 tile of the product's shape. -/
def MayAccumulate (x : Tile) (acc : Bool) (fmt m n : Nat) : Prop :=
  acc = true → Whole x (if fmt = 2 then 6 else 7) false ∧ x.rows = m ∧ x.cols = n

/-- A value as f32, exactly, and an element made of it in format f32, f16 or bf16 (R171). -/
def widened (x : FVal) : FVal := Fmt.f32.read (Fmt.f32.write .rne x).1
def narrowed (cf : Nat) (rm : RM) (x : FVal) : Nat :=
  ((if cf = 8 then Fmt.f16 else if cf = 9 then Fmt.bf16 else Fmt.f32).write rm (widened x)).1

/-- Lines of values converted to `cf`: `lines` of them, each of `n`, one after another; `place l i` says where element i of
line l lies (R136, R171, R176). -/
def ConvertedTo (data : List Byte) (cf : Nat) (rm : RM) (lines n : Nat) (v : Nat → Nat → FVal) (place : Nat → Nat → Nat) : Prop :=
  match hxOf cf with
  | some h => ∀ l < lines, ∀ b < n / 16, (data.drop ((l * n / 16 + b) * h.bytes)).take h.bytes =
      natBytes h.bytes (h.encode rm ((List.range 16).map fun i => widened (v l (16 * b + i)))).1
  | none => ∀ l < lines, ∀ i < n, leNat ((data.drop (elemBytes cf * place l i)).take (elemBytes cf)) = narrowed cf rm (v l i)

/-- What an operation of mx reads as operand t: the tile, or, where t was bound when the operation was triggered, the tile's
bytes out of the lines that it has read, none of them poisoned there (R174, R206). -/
def OperandRead (k : Core) (op : TileOp) (t : Nat) (x : Tile) : Prop :=
  match op.bound.lookup t with
  | none => x = k.tile t
  | some b => b.state = .bound ∧
      ∃ line : Nat → List Byte × List Nat, (∀ l, line l = (b.copies.lookup l).getD ([], [])) ∧
        (∀ pa ∈ b.src, pa % 256 / 32 ∉ (line (pa / 256)).2) ∧
        x = { b with state := .resident, bad := [], data := b.src.map fun pa => (line (pa / 256)).1.getD (pa % 256) 0 }

/-- A bound tile that a product has read is empty, the other operands are as they were (R173). -/
def OperandsLeft (k k' : Core) (op : TileOp) : Prop :=
  ∀ t ∈ op.reads, k'.tile t = if (k.tile t).state = .bound then Tile.init else k.tile t

/-- Fields of the header of a zero-packed chunk, and when it is well formed (R311). -/
def zRaw (h : Nat) : Bool := h.testBit 63
def zSz (h : Nat) : Nat := h / 2 ^ 60 % 8
def zLength (h : Nat) : Nat := h / 2 ^ 48 % 4096
def zSet (h g : Nat) : Nat := ((List.range g).filter fun i => h.testBit i).length
def HeaderOk (h : Nat) : Prop :=
  zSz h ≤ 2 ∧ h / 2 ^ 32 % 65536 = 0 ∧ zLength h = (if zRaw h then 256 else zSet h 32 * 8 * 2 ^ zSz h) ∧
    ∀ g < 32, 32 / 2 ^ zSz h ≤ g → h.testBit g = false

/-- The 256 bytes of a chunk: the payload as it stands, or its groups where MAP has a bit set, and zeros elsewhere (R311). -/
def ChunkOf (h : Nat) (payload dense : List Byte) : Prop :=
  dense.length = 256 ∧ if zRaw h then dense = payload.take 256 else
    let gb := 8 * 2 ^ zSz h
    ∀ g < 32 / 2 ^ zSz h, (dense.drop (gb * g)).take gb =
      if h.testBit g then (payload.drop (gb * zSet h g)).take gb else List.replicate gb 0

/-- `n` well-formed chunks that follow one another, and their dense bytes; or a header among them that is not well formed. -/
def Expands : Nat → List Byte → List Byte → Prop
  | 0, _, dense => dense = []
  | n + 1, packed, dense => let h := leNat (packed.take 8)
    HeaderOk h ∧ ∃ c rest, ChunkOf h (packed.drop 8) c ∧ Expands n (packed.drop (8 + zLength h)) rest ∧ dense = c ++ rest
def Breaks : Nat → List Byte → Prop
  | 0, _ => False
  | n + 1, packed => let h := leNat (packed.take 8)
    ¬ HeaderOk h ∨ HeaderOk h ∧ Breaks n (packed.drop (8 + zLength h))

/-- The bytes of a loaded source in memory order: those read, or the dense ones of a zero-packed source (R171). -/
def SourceIs (d : Shape) (got bytes : List Byte) : Prop :=
  let size := d.rows * d.cols * elemBytes d.fmt
  if d.zpack then ∃ dense, Expands ((size + 255) / 256) got dense ∧ bytes = dense.take size else bytes = got

/-- A finite value as a multiple of 2^lo. -/
def scaled (lo : Int) : FVal → Int
  | .fin n m e => (if n then -1 else 1) * m * 2 ^ (e - lo).toNat
  | _ => 0

/-- R159: key i of a running `stopk`, as its bytes give it and as its order key ranks it. -/
def stopkRaw (k : Core) (o : Stopk) (i : Nat) : Nat := leNat (k.readSpad (o.koff + keyBytes o.ktype * i) (keyBytes o.ktype))
def stopkRank (k : Core) (o : Stopk) (i : Nat) : Nat × Nat := (okey (stopkKey o.ktype (stopkRaw k o i)) (stopkType o.ktype), i)

/-- R228: what a communication step waits for: every send, multicast and remote atomic of the launch's cores has landed, its
reply too, and every access in the members' queues is performed. -/
def AllLanded (s : State) (cores : List Nat) (group : List (Nat × Nat)) : Prop :=
  (∀ c ∈ cores, (s.core c).sends = [] ∧ (s.core c).atomics = []) ∧ (∀ f ∈ s.flights, f.src ∉ cores) ∧
    (∀ m ∈ s.mcasts, m.src ∉ cores) ∧ ∀ u ∈ group, (s.seq u.1 u.2).stores = [] ∧
      ∀ e ∈ (s.seq u.1 u.2).loads ++ (s.seq u.1 u.2).handlerLoads, e.performed = true ∧ e.landsAt ≤ s.clock

/-! ### Traps and launches -/

/-- R36, R269: the sequencer `y` is at the start of its handler for the trap of `x` at slot `k`: the shadow bank holds
what the trap found, the saved registers say where and why, and the program's registers and queues are as they were. -/
def HandlerEntered (x y : Seq) (c : Cause) (k : Nat) (fault : Word) (deferred : Bool) (clock : Nat) : Prop :=
  y.handler = true ∧ y.pc = x.trapvec ∧ y.slot = 0 ∧ y.hold = none ∧ y.xpc.toNat = x.pc.toNat / 16 * 16 % 2 ^ 56 ∧ y.cause = c ∧
    y.rslot = BitVec.ofNat 2 k ∧ y.defer = deferred ∧
    y.fpage = (if c ∈ [.misaligned, .translation, .protection, .scratchBounds, .digestRegion] then fault.extractLsb' 16 40 else 0) ∧
    y.shadow = some (x.ports, x.results) ∧ y.ports = x.ports ∧ y.handlerLoads = [] ∧ y.handlerLoops = [] ∧ y.loads = x.loads ∧
    y.stores = x.stores ∧ y.loops = x.loops ∧ y.countQueue = x.countQueue ∧ y.sregs = x.sregs ∧ y.vregs = x.vregs ∧ y.pregs = x.pregs ∧
    y.cycle = x.cycle ∧ y.trapvec = x.trapvec ∧ y.fpctl = x.fpctl ∧ y.run = x.run ∧
    y.budget = (if c = .cancel ∨ c = .preempt then some (0, clock) else none)

/-- R4, R338: the time of a die in parts of a microsecond, through the steps of its clock. -/
def timeNow (s : State) (d : Nat) : Nat :=
  (s.die d).timeBase + (s.clock - (s.die d).steppedAt) * (microParts / (s.die d).clockMHz)

/-- The order in which deferred causes are taken (R268). -/
def FirstPending (l : List Cause) (c : Cause) : Prop :=
  ∃ i : Nat, [Cause.cancel, .preempt, .eccUncorrectable, .barrierGeneration, .link, .singleStep][i]? = some c ∧ c ∈ l ∧
    ∀ j : Nat, j < i → ∀ d, [Cause.cancel, .preempt, .eccUncorrectable, .barrierGeneration, .link, .singleStep][j]? = some d → d ∉ l

/-! ### Engines, Trestle and the outside world -/

/-! ### Encodings, frames, the step and the whole machine -/

/-- The slots of a bundle that an instruction's word can stand in: a header in slot 0, a control word in slot 3, a
move in any (R44). -/
def slotsOf : Instr → List Nat
  | .header .. => [0]
  | .nop .. | .br .. | .brx .. | .call .. | .ret .. | .loop .. | .loopq .. | .halt .. | .trap .. | .rft | .wake .. | .cede ..
  | .wait .. | .brk .. => [3]
  | _ => [0, 1, 2, 3]

/-- The registers of every sequencer, and what the spec lets only a late write, a trap or `rft` change, are as they
were; the pop `a` = `lq.pop` may bring a stamp result to a predicate of its sequencer (R111). -/
def RegistersKept (a : BitVec 12) (s t : State) : Prop :=
  (∀ c q : Nat, (t.seq c q).sregs = (s.seq c q).sregs ∧ (t.seq c q).vregs = (s.seq c q).vregs ∧
    (c = s.cur.core → q = s.cur.q → a ≠ 0x0A9 → (t.seq c q).pregs = (s.seq c q).pregs) ∧
    (c ≠ s.cur.core ∨ q ≠ s.cur.q → (t.seq c q).pregs = (s.seq c q).pregs) ∧
    (t.seq c q).fpctl = (s.seq c q).fpctl ∧ (t.seq c q).trapvec = (s.seq c q).trapvec ∧ (t.seq c q).remtime = (s.seq c q).remtime ∧
    (t.seq c q).tracectl = (s.seq c q).tracectl ∧ (t.seq c q).asid = (s.seq c q).asid ∧ (t.seq c q).xpc = (s.seq c q).xpc ∧
    (t.seq c q).cause = (s.seq c q).cause ∧ (t.seq c q).rslot = (s.seq c q).rslot ∧ (t.seq c q).fpage = (s.seq c q).fpage ∧
    (t.seq c q).handler = (s.seq c q).handler ∧ (t.seq c q).shadow = (s.seq c q).shadow ∧ (t.seq c q).pc = (s.seq c q).pc ∧
    (t.seq c q).run = (s.seq c q).run) ∧
  t.digbase = s.digbase ∧ t.ctxbase = s.ctxbase ∧ t.clock = s.clock ∧ t.cur.core = s.cur.core ∧ t.cur.q = s.cur.q

/-! What a bundle's slots read, write and trigger (R59, R61, R63).  Registers and ports go by their addresses, the load queue by
0x1000, the circuit queue by 0x1001, and the count queue by the address of `cq.push`. -/

/-- The queue of a pop source. -/
def queueOf (a : Nat) : Option Nat := [(0xA9, 0x1000), (0xAA, 0x1001), (0xAC, 0xB4)].lookup a

/-- The trigger addresses of a unit, from the first on to before the second, and its operand ports.  `lq.mark` counts for lq
and sq. -/
def unitTriggers : List (UnitId × Nat × Nat × List Nat) :=
  [(.ia0, 0x100, 0x119, [0xA0]), (.ia1, 0x140, 0x159, [0xA1]), (.im, 0x180, 0x188, [0xA2, 0xA3]), (.pl, 0x1A0, 0x1AA, [0xA4]),
   (.lq, 0x1C0, 0x1CC, [0xA9, 0xAA]), (.sq, 0x1CC, 0x1D5, [0xAB]), (.lq, 0x1D4, 0x1D5, [0xA9, 0xAA]), (.ag, 0x1D5, 0x1DB, [0xAC]),
   (.vx, 0x200, 0x245, [0xA5, 0xA6]), (.mx, 0x300, 0x305, [0xA7]), (.tf, 0x305, 0x30A, [0xA8])] ++
  [(.dg, 0x340, 0x346, [0xAD]), (.sy, 0x360, 0x373, [0xAE, 0xAF]), (.cx, 0x373, 0x375, [0xB0]),
   (.kv, 0x3A0, 0x3A5, [0xB1]), (.ep, 0x3A5, 0x3A9, [0xB2]), (.xk, 0x3A9, 0x3AA, []), (.cr, 0x3C0, 0x3C5, [0xB3])]

/-- The triggers that take a load-queue entry. -/
def loadTakers : List Nat :=
  (List.range 12).map (0x1C0 + ·) ++ [0x1D5, 0x1D7, 0x305, 0x306, 0x307, 0x340, 0x341, 0x342] ++ (List.range 11).map (0x360 + ·) ++
    [0x36C, 0x36D, 0x36F, 0x3A4, 0x3A6, 0x3A7]

/-- The control operations that use a condition (R84). -/
def conditionCodes : List Nat := [1, 2, 3, 4, 7, 8, 10, 13]

/-- A register as something read or written: p0 is neither. -/
def IsReg (n r : Nat) : Prop := n < 0xA0 ∧ n ≠ 0x60 ∧ r = n

def TriggersUnit (b : BitVec 128) (k : Nat) (u : UnitId) : Prop :=
  let w := slotWord b k
  isMoveWord w = true ∧ ∃ e ∈ unitTriggers, e.1 = u ∧ e.2.1 ≤ wordDest w ∧ wordDest w < e.2.2.1

def SlotReads (b : BitVec 128) (k r : Nat) : Prop :=
  let w := slotWord b k
  let x := w.toNat
  (isMoveWord w = true ∧
    ((wordFormat w = 0 ∧ (IsReg (0x60 + wordGuard w) r ∨ IsReg (wordSource w) r ∨ queueOf (wordSource w) = some r)) ∨
      (∃ e ∈ unitTriggers, e.2.1 ≤ wordDest w ∧ wordDest w < e.2.2.1 ∧ r ∈ e.2.2.2) ∨
      (wordDest w ∈ loadTakers ∧ (r = 0xA9 ∨ r = 0xAA)))) ∨
  (k = 3 ∧ isControlWord w = true ∧
    ((controlCode w ∈ conditionCodes ∧ IsReg (0x60 + x / 2 ^ 19 % 64) r) ∨ (controlCode w = 2 ∧ r = x % 64) ∨
      (controlCode w = 4 ∧ r = 63) ∨ (controlCode w = 5 ∧ r = x / 2 ^ 12 % 64) ∨ (controlCode w = 6 ∧ r = 0xB4)))

def SlotWrites (b : BitVec 128) (k r : Nat) : Prop :=
  let w := slotWord b k
  (isMoveWord w = true ∧
    (IsReg (wordDest w) r ∨ (0xA0 ≤ wordDest w ∧ wordDest w < 0xB5 ∧ r = wordDest w) ∨ (wordDest w = 0x1D6 ∧ r = 0xAB) ∨
      (wordDest w = 0x3A5 ∧ r = 0xB4) ∨ (wordFormat w = 0 ∧ queueOf (wordSource w) = some r))) ∨
  (k = 3 ∧ isControlWord w = true ∧ ((controlCode w = 3 ∧ r = 63) ∨ (controlCode w = 6 ∧ r = 0xB4)))

/-- R50, R62, R63, and in handler mode R271: what makes a bundle illegal. -/
def Illegal (handler : Bool) (b : BitVec 128) : Prop :=
  let f := fun k => wordFormat (slotWord b k)
  (∃ k < 4, f k = 2) ∨ f 1 = 3 ∨ f 2 = 3 ∨ (f 0 = 3 ∧ (slotWord b 0).extractLsb' 24 2 ≠ 0) ∨
  (f 3 = 3 ∧ 14 ≤ controlCode (slotWord b 3)) ∨
  (∃ k ∈ [1, 2, 3], f 0 = 3 ∧ (slotWord b 0).getLsbD (29 - k) = true ∧ ¬ (f k = 0 ∧ 0x800 ≤ wordSource (slotWord b k))) ∨
  (∃ k < 4, ∃ j < k, (∃ r, SlotReads b k r ∧ SlotWrites b j r) ∨ ∃ u, TriggersUnit b k u ∧ TriggersUnit b j u) ∨
  (handler = true ∧ (f 0 = 3 ∨ slotWord b 1 ≠ 0 ∨ slotWord b 2 ≠ 0 ∨ isMoveWord (slotWord b 3) = true))

/-- R64: a reserved source or destination address in a slot; a leased unit that the slot needs and that is not held (R14). -/
def ReservedAt (b : BitVec 128) (k : Nat) : Prop :=
  let w := slotWord b k
  isMoveWord w = true ∧ ((0xB5 ≤ wordDest w ∧ ∀ e ∈ unitTriggers, ¬ (e.2.1 ≤ wordDest w ∧ wordDest w < e.2.2.1)) ∨
    (wordFormat w = 0 ∧ 0xB8 ≤ wordSource w ∧ wordSource w < 0x800))
def NotHeldAt (s : State) (b : BitVec 128) (k : Nat) : Prop :=
  let w := slotWord b k
  isMoveWord w = true ∧ ((∃ u, TriggersUnit b k u ∧ s.mayReach (some u) = false) ∨
    (∃ e ∈ unitTriggers, wordDest w ∈ e.2.2.2 ∧ s.mayReach (some e.1) = false) ∨
    (wordFormat w = 0 ∧ ∃ e ∈ ([(0xA5, .vx), (0xA6, .vx), (0xA7, .vx), (0xA8, .mx), (0xAA, .cx)] : List (Nat × UnitId)),
      wordSource w = e.1 ∧ s.mayReach (some e.2) = false))

/-- Every byte of memory and of every scratchpad is as it was. -/
def MemoryKept (s t : State) : Prop := (∀ a, t.readByte a = s.readByte a) ∧ ∀ c n : Nat, mapGet 0 (t.core c).spad n = mapGet 0 (s.core c).spad n

/-- Operand ports, queues and loops of the sequencer, and the tiles and stores of its core, are as they were. -/
def QueuesKept (s t : State) : Prop :=
  t.me.ports = s.me.ports ∧ t.me.loads = s.me.loads ∧ t.me.handlerLoads = s.me.handlerLoads ∧ t.me.stores = s.me.stores ∧
    t.me.countQueue = s.me.countQueue ∧ t.me.loops = s.me.loops ∧ t.me.handlerLoops = s.me.handlerLoops ∧
    t.me.streams = s.me.streams ∧ t.me.rsig = s.me.rsig ∧ t.myCore.tiles = s.myCore.tiles ∧ t.myCore.sends = s.myCore.sends ∧
    t.myCore.circuit = s.myCore.circuit

/-- The triggers that only compute: on ia0, ia1, im, pl and vx. -/
def computeTriggers : List (BitVec 7 → BitVec 12 → Instr) :=
  (iaRules.map fun e g a => e.1 g 0 a) ++ (iaRules.map fun e g a => e.1 g 1 a) ++ imRules.map (·.1) ++ divRules.map (·.1) ++
    plRules.map (·.1) ++ vectorTriggers

/-- The triggers that enter a queue, start a unit, or act on a unit's own state, and write no byte of memory. -/
def queueTriggers : List (BitVec 7 → BitVec 12 → Instr) :=
  loadRules.map (·.1) ++ storeRules.map (·.1) ++ vectorStoreRules.map (·.1) ++
  [.lqGth, .sqSct, .lqMark, .agSld, .agSst, .agSrld, .agSset, .agSadv, .agRfence, .cqPush, .crRd, .crWr, .crTlbinv, .crCinv] ++
  [.mxMma, .mxMmas, .mxMmag, .mxMzero, .mxMdrain, .tfTld, .tfTbind, .tfTst, .tfTrel, .tfTcvt, .dgDq, .dgDqr, .dgDqz, .dgDfence,
   .dgDrebuild, .dgDregion] ++
  [.syAadd, .syAmin, .syAmax, .syAminn, .syAmaxn, .syAand, .syAor, .syAxor, .syAswp, .syAcas, .syAincb, .syRel, .syAcq, .syBget,
   .syBarv, .syBwait, .syBfree, .sySstep, .sySpawn, .cxSend, .cxMcst, .kvMap, .epHist, .epRep, .epDone, .epGrad, .xkKick]

/-- Control words that write no register. -/
def IsControl (i : Instr) : Prop :=
  (∃ c n r, i = .nop c n r) ∨ (∃ c n p off, i = .br c n p off) ∨ (∃ c n p r, i = .brx c n p r) ∨ (∃ c n, i = .ret c n) ∨
    (∃ r fin, i = .loop r fin) ∨ (∃ fin, i = .loopq fin) ∨ (∃ m, i = .cede m) ∨ ∃ l st m, i = .wait l st m

/-- A move into an operand port, from the source `a`. -/
def IsPortMove (i : Instr) (a : BitVec 12) : Prop :=
  ∃ (g : BitVec 7) (d : BitVec 11), 0xA0 ≤ d.toNat ∧ d.toNat < 0xB4 ∧
    (i = .move g d a ∨ (i = .lqPop g d ∧ a = 0x0A9) ∨ (i = .cxPop g d ∧ a = 0x0AA) ∨ (i = .cqPop g d ∧ a = 0x0AC))

/-- A control word that ends, leaves or starts a stretch of the program leaves the data registers of every sequencer but
`z` of its core, if any, and all of memory; every sequencer but that one and its own is as it was; and its own keeps its control
registers. -/
def UnitKept (z : Option Nat) (s t : State) : Prop :=
  (∀ c q : Nat, c ≠ s.cur.core ∨ z ≠ some q →
    (t.seq c q).sregs = (s.seq c q).sregs ∧ (t.seq c q).vregs = (s.seq c q).vregs ∧ (t.seq c q).pregs = (s.seq c q).pregs) ∧
  (∀ c q : Nat, c ≠ s.cur.core ∨ z ≠ some q ∧ q ≠ s.cur.q → t.seq c q = s.seq c q) ∧
  (let x := s.me
    let y := t.seq s.cur.core s.cur.q
    y.trapvec = x.trapvec ∧ y.remtime = x.remtime ∧ y.tracectl = x.tracectl ∧ y.asid = x.asid ∧ y.stores = x.stores) ∧
  MemoryKept s t ∧ t.digbase = s.digbase ∧ t.ctxbase = s.ctxbase ∧ t.clock = s.clock

end Sys2Proof.Claims

section Statements
open Sys2Proof Sys2Proof.Machine Sys2Proof.Claims

/-- R71, R72: an integer operation whose guard bit is set and whose source reads `v` answers the state in which
its result is on its way to the unit's result port with L = 1, and the slot is done; operation n of the table is
reached by a move to offset n of the unit's block. -/
def Obligations.IntegerAluResults : Prop :=
  (∀ e ∈ iaRules, ∀ (g : BitVec 7) (u : BitVec 1) (a : BitVec 12) (s s' : State) (v : Value),
    s.cur.live = true → (s.guardMask g).getLsbD 0 = true → readSrc a .s s = .val v s' →
    ∃ r, e.2 (iaPort s' u) v.toS r ∧
      exec (e.1 g u a) s = .next (s'.pushRes (ResPorts.onIa u) 1 (.s r)).slotDone) ∧
  ∀ n < 25, ∀ e, iaRules[n]? = some e → ∀ (g : BitVec 7) (u : BitVec 1) (a : BitVec 12),
    decodeSlot 0 (moveWord g (BitVec.ofNat 11 (0x100 + 0x40 * u.toNat + n)) a) = .ok (e.1 g u a)

/-- R73, R74: multiplies write `im.r` alone, with L = 3; divides write both ports, with L = 24, and take every divisor. -/
def Obligations.MultiplierResults : Prop :=
  (∀ e ∈ imRules, ∀ (g : BitVec 7) (a : BitVec 12) (s s' : State) (v : Value),
    s.cur.live = true → (s.guardMask g).getLsbD 0 = true → readSrc a .s s = .val v s' →
    ∃ r, e.2 s'.me.ports.imo v.toS s'.me.ports.imp r ∧
      exec (e.1 g a) s = .next (s'.pushRes ResPorts.onImr 3 (.s r)).slotDone) ∧
  (∀ e ∈ divRules, ∀ (g : BitVec 7) (a : BitVec 12) (s s' : State) (v : Value),
    s.cur.live = true → (s.guardMask g).getLsbD 0 = true → readSrc a .s s = .val v s' →
    ∃ r h, e.2 s'.me.ports.imo v.toS r h ∧
      exec (e.1 g a) s =
        .next ((s'.pushRes ResPorts.onImr 24 (.s r)).pushRes ResPorts.onImh 24 (.s h)).slotDone)

/-- R75, R76: predicate operations take every bit of o and t, and the guard chooses which bits of the result are
theirs; the others are those of `pl.o`; operation n of the table stands at 0x1A0 + n. -/
def Obligations.PredicateUnitResults : Prop :=
  (∀ e ∈ plRules, ∀ (g : BitVec 7) (a : BitVec 12) (s s' : State) (v : Value),
    SourceRead s g a .p v s' →
    ∃ r w, e.2 s'.me.ports.plo v.toP r ∧
      (∀ i < 64, w.getLsbD i = if (s.guardMask g).getLsbD i then r.getLsbD i else s'.me.ports.plo.getLsbD i) ∧
      exec (e.1 g a) s = .next (s'.pushRes ResPorts.onPlr 1 (.p w)).slotDone) ∧
  ∀ n < 10, ∀ e, plRules[n]? = some e → ∀ (g : BitVec 7) (a : BitVec 12),
    decodeSlot 0 (moveWord g (BitVec.ofNat 11 (0x1A0 + n)) a) = .ok (e.1 g a)

/-- R144, R145: integer lanes, L = 2, no flag; operation n of the table stands at 0x200 + n. -/
def Obligations.VectorIntegerResults : Prop :=
  (∀ e ∈ laneRules, ∀ (g : BitVec 7) (a : BitVec 12) (s s' : State) (v : Value), VxReads s g a v s' →
    ∃ x, Lanes (s.guardMask g) s'.myCore.vxo x (fun i r => e.2 (lane s'.myCore.vxo i) (lane v.toV i) r) ∧
      exec (e.1 g a) s = .next ((s'.pushVxr 2 x).addFlags 0).slotDone) ∧
  ∀ n < 20, ∀ e, laneRules[n]? = some e → ∀ (g : BitVec 7) (a : BitVec 12),
    decodeSlot 0 (moveWord g (BitVec.ofNat 11 (0x200 + n)) a) = .ok (e.1 g a)

/-- R146, R149: compares write all ones or 0 to the selected lanes of `vx.r`, and their bits to `vx.m`; the integer ones
stand from 0x214 on, the floating ones from 0x227 on.  Values that are no NaN compare as the numbers they are. -/
def Obligations.VectorCompareResults : Prop :=
  (∀ a b : Lane, (f32Of a).isNan = false → (f32Of b).isNan = false →
    (fCompare (f32Of a) (f32Of b) = .lt ↔ Below (f32Of a) (f32Of b)) ∧ (fCompare (f32Of a) (f32Of b) = .gt ↔ Below (f32Of b) (f32Of a))) ∧
  (∀ e ∈ compareRules, ∀ (g : BitVec 7) (a : BitVec 12) (s s' : State) (v : Value), VxReads s g a v s' →
    ∃ x w f, Lanes (s.guardMask g) s'.myCore.vxo x
        (fun i r => r = if e.2.2.1 (lane s'.myCore.vxo i) (lane v.toV i) then 0xFFFFFFFF else 0) ∧
      (∀ i < 64, w.getLsbD i = ((s.guardMask g).getLsbD i && e.2.2.1 (lane s'.myCore.vxo i) (lane v.toV i))) ∧
      FlagsOf (s.guardMask g) f (fun i => e.2.2.2 (lane s'.myCore.vxo i) (lane v.toV i)) ∧
      exec (e.1 g a) s = .next (((s'.pushVxr e.2.1 x).pushVxm e.2.1 w).addFlags f).slotDone) ∧
  ∀ n < 10, ∀ e, compareRules[n]? = some e → ∀ (g : BitVec 7) (a : BitVec 12),
    decodeSlot 0 (moveWord g (BitVec.ofNat 11 (if n < 6 then 0x214 + n else 0x221 + n)) a) = .ok (e.1 g a)

/-- R125, R127, R128, R132, R133, R144, R147, R148, R150, R151: floating lanes and their flags, in the mode of FPCTL; and what
the functions of those tables compute: the exact sum, product, quotient, root or converted value, rounded once, with its
infinities, NaNs, zeros and flags.  Of `vfexp2` and `vflog2` this says the values that are exact or overflow, and the special
ones, and no more. -/
def Obligations.VectorFloatResults : Prop :=
  PatternsRead ∧ ArithmeticIs ∧ ConversionsAre ∧ ∀ e ∈ floatRules, ∀ (g : BitVec 7) (a : BitVec 12) (s s' : State) (v : Value), VxReads s g a v s' →
    ∃ x f, Lanes (s.guardMask g) s'.myCore.vxo x
        (fun i r => r = (e.2.2 s'.me.rm (lane s'.myCore.vxo i) (lane v.toV i) (lane s'.myCore.vxp i)).1) ∧
      FlagsOf (s.guardMask g) f (fun i => (e.2.2 s'.me.rm (lane s'.myCore.vxo i) (lane v.toV i) (lane s'.myCore.vxp i)).2) ∧
      exec (e.1 g a) s = .next ((s'.pushVxr e.2.1 x).addFlags f).slotDone

/-- R152, R153: quantisation packs four blocks of sixteen lanes, an unselected lane entering as +0, and leaves
zeros after them; dequantisation gives element i mod 16 of block i div 16. -/
def Obligations.VectorQuantiseResults : Prop :=
  (∀ e ∈ quantRules, ∀ (g : BitVec 7) (a : BitVec 12) (s s' : State) (v : Value), VxReads s g a v s' →
    ∃ (y x : Vec) (f : Flags),
      (∀ b < 4, ((vecBytes y).drop (b * e.2.bytes)).take e.2.bytes =
        natBytes e.2.bytes (e.2.encode s'.me.rm ((List.range 16).map fun i =>
          if (s.guardMask g).getLsbD (16 * b + i) then f32Of (lane v.toV (16 * b + i)) else .fin false 0 0)).1) ∧
      (∀ k, 4 * e.2.bytes ≤ k → k < 256 → (vecBytes y).getD k 0 = 0) ∧
      (∀ j < 7, f.getLsbD j = true ↔ ∃ b < 4, (e.2.encode s'.me.rm ((List.range 16).map fun i =>
          if (s.guardMask g).getLsbD (16 * b + i) then f32Of (lane v.toV (16 * b + i)) else .fin false 0 0)).2.getLsbD j = true) ∧
      Lanes (s.guardMask g) s'.myCore.vxo x (fun i r => r = lane y i) ∧
      exec (e.1 g a) s = .next ((s'.pushVxr 8 x).addFlags f).slotDone) ∧
  (∀ e ∈ dequantRules, ∀ (g : BitVec 7) (a : BitVec 12) (s s' : State) (v : Value), VxReads s g a v s' →
    ∃ x, Lanes (s.guardMask g) s'.myCore.vxo x
        (fun i r => r = e.2.lane (leNat (((vecBytes v.toV).drop (i / 16 * e.2.bytes)).take e.2.bytes)) (i % 16)) ∧
      exec (e.1 g a) s = .next ((s'.pushVxr 8 x).addFlags 0).slotDone)

/-- R154: permutes pick lanes of o, and `vget` delivers one to `vx.s` whatever the guard; they stand from
0x237 on. -/
def Obligations.VectorPermuteResults : Prop :=
  (∀ e ∈ permuteRules, ∀ (g : BitVec 7) (a : BitVec 12) (s s' : State) (v : Value), VxReads s g a v s' →
    ∃ x, Lanes (s.guardMask g) s'.myCore.vxo x
        (fun i r => r = if 0 ≤ e.2 v.toV i ∧ e.2 v.toV i < 64 then lane s'.myCore.vxo (e.2 v.toV i).toNat else 0) ∧
      exec (e.1 g a) s = .next ((s'.pushVxr 2 x).addFlags 0).slotDone) ∧
  (∀ (g : BitVec 7) (a : BitVec 12) (s s' : State) (v : Value), VxReads s g a v s' →
    exec (.vxVget g a) s = .next (s'.pushVxs 2 ((if (lane v.toV 0).toNat < 64
      then lane s'.myCore.vxo (lane v.toV 0).toNat else 0).zeroExtend 64)).slotDone) ∧
  (∀ n < 3, ∀ e, permuteRules[n]? = some e → ∀ (g : BitVec 7) (a : BitVec 12),
    decodeSlot 0 (moveWord g (BitVec.ofNat 11 (0x237 + n)) a) = .ok (e.1 g a)) ∧
  ∀ (g : BitVec 7) (a : BitVec 12), decodeSlot 0 (moveWord g 0x23A a) = .ok (.vxVget g a)

/-- R137, R155: integer reductions over the lanes that take part, and floating reductions by the tree, to every selected
lane and to `vx.s`: an integer sign-extended, a float zero-extended.  The flags of a floating one are those of the
63 steps of its tree. -/
def Obligations.VectorReductions : Prop :=
  (∀ e ∈ reduceRules, ∀ (g : BitVec 7) (a : BitVec 12) (s s' : State) (v : Value), VxReads s g a v s' →
    ∃ r x, e.2 (taking (s.guardMask g) v.toV) r ∧
      Lanes (s.guardMask g) s'.myCore.vxo x (fun _ y => y = r) ∧
      exec (e.1 g a) s = .next (((s'.pushVxr 6 x).pushVxs 6 (r.signExtend 64)).addFlags 0).slotDone) ∧
  (∀ e ∈ treeRules, ∀ (g : BitVec 7) (a : BitVec 12) (s s' : State) (v : Value), VxReads s g a v s' →
    let x0 := fun i => if (s.guardMask g).getLsbD i then lane v.toV i else e.2.1
    ∃ r x f, r = tree (fun b c => (e.2.2 s'.me.rm b c).1) 6 x0 ∧
      f = treeFlags (e.2.2 s'.me.rm) 6 x0 ∧
      Lanes (s.guardMask g) s'.myCore.vxo x (fun _ y => y = r) ∧
      exec (e.1 g a) s = .next (((s'.pushVxr 6 x).pushVxs 6 (r.zeroExtend 64)).addFlags f).slotDone)

/-- R138, R156: scans run one chain from lane 0 to lane 63, through the lanes that take no part; the flags of the floating
one are those of its first value and of the 63 steps. -/
def Obligations.VectorScanResults : Prop :=
  (∀ (g : BitVec 7) (a : BitVec 12) (s s' : State) (v : Value), VxReads s g a v s' →
    ∃ x, Lanes (s.guardMask g) s'.myCore.vxo x (fun i r => r = BitVec.ofInt 32
        ((((List.range (i + 1)).filter fun j => (s.guardMask g).getLsbD j).map fun j => (lane v.toV j).toInt).sum)) ∧
      exec (.vxVscan g a) s = .next ((s'.pushVxr 6 x).addFlags 0).slotDone) ∧
  (∀ (g : BitVec 7) (a : BitVec 12) (s s' : State) (v : Value), VxReads s g a v s' →
    ∃ (run : Nat → Lane) (x : Vec) (f : Flags),
      (run 0 = if (f32Of (if (s.guardMask g).getLsbD 0 then lane v.toV 0 else 0x80000000)).isNan then f32Nan
        else if (s.guardMask g).getLsbD 0 then lane v.toV 0 else 0x80000000) ∧
      (∀ i < 63, run (i + 1) = (f32Add s'.me.rm (run i)
        (if (s.guardMask g).getLsbD (i + 1) then lane v.toV (i + 1) else 0x80000000)).1) ∧
      (∀ j < 7, f.getLsbD j = true ↔
        (snanFlag [f32Of (if (s.guardMask g).getLsbD 0 then lane v.toV 0 else 0x80000000)]).getLsbD j = true ∨
        ∃ i < 63, (f32Add s'.me.rm (run i)
          (if (s.guardMask g).getLsbD (i + 1) then lane v.toV (i + 1) else 0x80000000)).2.getLsbD j = true) ∧
      Lanes (s.guardMask g) s'.myCore.vxo x (fun i r => r = run i) ∧
      exec (.vxVfscan g a) s = .next ((s'.pushVxr 6 x).addFlags f).slotDone)

/-- R157, R158: `vtopk` chooses lanes among the selected ones, none that is left out ranking before one that is
chosen, lists them in ranking order, marks them in `vx.m` and counts them in `vx.s`; the keys order the lanes as numbers, and
equal keys by their index. -/
def Obligations.VectorTopkResult : Prop :=
  KeysOrder ∧ (∀ a b : Nat × Nat, ranksBefore a b = true ↔ b.1 < a.1 ∨ a.1 = b.1 ∧ a.2 < b.2) ∧ ∀ (g : BitVec 7) (a : BitVec 12) (s s' : State) (v : Value), VxReads s g a v s' →
    let m := s.guardMask g
    let cfg := (lane s'.myCore.vxp 0).toNat
    let key := fun i => (okey (lane v.toV i) (cfg / 256 % 4), i)
    ∃ (l : List Nat) (x : Vec) (w : Word),
      (∀ i ∈ l, i < 64 ∧ m.getLsbD i = true) ∧ l.Pairwise (fun i j => ranksBefore (key i) (key j) = true) ∧
      l.length = min (min (cfg % 128) 64) ((List.range 64).filter fun i => m.getLsbD i).length ∧
      (∀ i ∈ l, ∀ j < 64, m.getLsbD j = true → j ∉ l → ranksBefore (key i) (key j) = true) ∧
      (∀ i < 64, w.getLsbD i = decide (i ∈ l)) ∧
      Lanes m s'.myCore.vxo x (fun j r => r = match l[j]? with | some i => BitVec.ofNat 32 i | none => 0xFFFFFFFF) ∧
      exec (.vxVtopk g a) s =
        .next (((s'.pushVxr 8 x).pushVxm 8 w).pushVxs 8 (BitVec.ofNat 64 l.length)).slotDone

/-- R159 to R163: a `stopk` whose descriptor is good, whose tag's tile is ready and with none running starts:
markers go into both queues, the tag's ready tag is cleared, and the core holds the operation. -/
def Obligations.StopkStarts : Prop :=
  ∀ (g : BitVec 7) (a : BitVec 12) (s s' : State) (v : Value), VxReads s g a v s' →
    let f := fun i => (lane v.toV i).toNat
    f 4 ≤ 8 → 0 < f 1 → f 1 ≤ 262144 → 0 < f 2 → f 2 ≤ 4096 → f 5 ≤ 15 →
    f 0 % keyBytes (f 4) = 0 → f 3 % 8 = 0 →
    f 0 + f 1 * keyBytes (f 4) ≤ s'.myCore.spadBytes → f 3 + 8 * min (f 2) (f 1) ≤ s'.myCore.spadBytes →
    s'.myCore.stopk = none → s'.myCore.ready (f 5) = true →
    ∃ (t : State) (o : Stopk), exec (.vxStopk g a) s = .next t.slotDone ∧ t.me.epoch = s'.me.epoch + 1 ∧ t.myCore.ready (f 5) = false ∧
      t.myCore.stopk = some o ∧ o.q = s'.cur.q ∧ o.koff = f 0 ∧ o.n = f 1 ∧ o.k = min (f 2) (f 1) ∧ o.ooff = f 3 ∧
      o.ktype = f 4 ∧ o.tag = f 5 ∧ o.spoiled = false

/-- R96, R97, R103 to R106, R110: a load whose queue has room, whose address is aligned and resolves, and whose line
lies in a digest region if it asks for a stamp check, enters the load queue, to land at its offset; so does a gather
whose selected lanes all resolve, with a place for each of them. -/
def Obligations.LoadsEnterQueue : Prop :=
  (∀ e ∈ loadRules, ∀ (g : BitVec 7) (a : BitVec 12) (s s' : State) (v : Value) (l : Loc), Triggers s g a v s' →
    LoadRoom s' → v.toS.toNat % e.2.1 = 0 → s'.resolve s'.cur.core s'.cur.q .load v.toS.toNat = .at l →
    (s'.me.ports.lqb.getLsbD 16 = true → s'.inRegion l = true) →
    ∃ x, exec (e.1 g a) s = .next (s'.enterLoad x).slotDone ∧ Fresh s' x ∧ x.kind = e.2.2.1 ∧ x.cls = e.2.2.2 ∧
      x.parts = [.bytes l e.2.1] ∧
      x.check = (if s'.me.ports.lqb.getLsbD 16 then
        some { stamp := s'.me.ports.lqb.extractLsb' 0 16, pred := s'.me.ports.lqb.extractLsb' 17 6 } else none)) ∧
  (∀ (g : BitVec 7) (a : BitVec 12) (s s' : State) (v : Value), TriggersV s g a v s' → LoadRoom s' →
    (∀ i < 64, (s.guardMask g).getLsbD i = true → laneAt s'.me.ports.lqb v.toV i % 4 = 0 ∧
      ∃ l, s'.resolve s'.cur.core s'.cur.q .load (laneAt s'.me.ports.lqb v.toV i) = .at l) →
    ∃ (x : LoadEntry) (src : List Nat), exec (.lqGth g a) s = .next (s'.enterLoad x).slotDone ∧ Fresh s' x ∧
      x.kind = .gather src ∧ x.cls = .v ∧ src.length = 64 ∧
      ∀ i < 64, if (s.guardMask g).getLsbD i then 1 ≤ src.getD i 0 ∧ ∃ l,
          s'.resolve s'.cur.core s'.cur.q .load (laneAt s'.me.ports.lqb v.toV i) = .at l ∧
          x.parts[src.getD i 0 - 1]? = some (.bytes l 4)
        else src.getD i 0 = 0)

/-- R66, R99, R103: a full load queue traps LOOP_OVERFLOW at a load or a gather, a full store queue freezes the bundle at a
store or a scatter; with room, an address that is not a multiple of the access's size traps MISALIGNED before its
translation is looked at, and at a gather or a scatter the first selected lane that fails its check does.  The slot has
not committed: it traps from the state in which its source is not popped, which is `s'` itself for a source that is no
pop, and for a pop has the queue as it stood before (R57); a slot that has read nothing traps from its own state. -/
def Obligations.AccessChecks : Prop :=
  (∀ e ∈ loadRules, ∀ (g : BitVec 7) (a : BitVec 12) (s s' : State) (v : Value), Triggers s g a v s' →
    (LoadRoom s' → v.toS.toNat % e.2.1 ≠ 0 → exec (e.1 g a) s = trapAt s s' .misaligned v.toS) ∧
    (¬ LoadRoom s' → exec (e.1 g a) s = trapAt s s' .loopOverflow 0)) ∧
  (∀ e ∈ storeRules, ∀ (g : BitVec 7) (a : BitVec 12) (s s' : State) (v : Value), Triggers s g a v s' →
    (s'.me.stores.length < 64 → s'.me.ports.sqo.toNat % e.2 ≠ 0 → exec (e.1 g a) s = trapAt s s' .misaligned s'.me.ports.sqo) ∧
    (64 ≤ s'.me.stores.length → exec (e.1 g a) s = .next (s.holdAt .storeRoom false))) ∧
  (∀ e ∈ vectorStoreRules, ∀ (g : BitVec 7) (a : BitVec 12) (s s' : State) (v : Value), TriggersV s g a v s' →
    (s'.me.stores.length < 64 → s'.me.ports.sqo.toNat % (64 * e.2.1) ≠ 0 →
      exec (e.1 g a) s = trapAt s s' .misaligned s'.me.ports.sqo) ∧
    (64 ≤ s'.me.stores.length → exec (e.1 g a) s = .next (s.holdAt .storeRoom false))) ∧
  (∀ (g : BitVec 7) (a : BitVec 12) (s s' : State) (v : Value), TriggersV s g a v s' →
    (∀ i, LoadRoom s' → FirstMisaligned s s' g .load s'.me.ports.lqb v.toV 64 i →
      exec (.lqGth g a) s = trapAt s s' .misaligned (BitVec.ofNat 64 (laneAt s'.me.ports.lqb v.toV i))) ∧
    (¬ LoadRoom s' → exec (.lqGth g a) s = trapAt s s' .loopOverflow 0) ∧
    (∀ i, s'.me.stores.length < 64 → FirstMisaligned s s' g .store s'.me.ports.sqo v.toV 32 i →
      exec (.sqSct g a) s = trapAt s s' .misaligned (BitVec.ofNat 64 (laneAt s'.me.ports.sqo v.toV i))) ∧
    (64 ≤ s'.me.stores.length → exec (.sqSct g a) s = .next (s.holdAt .storeRoom false))) ∧
  (∀ (a : BitVec 12) (c : Cls) (s s' : State) (v : Value), s.cur.popped = none → readSrc a c s = .val v s' →
    (a ≠ 0x0A9 → a ≠ 0x0AA → a ≠ 0x0AC → s.unread s' = s') ∧
    (a = 0x0A9 ∨ a = 0x0AC → (s.unread s').me = s.me ∧ (s.unread s').mem = s.mem) ∧
    (a = 0x0AA → (s.unread s').myCore = s.myCore ∧ (s.unread s').mem = s.mem)) ∧
  (∀ s : State, s.cur.popped = none → s.unread s = s) ∧ ∀ s : State, s.slotDone.cur.popped = none

/-- R96, R107, R215: a scalar store at an aligned address that resolves enters the store queue with the low bytes
of the moved value, and its line enters RSIG. -/
def Obligations.ScalarStoresEnterQueue : Prop :=
  ∀ e ∈ storeRules, ∀ (g : BitVec 7) (a : BitVec 12) (s s' : State) (v : Value) (l : Loc), Triggers s g a v s' →
    s'.me.stores.length < 64 → s'.me.ports.sqo.toNat % e.2 = 0 →
    s'.resolve s'.cur.core s'.cur.q .store s'.me.ports.sqo.toNat = .at l →
    let part : StorePart := { loc := l, bytes := (List.range e.2).map fun i => some (v.toS.extractLsb' (8 * i) 8) }
    let entry := fun g : Past => ({ order := s'.me.order, epoch := s'.me.epoch, kind := .plain, parts := [part], since := s'.clock, chain := g } : StoreEntry)
    ∃ t : State, exec (e.1 g a) s = .next t.slotDone ∧ t.me.stores = s'.me.stores ++ [entry t.me.chain] ∧
      t.me.order = s'.me.order + 1 ∧
      (t.me.rsig = match l with
        | .mem pa => s'.me.rsig ||| lineBit pa
        | .spad _ _ => s'.me.rsig) ∧
      t.mem = s'.mem ∧ t.cur = s'.cur

/-- R107 to R109: a vector store writes the lanes its guard selects, converted, and leaves the bytes of the others; a
scatter stores lane 32 + i at the address of each selected lane i below 32, in ascending order. -/
def Obligations.VectorStoresEnterQueue : Prop :=
  (∀ e ∈ vectorStoreRules, ∀ (g : BitVec 7) (a : BitVec 12) (s s' : State) (v : Value) (l : Loc), TriggersV s g a v s' →
    s'.me.stores.length < 64 → s'.me.ports.sqo.toNat % (64 * e.2.1) = 0 →
    s'.resolve s'.cur.core s'.cur.q .store s'.me.ports.sqo.toNat = .at l →
    ∃ (t : State) (x : StoreEntry) (p : StorePart) (f : Flags), exec (e.1 g a) s = .next t.slotDone ∧
      t.me.stores = s'.me.stores ++ [x] ∧ x.order = s'.me.order ∧ x.epoch = s'.me.epoch ∧ x.kind = .plain ∧ x.parts = [p] ∧
      p.loc = l ∧ p.bytes.length = 64 * e.2.1 ∧
      (∀ i < 64, ∀ j < e.2.1, p.bytes.getD (i * e.2.1 + j) none = if (s.guardMask g).getLsbD i
        then some ((e.2.2 s'.me.rm (lane v.toV i)).1.extractLsb' (8 * j) 8) else none) ∧
      FlagsOf (s.guardMask g) f (fun i => (e.2.2 s'.me.rm (lane v.toV i)).2) ∧ t.me.lateFlags = s'.me.lateFlags ||| f ∧
      t.mem = s'.mem) ∧
  (∀ (g : BitVec 7) (a : BitVec 12) (s s' : State) (v : Value) (place : Nat → Loc), TriggersV s g a v s' →
    s'.me.stores.length < 64 →
    (∀ i < 32, (s.guardMask g).getLsbD i = true → laneAt s'.me.ports.sqo v.toV i % 4 = 0 ∧
      s'.resolve s'.cur.core s'.cur.q .store (laneAt s'.me.ports.sqo v.toV i) = .at (place i)) →
    ∃ (t : State) (x : StoreEntry), exec (.sqSct g a) s = .next t.slotDone ∧ t.me.stores = s'.me.stores ++ [x] ∧
      x.kind = .plain ∧ x.order = s'.me.order ∧ x.epoch = s'.me.epoch ∧
      x.parts.map (fun p => (p.loc, p.bytes)) = ((List.range 32).filter fun i => (s.guardMask g).getLsbD i).map fun i =>
        (place i, (natBytes 4 (lane v.toV (32 + i)).toNat).map some))

/-- R102, R123: `lq.mark` puts a marker into both queues, and `ag.rfence` one with the emptying of the record
cache that waits for it. -/
def Obligations.MarkersEnterQueues : Prop :=
  ∀ (g : BitVec 7) (a : BitVec 12) (s s' : State) (v : Value), Triggers s g a v s' →
    exec (.lqMark g a) s = .next (s'.modMe fun x => { x with epoch := x.epoch + 1 }).slotDone ∧
    exec (.agRfence g a) s =
      .next ((s'.modMyCore fun k => { k with rfences := k.rfences ++ [(s'.cur.q, s'.me.epoch)] }).modMe
        fun x => { x with epoch := x.epoch + 1 }).slotDone

/-- R45 to R50, R53, R55 to R57, R69, R271: a move writes its destination as `writeDest` says; its source delivers an immediate,
a register, a result or what else its address names, and the classes convert; the empty slot and `nop` do nothing; a wide
immediate is a move of its sign-extended value and starts a unit when it goes to a trigger; a header occupies its slot and
sets the extensions. -/
def Obligations.MoveResults : Prop :=
  (∀ (s : State) (k : Cls), SourceDelivers s k) ∧ ClassesConvert ∧
  (∀ (g : BitVec 7) (d : BitVec 11) (a : BitVec 12) (s s' : State) (v : Value), ¬(g = 0 ∧ d = 0 ∧ a = 0) → Moves s g d a v s' →
    exec (.move g d a) s = .next (writeDest d.toNat (moveMask s g d) v s').slotDone) ∧
  (∀ s : State, s.cur.live = true → exec (.move 0 0 0) s = .next s.slotDone) ∧
  (∀ (c : BitVec 6) (i : BitVec 1) (r : BitVec 18) (s : State), s.cur.live = true → exec (.nop c i r) s = .next s.slotDone) ∧
  (∀ (d : BitVec 11) (imm : BitVec 19) (s : State), s.cur.live = true → d.toNat < 0xB4 → s.mayReach (destUnit d.toNat) = true →
    exec (.wideImmediateMove d imm) s = .next (writeDest d.toNat Word.ones (.s (imm.signExtend 64)) s).slotDone) ∧
  (∀ (d : BitVec 11) (imm : BitVec 19) (s : State) (i : Instr), triggerOf 0 d.toNat (wideSource imm) = some i →
    exec (.wideImmediateMove d imm) s = runSlot (fun s => slotSem i (s.wideExt imm)) s) ∧
  (∀ (imm : BitVec 19) (s : State), s.cur.slot < 4 →
    readSrc (wideSource imm) .s (s.wideExt imm) = .val (.s (imm.signExtend 64)) (s.wideExt imm)) ∧
  (∀ (nm e1 e2 e3 : BitVec 1) (x1 x2 x3 : BitVec 8) (s : State), s.cur.live = true →
    ∃ t, exec (.header nm e1 e2 e3 x1 x2 x3) s = .next (State.slotDone t) ∧
      t.cur.ext = [none, if e1 = 1 then some x1 else none, if e2 = 1 then some x2 else none, if e3 = 1 then some x3 else none] ∧
      t = { s with cur := { s.cur with ext := t.cur.ext } })

/-- R11, R53, R55, R58: what a write of a register or an operand port leaves: one of class S takes the value whole, a
vector or a predicate one takes the lanes or bits of the mask, p0 discards every write, and no other register or port
changes. -/
def Obligations.RegisterWrites : Prop :=
  (∀ (d : Nat) (m : Word) (v : Value) (s : State), d < 0xA0 →
    let t := writeDest d m v s
    (∀ n, t.me.sreg n = if d < 0x40 ∧ n = d then v.toS else s.me.sreg n) ∧
    (∀ n, n ≠ d - 0x40 ∨ d < 0x40 ∨ 0x60 ≤ d → t.me.vreg n = s.me.vreg n) ∧
    (0x40 ≤ d → d < 0x60 → ∀ i < 64, lane (t.me.vreg (d - 0x40)) i =
      if m.getLsbD i then lane v.toV i else lane (s.me.vreg (d - 0x40)) i) ∧
    (∀ n, n ≠ d - 0x60 ∨ d < 0x60 → t.me.preg n = s.me.preg n) ∧
    (0x60 < d → ∀ i < 64, (t.me.preg (d - 0x60)).getLsbD i = if m.getLsbD i then v.toP.getLsbD i else (s.me.preg (d - 0x60)).getLsbD i) ∧
    (d = 0x60 → t.me.preg 0 = Word.ones) ∧
    (∀ e ∈ scalarPorts, e.2 t = e.2 s) ∧ (∀ e ∈ vecPorts, e.2 t = e.2 s) ∧
    (∀ c q, c ≠ s.cur.core ∨ q ≠ s.cur.q → t.seq c q = s.seq c q) ∧
    t.mem = s.mem ∧ t.me.ports = s.me.ports ∧ t.me.results = s.me.results ∧ t.me.fpctl = s.me.fpctl ∧ t.cur = s.cur) ∧
  ∀ (m : Word) (v : Value) (s : State),
    (∀ e ∈ scalarPorts, e.2 (writeDest e.1 m v s) = v.toS) ∧
    (∀ e ∈ vecPorts, ∀ i < 64, lane (e.2 (writeDest e.1 m v s)) i = if m.getLsbD i then lane v.toV i else lane (e.2 s) i) ∧
    (∀ i < 64, (writeDest 0xA4 m v s).me.ports.plo.getLsbD i = if m.getLsbD i then v.toP.getLsbD i else s.me.ports.plo.getLsbD i) ∧
    (∀ d, 0xA0 ≤ d → d < 0xB4 →
      let t := writeDest d m v s
      (∀ n, t.me.sreg n = s.me.sreg n) ∧ (∀ n, t.me.vreg n = s.me.vreg n) ∧ (∀ n, t.me.preg n = s.me.preg n) ∧
      (∀ e ∈ scalarPorts, e.1 ≠ d → e.2 t = e.2 s) ∧ (∀ e ∈ vecPorts, e.1 ≠ d → e.2 t = e.2 s) ∧ (d ≠ 0xA4 → t.me.ports.plo = s.me.ports.plo) ∧
      t.mem = s.mem ∧ t.me.results = s.me.results ∧ t.me.fpctl = s.me.fpctl ∧ t.cur = s.cur)

/-- R65, R77, R78, R98, R100, R110, R111, R229: the pops.  `lq.pop` tries the head of the load queue in the order of its
checks: an empty queue, a landing not reached, data not there, a mark; else its value goes to the destination and it leaves
the queue, its stamp result going to its predicate.  The queue is that of the start of the cycle: an entry placed by an
earlier slot of the bundle is not there yet.  The count queue is first in, first out, an empty one traps QUEUE_EMPTY and a
33rd entry LOOP_OVERFLOW; `cx.pop` delivers the oldest vector, freezes on an empty queue and traps LINK on a poisoned one.
A pop of the count queue that
its guard bit 0 turns off takes nothing out, wherever it goes; that the rule for class S holds for every destination is the
model's reading of R78 (log entry 131).  That a stamp result is written before the destination is merged over it is the model's
choice (108). -/
def Obligations.QueuePops : Prop :=
  (∀ (g : BitVec 7) (d : BitVec 11) (s : State), s.cur.live = true → d.toNat < 0xB4 → s.mayReach (destUnit d.toNat) = true →
    (destCls d.toNat = .s → (s.guardMask g).getLsbD 0 = true) →
    (popFirst s.me.loadQueue = none → exec (.lqPop g d) s = trapNow s .queueEmpty 0) ∧
    (∀ e r, popFirst s.me.loadQueue = some (e, r) →
      if s.cur.order ≤ e.order then exec (.lqPop g d) s = trapNow s .queueEmpty 0
      else if s.me.handler = false ∧ s.me.cycle < e.landing then exec (.lqPop g d) s = trapNow s .earlyPop 0
      else if e.arrived = false then exec (.lqPop g d) s = .next (s.holdAt .popData false)
      else match e.mark with
        | some c => exec (.lqPop g d) s = .next ((s.unread s).takeTrap (s.unread s).cur.core (s.unread s).cur.q c
            (s.unread s).cur.slot e.markAddr (some .load) false (s.unread s).cur.addr).endIssue
        | none => exec (.lqPop g d) s = .next (writeDest d.toNat (moveMask s g d) e.value
            ((s.setMe (applyStamp e (s.me.setLoadQueue r))).took 0xA9 e.value)).slotDone)) ∧
  (∀ (l : List LoadEntry),
    (popFirst l = none ↔ ∀ e ∈ l, e.silent = true) ∧
    ∀ e r, popFirst l = some (e, r) → e.silent = false ∧
      ∃ a b, l = a ++ e :: b ∧ r = a ++ b ∧ ∀ x ∈ a, x.silent = true) ∧
  (∀ (g : BitVec 7) (d : BitVec 11) (s : State), s.cur.live = true → d.toNat < 0xB4 → s.mayReach (destUnit d.toNat) = true →
    ((s.guardMask g).getLsbD 0 = false → exec (.cqPop g d) s = .next s.slotDone) ∧
    ((s.guardMask g).getLsbD 0 = true → match s.me.countQueue with
    | [] => exec (.cqPop g d) s = trapNow s .queueEmpty 0
    | w :: r => exec (.cqPop g d) s = .next (writeDest d.toNat (moveMask s g d) (.s w)
        ((s.modMe fun x => { x with countQueue := r }).took 0xAC (.s w))).slotDone)) ∧
  (∀ (g : BitVec 7) (a : BitVec 12) (s s' : State) (v : Value), Triggers s g a v s' →
    if s'.me.countQueue.length < 32 then
      exec (.cqPush g a) s = .next (s'.modMe fun x => { x with countQueue := x.countQueue ++ [v.toS] }).slotDone
    else exec (.cqPush g a) s = trapAt s s' .loopOverflow 0) ∧
  (∀ (g : BitVec 7) (d : BitVec 11) (s : State), s.cur.live = true → d.toNat < 0xB4 → s.mayReach (destUnit d.toNat) = true →
    (destCls d.toNat = .s → (s.guardMask g).getLsbD 0 = true) → s.mayReach (some .cx) = true →
    match s.noteCircuit.myCore.circuit with
    | [] => exec (.cxPop g d) s = .next (s.holdAt .circuitPop false)
    | e :: r =>
      if e.poisoned then
        let u := s.unread s.noteCircuit
        exec (.cxPop g d) s = .next (u.takeTrap u.cur.core u.cur.q .link u.cur.slot 0 (some .circuit) false u.cur.addr).endIssue
      else
        let u := (s.noteCircuit.modMyCore fun k => { k with circuit := r }).took 0xAA (.v e.val)
        exec (.cxPop g d) s = .next (writeDest d.toNat (moveMask s g d) (.v e.val)
          { u with cur := { u.cur with taken := e.chain, takenAt := s.me.order } }).slotDone)

/-- R117 to R119, R121: `ag.sset` writes the field of a stream that its code names with the low bits of `ag.o`, drops what
the stream caches unless the field is POS, and traps on a code of 9 to 15; `ag.sadv` adds to POS modulo 2^32; a new POS
drops the frame of a page that it leaves; `ag.srld` takes the description from the record that has been read. -/
def Obligations.StreamRegisterResults : Prop :=
  (∀ (g : BitVec 7) (a : BitVec 12) (s s' : State) (v : Value), Triggers s g a v s' →
    let n := v.toS.toNat % 8
    let f := v.toS.toNat / 16 % 16
    (∀ e ∈ streamFields s'.me.ports.ago, e.1 = f →
      exec (.agSset g a) s = .next (s'.modMe fun x => x.setStream n (e.2 { x.stream n with page := none, frame := none })).slotDone) ∧
    (f = 8 → ∃ d : Stream, exec (.agSset g a) s = .next (s'.modMe fun x => x.setStream n d).slotDone ∧
      MovedTo (s'.me.stream n) d (s'.me.ports.ago.truncate 32)) ∧
    (9 ≤ f → exec (.agSset g a) s = trapAt s s' .shapeRecord 0)) ∧
  (∀ (g : BitVec 7) (a : BitVec 12) (s s' : State) (v : Value), Triggers s g a v s' →
    let n := v.toS.toNat % 8
    ∃ d : Stream, exec (.agSadv g a) s = .next (s'.modMe fun x => x.setStream n d).slotDone ∧
      MovedTo (s'.me.stream n) d (BitVec.ofNat 32 ((s'.me.stream n).pos.toNat + s'.me.ports.ago.toNat))) ∧
  (∀ (g : BitVec 7) (a : BitVec 12) (s s' : State) (v : Value) (b : List Byte), Triggers s g a v s' →
    s'.me.recordBuf = some (some b) →
    if recordValid b then
      exec (.agSrld g a) s = .next (s'.modMe fun x => x.setStream (v.toS.toNat % 8) (parseShape b).stream).slotDone
    else exec (.agSrld g a) s = trapAt s s' .shapeRecord 0)

/-- R120 to R122, R290: a stream whose description is not valid, or with mode 0 whose POS is no row of it, traps SHAPE_RECORD.
With mode 0 the row is at BASE + POS × RSTRIDE; with mode 1 the token POS of the sequence KVSEQ has its row in the frame that
the sequence's page list names for its page, or that the stream has kept for that page, and a KVSEQ at or beyond NSEQ, or a
token at or beyond LENGTH, traps KV_BOUNDS.  `ag.sld` enters the row into the load queue; `ag.sst` puts its address into `sq.o`,
where the frame is neither read-only (PROTECTION, with the row's address) nor shared (KV_COW); a trap with a fault record drops
the kept frame; and POS advances when t[3] is 1.  That a translation which misses on the way freezes the bundle first is R203's.
Whether a kept frame is used, or its page list read again, is open (`known`). -/
def Obligations.StreamRowResults : Prop :=
  ∀ (g : BitVec 7) (a : BitVec 12) (s s' : State) (v : Value) (place : Nat → Loc), Triggers s g a v s' →
    let n := v.toS.toNat % 8
    let adv := v.toS.getLsbD 3
    let d := s'.me.stream n
    let (kv, pos) := (d.kvseq.toNat, d.pos.toNat)
    let both := [Instr.agSld g a, .agSst g a]
    let u := s'.modMe fun x => x.setStream n { d with frame := none }
    let fault := fun (reason frame page : Nat) =>
      { faultOf kv reason pos frame page with fbase := d.base.toNat, rstride := d.rstride.toNat }
    (d.valid = false ∨ d.mode = 0 ∧ d.rows.toNat ≤ pos → ∀ i ∈ both, exec i s = trapAt s s' .shapeRecord 0) ∧
    (d.mode = 0 → d.valid = true → pos < d.rows.toNat →
      let row := BitVec.ofNat 64 d.base.toNat + BitVec.ofNat 64 pos * d.rstride
      (RowReady s' n .load row place → LoadRoom s' → RowStamped s' n row place → RowLoads (exec (.agSld g a) s) s' n row none adv place) ∧
      (RowReady s' n .store row place → RowPuts (exec (.agSst g a) s) s' n row none adv)) ∧
    (d.mode ≠ 0 → d.valid = true →
      (∀ va, s'.kvDesc s'.cur.core s'.cur.q = .error (.miss va) → ∀ i ∈ both, exec i s = kvFreezes s s' va) ∧
      (s'.kvDesc s'.cur.core s'.cur.q = .ok none → ∀ i ∈ both, exec i s = kvTraps s u .kvBounds 0 (fault 5 noFrame 0)) ∧
      ∀ k, s'.kvDesc s'.cur.core s'.cur.q = .ok (some k) →
        (k.nseq ≤ kv → ∀ i ∈ both, exec i s = kvTraps s u .kvBounds k.faults (fault 5 noFrame 0)) ∧
        ∀ e, kv < k.nseq → s'.kvSeq s'.cur.core s'.cur.q k kv = .ok e →
          (e.length ≤ pos → ∀ i ∈ both, exec i s = kvTraps s u .kvBounds k.faults (fault 1 noFrame (pos / 16))) ∧
          ∀ f w : Nat, pos < e.length →
            (d.known s' = some f ∧ d.frame = some (pos / 16, f) ∨ d.known s' = none ∧ tabWord s' (e.plist + 4 * (pos / 16)) 4 f) →
            let row := BitVec.ofNat 64 d.base.toNat + BitVec.ofNat 64 (f * 16) * d.rstride + BitVec.ofNat 64 (pos % 16) * d.rstride
            (RowReady s' n .load row place → LoadRoom s' → RowStamped s' n row place →
              RowLoads (exec (.agSld g a) s) s' n row (some (pos / 16, f)) adv place) ∧
            (tabWord { s' with choices := s'.choices + 1 } (k.frtab + 8 * f) 8 w →
              (w / 65536 % 2 = 1 → exec (.agSst g a) s = trapAt s s' .protection row) ∧
              (w / 65536 % 2 = 0 → 1 < w % 65536 → exec (.agSst g a) s =
                kvTraps s { u with choices := s'.choices + 1 } .kvCow k.faults (fault 0 f (pos / 16))) ∧
              (w / 65536 % 2 = 0 → w % 65536 ≤ 1 → RowReady s' n .store row place →
                RowPuts (exec (.agSst g a) s) s' n row (some (pos / 16, f)) adv)))

/-- R79 to R83, R204: `cr.rd` delivers a control register's value, `cr.wr` the old value and writes at the end of the
cycle, `cr.tlbinv` has its translations dropped at the end of the cycle and, with bit 1, waits for the other sequencers
of its address space first, no walk of the space starting before the stores ordered before it from its trigger on; `cr.cinv`
waits for what was triggered before it, for the translations of its pieces, and for the dirty sectors of the lines they name,
and then drops those lines; `cr.trace` acts on the trace; each writes `cr.r` with L = 2.  What each register reads as and what
a write of it leaves is as the registers' tables say, and the cycle's end makes the writes in their order, then the flags.
The model's choices: a range above 4 MiB drops every line (log entry 12), `cr.cinv` with `cr.o` 0 writes 0 and does not wait
(96), the wait of a `cr.tlbinv` with bit 1 is one clock at least (33). -/
def Obligations.ControlRegisterResults : Prop :=
  (∀ (g : BitVec 7) (a : BitVec 12) (s s' : State) (v : Value), Triggers s g a v s' →
    let c := v.toS.toNat
    let o := s'.me.ports.cro
    (c ∈ [0x000, 0x001, 0x002, 0x003, 0x004, 0x010, 0x020, 0x030, 0x040, 0x100, 0x101] →
      (c = 0x100 ∨ c = 0x101 → s'.me.asid = 0) →
      exec (.crRd g a) s = .next (s'.pushRes ResPorts.onCrr 2 (.s (s'.creg s'.cur.core s'.cur.q c))).slotDone ∧
      exec (.crWr g a) s = .next ((s'.pushRes ResPorts.onCrr 2 (.s (s'.creg s'.cur.core s'.cur.q c))).modMe
        fun x => { x with late := x.late ++ [.creg c x.ports.cro] }).slotDone) ∧
    (c ∉ [0x000, 0x001, 0x002, 0x003, 0x004, 0x010, 0x020, 0x030, 0x040, 0x100, 0x101] →
      exec (.crRd g a) s = trapAt s s' .reservedPort 0 ∧ exec (.crWr g a) s = trapAt s s' .reservedPort 0) ∧
    (c = 0x100 ∨ c = 0x101 → s'.me.asid ≠ 0 →
      exec (.crRd g a) s = trapAt s s' .privilege 0 ∧ exec (.crWr g a) s = trapAt s s' .privilege 0) ∧
    (o.getLsbD 1 = false ∨ s'.me.done = true →
      exec (.crTlbinv g a) s = .next ((s'.modMe fun x => { x with
        late := x.late ++ [.drop (o.getLsbD 0) c], invEpoch := x.epoch }).pushRes ResPorts.onCrr 2 (.s 0)).slotDone) ∧
    (o.getLsbD 1 = true → s'.me.done = false → ∃ left : List (Nat × Nat),
      (∀ u, u ∈ left ↔ u ≠ (s'.cur.core, s'.cur.q) ∧ u.1 ∈ s'.coreIds ∧ u.2 < 2 ∧ (s'.seq u.1 u.2).asid = s'.me.asid) ∧
      exec (.crTlbinv g a) s = waitAt s (s'.modMe fun x => { x with invEpoch := x.epoch }) (.invalidate (o.getLsbD 0) c left)) ∧
    (o = 0 → exec (.crCinv g a) s = .next (s'.pushRes ResPorts.onCrr 2 (.s 0)).slotDone) ∧
    (o ≠ 0 →
      let lines := s'.rangeLines s'.cur.core s'.cur.q c o.toNat
      let dirty := lines.filter s'.myCore.lineDirty
      if s'.me.stores = [] ∧ ∀ e ∈ s'.me.loads ++ s'.me.handlerLoads, e.performed = true then
        if ∃ p ∈ cinvPieces c o.toNat, s'.me.tlbHit p.1 = none ∧ s'.me.walkFailed s'.me.asid p.1 = false then
          ∃ p ∈ cinvPieces c o.toNat, s'.me.tlbHit p.1 = none ∧ s'.me.walkFailed s'.me.asid p.1 = false ∧
            exec (.crCinv g a) s = waitAt s s' (.walk s'.me.asid (p.1 / 65536 * 65536))
        else if dirty = [] then exec (.crCinv g a) s =
          .next ((s'.modMyCore fun k => { k with cache := k.cache.filter fun l => !lines.contains l.line }).pushRes ResPorts.onCrr 2 (.s 0)).slotDone
        else exec (.crCinv g a) s = waitAt s s' (.cinv dirty)
      else exec (.crCinv g a) s = waitAt s s' (.cinv [])) ∧
    (∀ w, w ∈ s'.rangeLines s'.cur.core s'.cur.q c o.toNat ↔ (∃ l ∈ s'.myCore.cache, l.line = w) ∧
      (4194304 < min (c + o.toNat) (2 ^ 56) - c ∨
        ∃ p ∈ cinvPieces c o.toNat, ∃ x, s'.me.tlbHit p.1 = some x ∧ s'.inMemory (x.phys p.1) = true ∧ w ∈ unitsOf 256 (x.phys p.1) p.2)) ∧
    (exec (.crTrace g a) s = .next ((match c % 4 with
      | 0 => s'.traceMarker s'.cur.core s'.cur.q (o.toNat % 2 ^ 32)
      | 1 => s'.traceStart s'.cur.core s'.cur.q
      | 2 => s'.traceStop s'.cur.core s'.cur.q
      | _ => s').pushRes ResPorts.onCrr 2 (.s 0)).slotDone)) ∧
  (∀ (c q : Nat) (s : State), CregReads s c q ∧ (∀ v, CregWrites s c q v) ∧
    ∀ n : Word, let x := s.seq c q
      let u := x.late.foldl (fun s e => s.applyOne c q e) s
      let (t, y, z) := (s.finishCycle c q n, (s.finishCycle c q n).seq c q, u.seq c q)
      y.late = [] ∧ y.lateFlags = 0 ∧ y.pc = n ∧ y.fpctl = orFlags (orFlags z.fpctl x.lateFlags) (z.flagsOf s.clock) ∧
        y.trapvec = z.trapvec ∧ y.xpc = z.xpc ∧ y.remtime = z.remtime ∧ y.tracectl = z.tracectl ∧ y.cause = z.cause ∧ y.rslot = z.rslot ∧
        y.step = z.step ∧ y.clrHead = z.clrHead ∧ t.digbase = u.digbase ∧ t.dies = u.dies) ∧
  ∀ (c q va : Nat) (all : Bool) (s : State),
    let x := s.seq c q
    let y := (s.applyOne c q (.drop all va)).seq c q
    y.tlb = x.tlb.filter (fun p => !(p.asid == x.asid && (all || p.covers x.asid va))) ∧
    (∀ e ∈ y.streams, ∀ p, e.2.page = some p → (p.asid == x.asid && (all || p.covers x.asid va)) = false) ∧
    y.loads = x.loads ∧ y.handlerLoads = x.handlerLoads ∧ y.stores = x.stores ∧ y.results = x.results

/-- R85: a mixed condition traps NONUNIFORM_BRANCH; one of all zeros leaves the sequencer to go on. -/
def Obligations.ConditionDecides : Prop :=
  ∀ f ∈ conditional, ∀ (c : BitVec 6) (i : BitVec 1) (x : BitVec 18) (s : State), s.cur.live = true →
    (conditionOf s c i = 0 → exec (f c i x) s = .next (decided s c i false).slotDone) ∧
    (conditionOf s c i ≠ 0 → conditionOf s c i ≠ Word.ones → exec (f c i x) s = trapNow s .nonuniformBranch 0)

/-- R84, R86: the branches that are taken: where the sequencer goes on, what `call` writes to s63, that `br.pop` and
`brx.pop` pop the innermost loop entry, and that a target that is no multiple of 16 traps with nothing done. -/
def Obligations.BranchResults : Prop :=
  ∀ (c : BitVec 6) (i p : BitVec 1) (s : State), s.cur.live = true → conditionOf s c i = Word.ones →
    let b := decided s c i true
    let left := if p = 1 then b.me.loopStack.tail else b.me.loopStack
    (∀ off : BitVec 17, ∃ t : State, exec (.br c i p off) s = .next t.slotDone ∧
      t.cur.next = some (BitVec.ofInt 64 (s.cur.addr.toInt + 16 * off.toInt)) ∧ t.me.loopStack = left) ∧
    (∀ off : BitVec 18, ∃ t : State, exec (.call c i off) s = .next t.slotDone ∧
      t.cur.next = some (BitVec.ofInt 64 (s.cur.addr.toInt + 16 * off.toInt)) ∧ t.me.sreg 63 = s.cur.addr + 16 ∧
      ∀ n ≠ 63, t.me.sreg n = s.me.sreg n) ∧
    (∀ r : BitVec 6, if (s.me.sreg r.toNat).toNat % 16 = 0 then
        ∃ t : State, exec (.brx c i p r) s = .next t.slotDone ∧ t.cur.next = some (s.me.sreg r.toNat) ∧ t.me.loopStack = left
      else exec (.brx c i p r) s = trapNow s .misaligned (s.me.sreg r.toNat)) ∧
    (if (s.me.sreg 63).toNat % 16 = 0 then
        ∃ t : State, exec (.ret c i) s = .next t.slotDone ∧ t.cur.next = some (s.me.sreg 63) ∧ t.me.loopStack = b.me.loopStack
      else exec (.ret c i) s = trapNow s .misaligned (s.me.sreg 63))

/-- R78, R87, R88, R95: a loop with a count starts its body and goes onto the loop stack, one of count 0 goes past its last
bundle; a seventh loop traps LOOP_OVERFLOW, `loopq` takes its count from the count queue, and `li`k
reads the passes of the entry k places out.  At the end of a bundle whose slot 3 has set no next bundle, the innermost entries
that end there and have one pass left go, and the next entry out, if it ends there too, counts its pass and leads back to its
start; else the next bundle follows.  Where slot 3 has set the next bundle, or a slot has trapped, no entry changes. -/
def Obligations.LoopResults : Prop :=
  (∀ s : State, (s.cur.live = false → s.endBundle = s) ∧ (s.cur.live = true →
    let y := s.endBundle.seq s.cur.core s.cur.q
    (∀ n, s.cur.next = some n → y.loopStack = s.me.loopStack ∧ y.pc = n) ∧
    ∀ done rest, s.cur.next = none → s.me.loopStack = done ++ rest → (∀ e ∈ done, e.stop = s.cur.addr ∧ e.remaining = 1) →
      (∀ e, rest.head? = some e → ¬ (e.stop = s.cur.addr ∧ e.remaining = 1)) →
      match rest with
      | [] => y.loopStack = [] ∧ y.pc = s.cur.addr + 16
      | e :: outer => if e.stop = s.cur.addr
        then y.loopStack = { e with passes := e.passes + 1, remaining := e.remaining - 1 } :: outer ∧ y.pc = e.start
        else y.loopStack = rest ∧ y.pc = s.cur.addr + 16)) ∧
  ∀ (fin : BitVec 12) (s : State), s.cur.live = true →
    let last := s.cur.addr + 16 * (fin.zeroExtend 64 + 1)
    let entry := fun n : Word => ({ start := s.cur.addr + 16, stop := last, remaining := n, passes := 0 } : LoopEntry)
    (∀ r : BitVec 6, if 6 ≤ s.me.loopStack.length then exec (.loop r fin) s = trapNow s .loopOverflow 0
      else ∃ t : State, exec (.loop r fin) s = .next t.slotDone ∧
        if s.me.sreg r.toNat = 0 then t.cur.next = some (last + 16) ∧ t.me.loopStack = s.me.loopStack
        else t.cur.next = some (s.cur.addr + 16) ∧ t.me.loopStack = entry (s.me.sreg r.toNat) :: s.me.loopStack) ∧
    (match s.me.countQueue with
      | [] => exec (.loopq fin) s = trapNow s .queueEmpty 0
      | n :: rest => if 6 ≤ s.me.loopStack.length then exec (.loopq fin) s = trapNow s .loopOverflow 0
        else ∃ t : State, exec (.loopq fin) s = .next t.slotDone ∧ t.me.countQueue = rest ∧
          if n = 0 then t.cur.next = some (last + 16) ∧ t.me.loopStack = s.me.loopStack
          else t.cur.next = some (s.cur.addr + 16) ∧ t.me.loopStack = entry n :: s.me.loopStack) ∧
    ∀ (k : Nat) (cls : Cls), k < 6 → readSrc (BitVec.ofNat 12 (0xAD + k)) cls s =
      .val (.s ((s.me.loopStack.map (·.passes)).getD k 0)) s

/-- R18 to R20, R32, R33, R90, R91, R93, R94: the other control words.  `halt` ends the unit: its load queue, count queue
and loop stack are emptied, its stores stay, and the leases it holds pass to the other sequencer when that one runs, with
their results made visible.  `trap` and `brk` trap after their bundle, at the next one.  `wake` starts the other sequencer
as a new unit when it is idle, waits while it ends and does nothing when it runs.  `cede` makes the results of the units it
names visible and hands them over at the end of the cycle.  `wait` goes on once what its mask names is done. -/
def Obligations.UnitControlResults : Prop :=
  (∀ (c : BitVec 6) (i : BitVec 1) (s : State), s.cur.live = true → conditionOf s c i = Word.ones →
    (∃ t : State, exec (.halt c i) s = .next t ∧ t.cur.live = false ∧
      let k := s.myCore
      let u := t.core s.cur.core
      let y := u.seq s.cur.q
      let m := heldBits k s.cur.q
      let other := (k.seq (1 - s.cur.q)).run
      y.run = .ending ∧ y.countQueue = [] ∧ y.loops = [] ∧ y.handlerLoops = [] ∧ y.handlerLoads = [] ∧ y.handler = false ∧
        y.hold = none ∧ y.stores = s.me.stores ∧ (∀ e ∈ y.loads, e.silent = true) ∧ u.seq (1 - s.cur.q) = k.seq (1 - s.cur.q) ∧
        if other = .running ∨ other = .parked then HandedOver k u s.cur.q m
        else u.nextHold = k.nextHold ∧ u.nextHeld = k.nextHeld ∧ (m.getLsbD 0 = true →
          ∀ p ∈ vxPorts, p u = { cur := { trig := 0, vis := 0, val := ((p k).current (k.seq s.cur.q).cycle).val }, queue := [] })) ∧
    ∀ x : BitVec 16,
      let b := (decided s c i true).modMe fun x => { x with stepping := false }
      let e := fun k : Cause => Host.Outcome.next (φ := Fault) (ρ := Refusal)
        ((b.finishCycle b.cur.core b.cur.q (s.cur.addr + 16)).takeTrap s.cur.core s.cur.q k 0 0 none false (s.cur.addr + 16)).endIssue
      exec (.trap c i x) s = e .trapInstr ∧ exec (.brk c i x) s = e .breakpoint) ∧
  (∀ (c : BitVec 6) (i : BitVec 1) (off : BitVec 18) (s : State), s.cur.live = true → conditionOf s c i = Word.ones →
    let b := decided s c i true
    match (b.myCore.seq (1 - b.cur.q)).run with
    | .idle => ∀ id l, b.myCore.launch = some id → b.launch id = some l →
      ∃ t : State, exec (.wake c i off) s = .next t.slotDone ∧
        FreshUnit ((t.core s.cur.core).seq (1 - s.cur.q)) l b.myCore.position (BitVec.ofInt 64 (s.cur.addr.toInt + 16 * off.toInt)) ∧
        t.launch id = some { l with counter := l.counter + 1 } ∧ t.me = b.me ∧ t.mem = b.mem ∧
        (1 - s.cur.q = 1 → t.myCore.lost = 0) ∧ t.myCore.nextHold = b.myCore.nextHold ∧ t.myCore.nextHeld = b.myCore.nextHeld
    | .ending => exec (.wake c i off) s = waitAt s s .wake
    | _ => exec (.wake c i off) s = .next b.slotDone) ∧
  (∀ (m : BitVec 7) (s : State), s.cur.live = true →
    (m = 0 → exec (.cede m) s = .next s.slotDone) ∧
    (m ≠ 0 → (s.me.handler = true ∨ ∃ b < 7, m.getLsbD b = true ∧ s.myCore.holds s.cur.q b = false) →
      exec (.cede m) s = trapNow s .unitNotOwned 0) ∧
    (m ≠ 0 → s.me.handler = false → (∀ b < 7, m.getLsbD b = true → s.myCore.holds s.cur.q b = true) →
      if s.myCore.inFlight m = true ∧ s.me.done = false then exec (.cede m) s = waitAt s s (.cede m)
      else ∃ t : State, exec (.cede m) s = .next t.slotDone ∧ HandedOver s.myCore t.myCore s.cur.q m ∧
        t.myCore.hold = s.myCore.hold ∧ t.myCore.seqs = s.myCore.seqs ∧ t.mem = s.mem ∧
        (t.myCore.vxo, t.myCore.vxp, t.myCore.mxo, t.myCore.tfo, t.myCore.cxo, t.myCore.kvo, t.myCore.epo) =
          (s.myCore.vxo, s.myCore.vxp, s.myCore.mxo, s.myCore.tfo, s.myCore.cxo, s.myCore.kvo, s.myCore.epo) ∧
        t.myCore.mxOps = s.myCore.mxOps ∧ t.myCore.tfOps = s.myCore.tfOps ∧ t.myCore.stopk = s.myCore.stopk)) ∧
  (∀ (ld st : BitVec 1) (tiles : BitVec 16) (s : State), s.cur.live = true →
    let passed := (∀ t < 16, tiles.getLsbD t = true → mapGet false s.myCore.notReady t = false) ∧
      (st = 1 → (s.myCore.seq s.cur.q).stores = []) ∧ (ld = 1 → ∀ e ∈ (s.myCore.seq s.cur.q).loadQueue, e.arrived = true)
    (passed → exec (.wait ld st tiles) s = .next s.slotDone) ∧
    (¬ passed → exec (.wait ld st tiles) s = waitAt s s (.wait (ld ++ (st ++ tiles : BitVec 17)))))

/-- R167, R170, R179: `mma` starts when its tiles are free, its operands agree and its output fits.  That it looks at no bit
which R170 says is 0 is the model's reading (log entry 101). -/
def Obligations.MatrixProductStarts : Prop :=
  ∀ (g : BitVec 7) (a : BitVec 12) (s s' : State) (v : Value), Leased .mx s g a v s' →
    let t := v.toS.toNat
    let k := s'.myCore
    let (d, ta, tb, n, acc) := (t % 16, t / 16 % 16, t / 256 % 16, t / 8192 % 4 + 1, decide (t / 4096 % 2 = 1))
    let reads := (List.range n).map (ta + ·) ++ (List.range n).map (tb + ·)
    let fmt := (k.tile ta).fmt
    let out := if fmt = 2 then 6 else 7
    fmt ∈ [2, 8, 9, 10, 11, 12] → TilesFree k [d] reads k.mxOps 4 → ProductOperands k ta tb n fmt 1 →
    ((List.range n).map fun i => (k.tile (ta + i)).cols).sum ≤ 256 →
    ProductOutput k d (k.tile ta).rows (k.tile tb).cols out acc reads →
    ∃ (u : State) (op : TileOp), exec (.mxMma g a) s = .next u.slotDone ∧
      op.kind = .product d ta tb n acc (v.toS.getLsbD 15) ∧
      MxStarted s' u op d (granulesOf out (k.tile ta).rows (k.tile tb).cols) reads

/-- R185: `mmas` starts with metadata that fits its shape and names two positions in rising order in every nibble. -/
def Obligations.SparseProductStarts : Prop :=
  ∀ (g : BitVec 7) (a : BitVec 12) (s s' : State) (v : Value), Leased .mx s g a v s' →
    let t := v.toS.toNat
    let k := s'.myCore
    let (d, ta, tb, n, acc, mt) := (t % 16, t / 16 % 16, t / 256 % 16, t / 8192 % 4 + 1, decide (t / 4096 % 2 = 1), t / 32768 % 16)
    let reads := (List.range n).map (ta + ·) ++ (List.range n).map (tb + ·) ++ [mt]
    let fmt := (k.tile ta).fmt
    let out := if fmt = 2 then 6 else 7
    let kk := ((List.range n).map fun i => (k.tile (tb + i)).rows).sum
    fmt ∈ [2, 8, 9] → TilesFree k [d] reads k.mxOps 4 → ProductOperands k ta tb n fmt 2 →
    (∀ i < n, (k.tile (tb + i)).rows % 4 = 0) → kk % 8 = 0 → kk ≤ 256 →
    (k.tile mt).state = .resident → (k.tile mt).fmt = 1 → (k.tile mt).rows = (k.tile ta).rows → (k.tile mt).cols = kk / 8 →
    (∀ r < (k.tile ta).rows, ∀ j < kk / 4,
      let nib := ((k.tile mt).data.getD (r * (k.tile mt).cols + j / 2) 0).toNat / 2 ^ (4 * (j % 2)) % 16
      nib % 4 < nib / 4) →
    ProductOutput k d (k.tile ta).rows (k.tile tb).cols out acc reads →
    ∃ (u : State) (op : TileOp), exec (.mxMmas g a) s = .next u.slotDone ∧ op.kind = .sparse d ta tb n mt acc ∧
      MxStarted s' u op d (granulesOf out (k.tile ta).rows (k.tile tb).cols) reads

/-- R186: `mmag` starts with 1 to 7 groups whose offsets, in `mx.o`, rise to at most the rows of A.  That it does not look at
bit 18, which R170 says is 0, is the model's reading (log entry 101). -/
def Obligations.GroupedProductStarts : Prop :=
  ∀ (g : BitVec 7) (a : BitVec 12) (s s' : State) (v : Value), Leased .mx s g a v s' →
    let t := v.toS.toNat
    let k := s'.myCore
    let (d, ta, tb, n, acc) := (t % 16, t / 16 % 16, t / 256 % 16, t / 32768 % 8, decide (t / 4096 % 2 = 1))
    let reads := ta :: (List.range n).map (tb + ·)
    let x := k.tile ta
    let out := if x.fmt = 2 then 6 else 7
    let off := fun i => k.mxo.toNat / 2 ^ (8 * i) % 256
    x.fmt ∈ [2, 8, 9, 10, 11, 12] → t / 8192 % 4 = 0 → 1 ≤ n → tb + n ≤ 16 → TilesFree k [d] reads k.mxOps 4 →
    x.state ≠ .empty → ((hxOf x.fmt).isSome = true → x.bdir = false) → x.cols ≤ 256 →
    (∀ i < n, (k.tile (tb + i)).state ≠ .empty ∧ (k.tile (tb + i)).fmt = x.fmt ∧
      ((hxOf x.fmt).isSome = true → (k.tile (tb + i)).bdir = true) ∧ (k.tile (tb + i)).rows = x.cols ∧
      (k.tile (tb + i)).cols = (k.tile tb).cols) →
    ProductOutput k d x.rows (k.tile tb).cols out acc reads →
    (∀ i < n, off i ≤ off (i + 1)) → off n ≤ x.rows →
    ∃ (u : State) (op : TileOp), exec (.mxMmag g a) s = .next u.slotDone ∧
      op.kind = .grouped d ta tb n acc ((List.range (n + 1)).map off) ∧
      MxStarted s' u op d (granulesOf out x.rows (k.tile tb).cols) reads

/-- R187, R206: `mzero` starts a tile of zeros of the type, rows and columns it names, and `mdrain` of a resident tile
fills the drain buffer, row r of it for cycle c + 2 + r, the row of an earlier drain staying on the port in cycle c; of a
poisoned tile the rows are undefined and ECC_UNCORRECTABLE becomes pending.  A tile that is not resident traps.  What a
drain of a poisoned tile does is the model's reading, for R206 does not say it (log entry 65). -/
def Obligations.ZeroAndDrainStart : Prop :=
  ∀ (g : BitVec 7) (a : BitVec 12) (s s' : State) (v : Value), Leased .mx s g a v s' →
    let t := v.toS.toNat
    let k := s'.myCore
    let d := t % 16
    (let fmt := [7, 6, 9, 8].getD (t / 16 % 4) 0
     let rows := t / 64 % 64 + 1
     let cols := t / 4096 % 64 + 1
     TilesFree k [d] [] k.mxOps 4 →
     if k.granulesBut d + granulesOf fmt rows cols ≤ 40 * k.operandBanks then
       ∃ (u : State) (op : TileOp), exec (.mxMzero g a) s = .next u.slotDone ∧ op.kind = .zero d rows cols fmt ∧
         u.myCore.mxOps = k.mxOps ++ [op] ∧ op.writes = [d] ∧ u.myCore.tileReady d = false
     else exec (.mxMzero g a) s = trapAt s s' .tileShape 0) ∧
    (let x := k.tile d
     let rows := (tileLanes x.fmt x.rows x.cols x.bdir x.data).map fun r => r ++ List.replicate (64 - x.cols) 0
     let prev := k.drain.bind fun d => d.rowAt s'.me.cycle
     TilesFree k [] [d] k.mxOps 4 → x.state = .resident →
     (x.bad = [] → exec (.mxMdrain g a) s =
       .next (s'.modMyCore fun k => { k with drain := some { cycle := s'.me.cycle, rows := rows, prev := prev } }).slotDone) ∧
     (x.bad ≠ [] → ∃ (u : State) (r : List Vec), exec (.mxMdrain g a) s = .next u.slotDone ∧ r.length = rows.length ∧
       u.myCore.drain = some { cycle := s'.me.cycle, rows := r, prev := prev } ∧ .eccUncorrectable ∈ u.me.pending ∧
       u.mem = s'.mem)) ∧
    (TilesFree k [] [d] k.mxOps 4 → (k.tile d).state ≠ .resident → exec (.mxMdrain g a) s = trapAt s s' .tileShape 0)

/-- R57, R66, R167: while its tiles are not free, or its unit is full, an operation of mx or tf waits and has done
nothing yet: what its source popped is in its queue again. -/
def Obligations.TileOperationsWait : Prop :=
  ∀ (g : BitVec 7) (a : BitVec 12) (s s' : State) (v : Value),
    let t := v.toS.toNat
    let k := s'.myCore
    let pairs := fun n => ((List.range n).map (t / 16 % 16 + ·) ++ (List.range n).map (t / 256 % 16 + ·)).filter (· < 16)
    let held := fun (w r : List Nat) (tf : Bool) => waitAt s s' (.tiles w r tf)
    (Leased .mx s g a v s' →
      (¬ TilesFree k [] [t % 16] k.mxOps 4 → exec (.mxMdrain g a) s = held [] [t % 16] false) ∧
      (¬ TilesFree k [t % 16] [] k.mxOps 4 → exec (.mxMzero g a) s = held [t % 16] [] false) ∧
      (let r := pairs (t / 8192 % 4 + 1)
       ¬ TilesFree k [t % 16] r k.mxOps 4 → exec (.mxMma g a) s = held [t % 16] r false) ∧
      (let r := pairs (t / 8192 % 4 + 1) ++ [t / 32768 % 16]
       ¬ TilesFree k [t % 16] r k.mxOps 4 → exec (.mxMmas g a) s = held [t % 16] r false) ∧
      (let r := (t / 16 % 16 :: (List.range (t / 32768 % 8)).map (t / 256 % 16 + ·)).filter (· < 16)
       ¬ TilesFree k [t % 16] r k.mxOps 4 → exec (.mxMmag g a) s = held [t % 16] r false)) ∧
    (Leased .tf s g a v s' →
      (¬ TilesFree k [t % 16] [] k.tfOps 8 → exec (.tfTld g a) s = held [t % 16] [] true ∧
        exec (.tfTbind g a) s = held [t % 16] [] true ∧ exec (.tfTrel g a) s = held [t % 16] [] true) ∧
      (s'.me.stores.length < 64 → ¬ TilesFree k [] [t % 16] k.tfOps 8 → exec (.tfTst g a) s = held [] [t % 16] true) ∧
      (¬ TilesFree k [t % 16] [t / 256 % 16] k.tfOps 8 → exec (.tfTcvt g a) s = held [t % 16] [t / 256 % 16] true))

/-- R167, R176, R177: `tcvt` of a resident tile starts a conversion into a format that its shape takes, and `trel`
makes a tile empty. -/
def Obligations.ConvertAndRelease : Prop :=
  ∀ (g : BitVec 7) (a : BitVec 12) (s s' : State) (v : Value), Leased .tf s g a v s' →
    let t := v.toS.toNat
    let k := s'.myCore
    let (d, cf, x, bcol) := (t % 16, t / 16 % 16, t / 256 % 16, decide (t / 4096 % 2 = 1))
    (TilesFree k [d] [x] k.tfOps 8 → (k.tile x).state = .resident → cf ≠ 0 →
      (cf = (k.tile x).fmt ∨ (7 ≤ cf ∧ cf ≤ 12 ∧ 7 ≤ (k.tile x).fmt ∧ (k.tile x).fmt ≤ 12)) →
      ((hxOf cf).isSome = true → (if bcol then (k.tile x).rows else (k.tile x).cols) % 16 = 0) →
      k.granulesBut d + granulesOf cf (k.tile x).rows (k.tile x).cols ≤ 40 * k.operandBanks →
      ∃ (u : State) (op : TileOp), exec (.tfTcvt g a) s = .next u.slotDone ∧ op.kind = .convert d x cf bcol ∧
        u.myCore.tfOps = k.tfOps ++ [op] ∧ op.writes = [d] ∧ op.reads = [x] ∧ u.myCore.tileReady d = false) ∧
    (TilesFree k [d] [] k.tfOps 8 →
      ∃ u : State, exec (.tfTrel g a) s = .next u.slotDone ∧ u.myCore.tile d = Tile.init ∧
        (∀ e ≠ d, u.myCore.tile e = k.tile e) ∧ u.mem = s'.mem)

/-- R111, R121, R122, R168, R171 to R175, R289: with its record read and good, `tld` starts a load, `tbind` a binding and `tst`
a store of the tile, where every byte that it names resolves.  The rows stand at BASE + POS × RSTRIDE with mode 0, and with mode
1 in the frames that the page list of the sequence KVSEQ names, each token in turn: a KVSEQ at or beyond NSEQ or a token at or
beyond LENGTH traps KV_BOUNDS, and a store into a read-only frame PROTECTION, into a shared one KV_COW.  A zero-packed source is
checked at its largest extent, a multiple of 264 bytes from BASE on; it takes no HX format, no rows apart (SHAPE_RECORD) and
only a load.  With a stamp check the lines lie in digest regions (DIGEST_REGION), the source is not packed and lies in one line
(MISALIGNED).  The model's readings: a zero-packed source of mode 1 has no valid record (log entry 100), and KV_BOUNDS comes
before the queue's room and the address checks (60). -/
def Obligations.TileTransfersStart : Prop :=
  ∀ (g : BitVec 7) (a : BitVec 12) (s s' : State) (v : Value) (b : List Byte) (place : Nat → Loc), Leased .tf s g a v s' →
    let t := v.toS.toNat
    let k := s'.myCore
    let n := t % 16
    let cf := t / 16 % 16
    let d := parseShape b
    let rowBytes := d.cols * elemBytes d.fmt
    let pieces := fun (runs : List (Nat × Nat)) => (runs.map cutRun).flatten
    let placed := fun (runs : List (Nat × Nat)) => (pieces runs).map fun p => (place p.1, p.2)
    let ready := fun (r : Right) (runs : List (Nat × Nat)) => ∀ p ∈ pieces runs, resolveStream s' Stream.init r p.1 = .at (place p.1)
    s'.me.recordBuf = some (some b) → recordValid b = true → field b 40 1 / 4 = 0 → field b 41 23 = 0 → 1 ≤ d.rows → d.rows ≤ 64 →
    (TilesFree k [n] [] k.tfOps 8 →
      (cf = 0 ∨ cf = d.fmt ∨ (7 ≤ cf ∧ cf ≤ 12 ∧ 7 ≤ d.fmt ∧ d.fmt ≤ 12 ∧ ((hxOf cf).isSome = true → d.cols % 16 = 0))) →
      (d.zpack = true → (hxOf d.fmt).isSome = true → exec (.tfTld g a) s = trapAt s s' .tileShape 0) ∧
      (d.zpack = true → (hxOf d.fmt).isSome = false → d.mode ≠ 0 ∨ d.rstride.toNat ≠ rowBytes →
        exec (.tfTld g a) s = trapAt s s' .shapeRecord 0) ∧
      (d.zpack = false → TileStops s s' d (exec (.tfTld g a) s)) ∧
      ∀ runs : List (Nat × Nat),
        (if d.zpack then (hxOf d.fmt).isSome = false ∧ d.mode = 0 ∧ d.rstride.toNat = rowBytes ∧
            runs = [(d.base, 264 * ((d.rows * rowBytes + 255) / 256))]
          else ∃ rows fs, TileRows s' d rows fs ∧ runs = d.runs rows) →
        LoadRoom s' → ready .load runs →
        let first := BitVec.ofNat 64 ((runs.map (·.1)).headD 0)
        let checked := s'.me.ports.lqb.getLsbD 16
        let inside := ∀ p ∈ pieces runs, s'.inRegion (place p.1) = true
        let oneLine := d.zpack = false ∧ ((pieces runs).map fun p => p.1 / 256).eraseDups.length ≤ 1
        (checked = true → ¬ inside → exec (.tfTld g a) s = trapAt s s' .digestRegion first) ∧
        (checked = true → inside → ¬ oneLine → exec (.tfTld g a) s = trapAt s s' .misaligned first) ∧
        ((checked = true → inside ∧ oneLine) →
          k.granulesBut n + granulesOf (if cf = 0 then d.fmt else cf) d.tileDims.1 d.tileDims.2 ≤ 40 * k.operandBanks →
          ∃ (u : State) (op : TileOp) (e : LoadEntry), exec (.tfTld g a) s = .next u.slotDone ∧ op.kind = .load n cf d ∧
            u.myCore.tfOps = k.tfOps ++ [op] ∧ op.writes = [n] ∧ u.myCore.tileReady n = false ∧
            u.me.loadQueue = s'.me.loadQueue ++ [e] ∧ e.kind = .tileLoad ∧ e.cls = .s ∧ e.parts = partsOf (placed runs) ∧
            ChecksStamp s' e ∧ e.order = op.order)) ∧
    (TilesFree k [n] [] k.tfOps 8 →
      (d.zpack = true ∨ d.fmt ∉ [1, 2, 8, 9, 10, 11, 12] → exec (.tfTbind g a) s = trapAt s s' .tileShape 0) ∧
      (d.zpack = false → d.fmt ∈ [1, 2, 8, 9, 10, 11, 12] → TileStops s s' d (exec (.tfTbind g a) s) ∧
        ∀ rows fs, TileRows s' d rows fs → LoadRoom s' → ready .load (d.runs rows) →
          (∀ p ∈ pieces (d.runs rows), ∃ pa, place p.1 = .mem pa) → (s'.die (dieOf s'.cur.core)).remways ≠ 0 →
          let lines := ((bytesOf (placed (d.runs rows))).map lineIndex).eraseDups
          k.pinnedBut n + lines.length ≤ 256 →
          ∃ (u : State) (op : TileOp) (e : LoadEntry), exec (.tfTbind g a) s = .next u.slotDone ∧
            op.kind = .bind n d (arrange d.fmt d.rows d.cols d.trans (bytesOf (placed (d.runs rows)))) lines ∧
            u.myCore.tfOps = k.tfOps ++ [op] ∧ u.myCore.tileReady n = false ∧
            u.me.loadQueue = s'.me.loadQueue ++ [e] ∧ e.kind = .bind ∧ e.order = op.order)) ∧
    (TilesFree k [] [n] k.tfOps 8 → s'.me.stores.length < 64 →
      let fits := (k.tile n).state = .resident ∧ d.zpack = false ∧ d.fmt = (k.tile n).fmt ∧
        d.tileDims = ((k.tile n).rows, (k.tile n).cols) ∧ ((hxOf d.fmt).isSome = true → (k.tile n).bdir = d.trans)
      (¬ fits → exec (.tfTst g a) s = trapAt s s' .tileShape 0) ∧
      (fits → TileStops s s' d (exec (.tfTst g a) s) ∧
        ∀ rows fs, TileRows s' d rows fs → ready .store (d.runs rows) →
          (∀ r < d.rows, FramesFree s' fs r → FrameStops s s' d rows fs r (exec (.tfTst g a) s)) ∧
          (FramesFree s' fs d.rows →
            ∃ (u : State) (op : TileOp) (x : StoreEntry), exec (.tfTst g a) s = .next u.slotDone ∧ op.kind = .store n ∧
              u.myCore.tfOps = k.tfOps ++ [op] ∧ op.reads = [n] ∧ u.me.stores = s'.me.stores ++ [x] ∧
              x.kind = .tile n ∧ x.parts = tileParts (d.runs rows) ((placed (d.runs rows)).map (·.1)) ((k.tile n).memoryOrder d.trans) ∧
              u.mem = s'.mem)))

/-- R233, R245 to R248: a query whose lines resolve in one region enters the load queue behind the last `dg.dfence`,
which notes the store-class operations triggered before it, and reads the records of that registration; `drebuild`
enters the store queue.  The model's choice: the addresses that DIGEST_REGION reports, t for a query of no line or of more than
64 and 0 for `drebuild` (log entry 129). -/
def Obligations.DigestTriggers : Prop :=
  ∀ (g : BitVec 7) (a : BitVec 12) (s s' : State) (v : Value) (place : Nat → Nat) (key : Nat) (r : Region), Triggers s g a v s' →
    let o := s'.me.ports.dgo
    let n := (lane o 3).toNat % 128
    (LoadRoom s' → RunInRegion s' v.toS 1 place key r →
      ∃ x, exec (.dgDq g a) s = .next (s'.enterLoad x).slotDone ∧ Fresh s' x ∧ x.kind = .dq ∧ x.cls = .v ∧
        x.parts = runParts r 1 place ∧ x.fence = s'.me.dfence) ∧
    (LoadRoom s' → RunInRegion s' v.toS n place key r →
      ∃ x, exec (.dgDqr g a) s = .next (s'.enterLoad x).slotDone ∧ Fresh s' x ∧
        x.kind = .dqr n (lane o 2 ++ lane o 1 ++ lane o 0) r.etype r.kind ∧ x.cls = .v ∧
        x.parts = runParts r n place ∧ x.fence = s'.me.dfence) ∧
    (LoadRoom s' → RunInRegion s' v.toS n place key r → ((lane o 3).getLsbD 7 = true ∨ r.kind = 3) →
      ∃ x, exec (.dgDqz g a) s = .next (s'.enterLoad x).slotDone ∧ Fresh s' x ∧ x.kind = .dqz n ((lane o 3).getLsbD 7) ∧
        x.cls = .p ∧ x.parts = runParts r n place ∧ x.fence = s'.me.dfence) ∧
    (LoadRoom s' → n = 0 ∨ 64 < n → exec (.dgDqr g a) s = trapAt s s' .digestRegion v.toS ∧
      exec (.dgDqz g a) s = trapAt s s' .digestRegion v.toS) ∧
    exec (.dgDfence g a) s = .next (s'.modMe fun x => { x with dfence := x.order }).slotDone ∧
    (s'.me.stores.length < 64 →
      let k := s'.me.asid % 65536 * 256 + v.toS.toNat % 256
      (∀ x, s'.digbase.getLsbD 0 = true → s'.region k = some x →
        exec (.dgDrebuild g a) s = .next (s'.addStore (.rebuild k x.serial 0) []).slotDone) ∧
      (s'.digbase.getLsbD 0 = false ∨ s'.region k = none → exec (.dgDrebuild g a) s = trapAt s s' .digestRegion 0))

/-- R234, R235, R249: `dregion` outside ASID 0 traps PRIVILEGE; it waits behind a marker until it can be performed; an
entry that is not valid removes the region, one outside the limits traps with the region removed, and so does one whose pages
are not mapped, or are captured, or that overlaps a region of its space; a valid one captures its pages, each record starting
anew.  With EN or the directory's V clear, or another bit of its entry set, it traps before any removal.  The model's choices:
the trap's address, 0 (log entry 129), and that the directory and the table are read as their bytes stand (130). -/
def Obligations.RegionRegistration : Prop :=
  ∀ (g : BitVec 7) (a : BitVec 12) (s s' : State) (v : Value) (ps : List Nat) (r : Region), Triggers s g a v s' →
    let asid := v.toS.toNat / 256 % 65536
    let key := asid * 256 + v.toS.toNat % 256
    let dir := (s'.read64 (s'.digbase.toNat / 4096 % 2 ^ 40 * 4096 + 8 * asid)).toNat
    let b := s'.readMem (dir / 2 ^ 13 % 2 ^ 39 * 8192 + 32 * (v.toS.toNat % 256)) 32
    (s'.me.asid % 65536 ≠ 0 → exec (.dgDregion g a) s = trapAt s s' .privilege 0) ∧
    (s'.me.asid % 65536 = 0 → s'.me.done = false → exec (.dgDregion g a) s = waitAt s s'.marker .region) ∧
    (s'.me.asid % 65536 = 0 → s'.me.done = true →
      s'.digbase.getLsbD 0 = false ∨ dir % 2 = 0 ∨ dir / 2 % 2 ^ 12 ≠ 0 ∨ dir / 2 ^ 52 ≠ 0 →
      exec (.dgDregion g a) s = trapAt s s' .digestRegion 0) ∧
    (s'.me.asid % 65536 = 0 → s'.me.done = true → s'.digbase.getLsbD 0 = true → dir % 2 = 1 → dir / 2 % 2 ^ 12 = 0 → dir / 2 ^ 52 = 0 →
      (field b 18 1 = 0 → exec (.dgDregion g a) s = .next (s'.removeRegion key).slotDone ∧ (s'.removeRegion key).region key = none) ∧
      (field b 18 1 ≠ 0 → regionEntry b = none → exec (.dgDregion g a) s = trapAt s (s'.removeRegion key) .digestRegion 0) ∧
      (regionEntry b = some r → (s'.removeRegion key).regionPages asid r = none ∨ (s'.removeRegion key).overlaps asid r = true ∨
          ((s'.removeRegion key).regionPages asid r = some ps ∧ ∃ p ∈ ps, mapGet none (s'.removeRegion key).captured (p / 65536) ≠ none) →
        exec (.dgDregion g a) s = trapAt s (s'.removeRegion key) .digestRegion 0) ∧
      (regionEntry b = some r → (s'.removeRegion key).regionPages asid r = some ps →
        (∀ p ∈ ps, mapGet none (s'.removeRegion key).captured (p / 65536) = none) → (ps.map (· / 65536)).Nodup →
        (s'.removeRegion key).overlaps asid r = false →
        ∃ (u : State) (n : Nat), exec (.dgDregion g a) s = .next u.slotDone ∧ u.region key = some { r with pages := ps, serial := n } ∧
          (∀ i < ps.length, mapGet none u.captured (ps.getD i 0 / 65536) = some { region := key, dbase := r.dbase + 4096 * i } ∧
            ∀ j < 256, (u.digest (ps.getD i 0 / 65536 * 65536 + 256 * j)).valid = false) ∧ u.mem = s'.mem))

/-- R96, R213, R215, R217, R218, R220, R221, R232: atomics enter both queues, a release and a spawn the store queue with
the signature they carry, an acquire the load queue; each stands between two markers. -/
def Obligations.SyncTriggersEnterQueues : Prop :=
  ∀ (g : BitVec 7) (a : BitVec 12) (s s' : State) (v : Value), Triggers s g a v s' →
    let t := v.toS
    let scope := scopeAsked s'
    (∀ e ∈ atomicRules, ∀ l, s'.me.stores.length < 64 → LoadRoom s' → t.toNat % 8 = 0 →
      s'.resolve s'.cur.core s'.cur.q .atomic t.toNat = .at l →
      ∃ (u : State) (x : LoadEntry) (y : StoreEntry), exec (e.1 g a) s = .next u.slotDone ∧ MarkedLoad s' u x ∧ MarkedStore s' u y ∧
        x.kind = .atomic e.2 s'.me.ports.syo s'.me.ports.syp ∧ x.cls = .s ∧ x.parts = [.bytes l 8] ∧ y.kind = .atomic ∧ y.parts = [] ∧
        u.me.rsig = (match l with
          | .mem pa => s'.me.rsig ||| lineBit pa
          | .spad _ _ => s'.me.rsig)) ∧
    (∀ pa, s'.me.stores.length < 64 → t.toNat % 8 = 0 → inAperture t.toNat = false →
      s'.resolve s'.cur.core s'.cur.q .store t.toNat = .at (.mem pa) →
      ∃ (u : State) (y : StoreEntry), exec (.syRel g a) s = .next u.slotDone ∧ MarkedStore s' u y ∧
        y.kind = .release pa s'.me.ports.syo (carried scope s'.me.rsig) scope ∧ y.parts = [] ∧
        u.me.rsig = kept scope s'.me.rsig ||| lineBit pa) ∧
    (s'.me.stores.length < 64 → t.toNat % 8 = 0 → inAperture t.toNat = true → exec (.syRel g a) s = trapAt s s' .protection t) ∧
    (∀ pa, LoadRoom s' → t.toNat % 8 = 0 → inAperture t.toNat = false →
      s'.resolve s'.cur.core s'.cur.q .load t.toNat = .at (.mem pa) →
      ∃ (u : State) (x : LoadEntry), exec (.syAcq g a) s = .next u.slotDone ∧ MarkedLoad s' u x ∧ x.kind = .acquire scope ∧
        x.cls = .s ∧ x.parts = [.bytes (.mem pa) 8] ∧ ∀ n, (u.me.stream n).frame = none) ∧
    (∀ l, s'.me.stores.length < 64 → t.toNat % 64 = 0 → s'.resolve s'.cur.core s'.cur.q .load t.toNat = .at l →
      ∃ (u : State) (y : StoreEntry), exec (.sySpawn g a) s = .next u.slotDone ∧ MarkedStore s' u y ∧
        y.kind = .spawn s'.me.rsig ∧ y.parts = [{ loc := l, bytes := [] }] ∧ u.me.rsig = 0)

/-- R96, R224 to R228: the barrier operations enter their queues between markers, `bget` both of them as an atomic does,
with the handle in the low 32 bits of the moved value; `sstep` goes on once its step has ended, and waits until then. -/
def Obligations.BarrierTriggers : Prop :=
  ∀ (g : BitVec 7) (a : BitVec 12) (s s' : State) (v : Value), Triggers s g a v s' →
    let handle := BitVec.ofNat 64 (v.toS.toNat % 2 ^ 32)
    let limit := s'.me.ports.syo.toNat % 2 ^ 32
    (LoadRoom s' →
      (s'.me.stores.length < 64 → ∃ (u : State) (x : LoadEntry) (y : StoreEntry), exec (.syBget g a) s = .next u.slotDone ∧
        MarkedLoad s' u x ∧ MarkedStore s' u y ∧ x.cls = .s ∧ x.kind = .bget (v.toS.toNat % 65536) ∧ y.kind = .atomic) ∧
      (∃ (u : State) (x : LoadEntry), exec (.syBwait g a) s = .next u.slotDone ∧ MarkedLoad s' u x ∧ x.cls = .s ∧
        x.kind = .bwait handle limit (s'.clock + limit) (scopeAsked s') none)) ∧
    (64 ≤ s'.me.stores.length → exec (.syBget g a) s = .next (s.holdAt .storeRoom false)) ∧
    (s'.me.stores.length < 64 →
      (∃ (u : State) (y : StoreEntry), exec (.syBarv g a) s = .next u.slotDone ∧ MarkedStore s' u y ∧
        y.kind = .arrival handle (carried (scopeAsked s') s'.me.rsig) (scopeAsked s') ∧
        u.me.rsig = kept (scopeAsked s') s'.me.rsig) ∧
      (∃ (u : State) (y : StoreEntry), exec (.syBfree g a) s = .next u.slotDone ∧ MarkedStore s' u y ∧ y.kind = .bfree handle)) ∧
    (s'.me.stepDone = true → exec (.sySstep g a) s = .next (s'.modMe fun x => { x with stepDone := false }).slotDone) ∧
    (s'.me.stepDone = false → exec (.sySstep g a) s = waitAt s s' .sstep)

/-- R212, R230, R231, R278: a send and a multicast enter the send buffer of the core with their place in the trigger
order, guarded-off lanes of a send as 0; eight entries freeze the bundle; a position that the launch does not have traps,
and so does a line that is not whole.  That a multicast of COUNT 0 does nothing before every check is the model's reading
of its order (log entry 67); that these traps report address 0, and so FPAGE 0, is the model's choice (135). -/
def Obligations.CircuitTriggers : Prop :=
  ∀ (g : BitVec 7) (a : BitVec 12) (s s' : State) (v : Value), SourceRead s g a .v v s' → s.mayReach (some .cx) = true →
    let m := s.guardMask g
    let o := s'.myCore.cxo.toNat
    let (off, first, count) := (o % 2 ^ 19, o / 2 ^ 32 % 65536, o / 2 ^ 48)
    let sent := fun x : Send => Host.Outcome.next (φ := Fault) (ρ := Refusal) ((s'.noteCircuit.modMyCore fun k => { k with
      sends := k.sends ++ [{ send := x, q := s'.cur.q, order := s'.me.order, chain := s'.me.chain }] }).modMe fun x => { x with order := x.order + 1 }).slotDone
    (8 ≤ s'.myCore.sends.length → exec (.cxSend g a) s = .next (s.holdAt .sendRoom false) ∧
      (count ≠ 0 → exec (.cxMcst g a) s = .next (s.holdAt .sendRoom false))) ∧
    (count = 0 → exec (.cxMcst g a) s = .next s'.noteCircuit.slotDone) ∧
    (s'.myCore.sends.length < 8 →
      (match s'.members[o % 65536]? with
      | some c => exec (.cxSend g a) s = sent (.vector c (mkVec fun i => if m.getLsbD i then lane v.toV i else 0) s'.clock)
      | none => exec (.cxSend g a) s = trapAt s s' .scratchBounds 0) ∧
      (count ≠ 0 →
        if off % 256 ≠ 0 then exec (.cxMcst g a) s = trapAt s s' .misaligned 0
        else if s'.myCore.spadBytes < off + 256 ∨ s'.members.length < first + count then
          exec (.cxMcst g a) s = trapAt s s' .scratchBounds 0
        else exec (.cxMcst g a) s = sent (.multicast off first count m v.toV s'.clock)))

/-- R121, R279 to R289: a kv operation waits behind a marker, its frames dropped, until it can be performed; then its slot
makes every check, and traps KV_BOUNDS with its reason, or writes: `kv.fork` gives DST the page list and LENGTH of SRC and
raises COUNT of each frame; `kv.free` lowers COUNT of each page's frame and sets LENGTH 0; `kv.app` takes the frames it
needs off the stack in one exchange; `kv.perm` raises COUNT for every new list, then lowers it for every old one, then
writes lists and lengths.  What an operation has not written while it waited, its slot writes, each word at the place that
its checks found, one after another.  `kv.map` enters the load queue.  Model's choices: the accesses to the tables (log entry
57), an append of no token before any check and a COUNT lowered from 0 (58), and a word that is poisoned once the checks are
made, which is passed by (134). -/
def Obligations.KeyCacheTriggers : Prop :=
  (∀ (g : BitVec 7) (a : BitVec 12) (s s' : State) (v : Value), Leased .kv s g a v s' →
    let n := v.toS.toNat % 65536
    let m := v.toS.toNat / 65536 % 65536
    (∀ e ∈ [(Instr.kvFork, KvOp.fork v.toS), (Instr.kvFree, KvOp.free v.toS), (Instr.kvApp, KvOp.app v.toS)],
      (s'.me.done = false → exec (e.1 g a) s =
        waitAt s ((s'.modMe Seq.dropFrames).marker.modMyCore fun k => { k with kvTurn := k.kvTurn + 1 }) (.kv e.2)) ∧
      (s'.me.done = true → s'.me.kvLeft.isSome = true → exec (e.1 g a) s = .next (s'.kvRest s'.cur.core s'.cur.q).slotDone) ∧
      (KvDue s' → (e.1 g a = .kvApp g a → m ≠ 0) →
        (s'.kvDesc s'.cur.core s'.cur.q = .ok none → exec (e.1 g a) s = trapAt s s' .kvBounds 0) ∧
        (∀ va, s'.kvDesc s'.cur.core s'.cur.q = .error (.miss va) → exec (e.1 g a) s = kvFreezes s s' va) ∧
        ∀ c va, s'.kvDesc s'.cur.core s'.cur.q = .error (.access c va) → exec (e.1 g a) s = trapAt s s' c (BitVec.ofNat 64 va))) ∧
    (KvDue s' → m = 0 → exec (.kvApp g a) s = .next s'.slotDone) ∧
    (∀ d, KvDue s' → s'.kvDesc s'.cur.core s'.cur.q = .ok (some d) →
      (d.nseq ≤ n → exec (.kvFork g a) s = kvStopped s s' d.faults (faultOf n 5 0 noFrame 0) ∧
        exec (.kvFree g a) s = kvStopped s s' d.faults (faultOf n 5 0 noFrame 0) ∧
        (m ≠ 0 → exec (.kvApp g a) s = kvStopped s s' d.faults (faultOf n 5 0 noFrame 0))) ∧
      (n < d.nseq → d.nseq ≤ m → exec (.kvFork g a) s = kvStopped s s' d.faults (faultOf m 5 0 noFrame 0)) ∧
      ∀ x, n < d.nseq → s'.kvSeq s'.cur.core s'.cur.q d n = .ok x →
        (∀ y, m < d.nseq → s'.kvSeq s'.cur.core s'.cur.q d m = .ok y →
          let need := (x.length + 15) / 16
          (y.length ≠ 0 → exec (.kvFork g a) s = kvStopped s s' d.faults (faultOf m 7 y.length noFrame 0)) ∧
          (y.length = 0 → y.cap < need → exec (.kvFork g a) s = kvStopped s s' d.faults (faultOf m 2 x.length noFrame need)) ∧
          (∀ fs cnt, y.length = 0 → need ≤ y.cap → Pages s' x fs → Counts s' d fs cnt →
            (∀ p, tooOften cnt fs p → (∀ j < p, ¬ tooOften cnt fs j) →
              exec (.kvFork g a) s = kvStopped s s' d.faults (faultOf n 6 x.length (fs.getD p 0) p)) ∧
            ((∀ p, ¬ tooOften cnt fs p) → writesTables
              ((fs.zipIdx.map fun e => [KvAct.put (y.plist + 4 * e.2) 4 e.1, .up (d.frtab + 8 * e.1)]).flatten ++
                [.put (d.seqtab + 16 * m) 4 x.length]) s' (exec (.kvFork g a) s)))) ∧
        (x.length = 0 → exec (.kvFree g a) s = .next s'.slotDone) ∧
        (∀ fs cnt, x.length ≠ 0 → Pages s' x fs → Counts s' d fs cnt →
          (∀ p, tooSeldom cnt fs p → (∀ j < p, ¬ tooSeldom cnt fs j) →
            exec (.kvFree g a) s = kvStopped s s' d.faults (faultOf n 6 x.length (fs.getD p 0) p)) ∧
          ((∀ p, ¬ tooSeldom cnt fs p) → writesTables
            ((fs.map fun f => KvAct.down (d.frtab + 8 * f) d.free f) ++ [.put (d.seqtab + 16 * n) 4 0]) s' (exec (.kvFree g a) s))) ∧
        (m ≠ 0 →
          let len := x.length + m
          let (first, need) := ((x.length + 15) / 16, (len + 15) / 16 - (x.length + 15) / 16)
          (x.cap < (len + 15) / 16 → exec (.kvApp g a) s = kvStopped s s' d.faults (faultOf n 2 len noFrame ((len + 15) / 16))) ∧
          ((len + 15) / 16 ≤ x.cap → need = 0 → writesTables [.put (d.seqtab + 16 * n) 4 len] s' (exec (.kvApp g a) s)) ∧
          (∀ (h : Nat) (fs : List Nat), (len + 15) / 16 ≤ x.cap → need ≠ 0 → tabWord s' d.free 8 h → fs.getD 0 0 = h % 2 ^ 32 →
            let linked := fun j => fs.getD j 0 ≠ noFrame ∧ ∃ w, tabWord s' (d.frtab + 8 * fs.getD j 0) 8 w ∧
              fs.getD (j + 1) 0 = w / 2 ^ 32 % 2 ^ 32
            (∀ j < need, (∀ i < j, linked i) → fs.getD j 0 = noFrame →
              exec (.kvApp g a) s = kvStopped s s' d.faults (faultOf n 3 len noFrame (first + j))) ∧
            (fs.length = need + 1 → (∀ j < need, linked j) → writesTables
              (.put d.free 8 ((h / 2 ^ 32 + 1) % 2 ^ 32 * 2 ^ 32 + fs.getD need 0) ::
                (((fs.take need).zipIdx.map fun e => [KvAct.put (d.frtab + 8 * e.1) 8 (noFrame * 2 ^ 32 + 1),
                  .put (x.plist + 4 * (first + e.2)) 4 e.1]).flatten ++ [.put (d.seqtab + 16 * n) 4 len])) s'
              (exec (.kvApp g a) s))))) ∧
    (LoadRoom s' → ∃ x, exec (.kvMap g a) s = .next (((s'.modMe Seq.dropFrames).enterLoad x).modMyCore fun k =>
        { k with kvTurn := k.kvTurn + 1 }).slotDone ∧ Fresh s' x ∧ x.cls = .s ∧
      x.kind = .kvMap n (v.toS.toNat / 65536 % 2 ^ 32) (v.toS.toNat / 2 ^ 48) s'.myCore.kvo s'.myCore.kvTurn)) ∧
  (∀ (g : BitVec 7) (a : BitVec 12) (s s' : State) (v : Value), SourceRead s g a .v v s' → s.mayReach (some .kv) = true →
    let o := s'.myCore.kvo.toNat
    let (first, b) := (o % 65536, o / 65536 % 128)
    let par := fun i => if (s.guardMask g).getLsbD i then (lane v.toV i).toNat else i
    (s'.me.done = false → exec (.kvPerm g a) s =
      waitAt s ((s'.modMe Seq.dropFrames).marker.modMyCore fun k => { k with kvTurn := k.kvTurn + 1 })
        (.kv (.perm (s.guardMask g) v.toV s'.myCore.kvo))) ∧
    (s'.me.done = true → s'.me.kvLeft.isSome = true → exec (.kvPerm g a) s = .next (s'.kvRest s'.cur.core s'.cur.q).slotDone) ∧
    (∀ d, KvDue s' → s'.kvDesc s'.cur.core s'.cur.q = .ok (some d) →
      (b = 0 ∨ 64 < b ∨ d.nseq < first + b → exec (.kvPerm g a) s = kvStopped s s' d.faults (faultOf first 5 b noFrame 0)) ∧
      (b ≠ 0 → b ≤ 64 → first + b ≤ d.nseq →
        (∀ i < b, b ≤ par i → (∀ j < i, par j < b) →
          exec (.kvPerm g a) s = kvStopped s s' d.faults (faultOf (first + i) 4 (par i) noFrame 0)) ∧
        ∀ x : Nat → KvSeq, (∀ i < b, par i < b ∧ s'.kvSeq s'.cur.core s'.cur.q d (first + i) = .ok (x i)) →
          let pages := fun i => ((x (par i)).length + 15) / 16
          (∀ i < b, (x i).cap < pages i → (∀ j < i, pages j ≤ (x j).cap) →
            exec (.kvPerm g a) s = kvStopped s s' d.faults (faultOf (first + i) 2 (x (par i)).length noFrame (pages i))) ∧
          ∀ (old : Nat → List Nat) (cnt : Nat → Nat), (∀ i < b, pages i ≤ (x i).cap ∧ Pages s' (x i) (old i) ∧ Counts s' d (old i) cnt) →
            let all := ((List.range b).map fun i => old (par i)).flatten
            (∀ p, tooOften cnt all p → ∃ i < b, ∃ f page, exec (.kvPerm g a) s =
              kvStopped s s' d.faults (faultOf (first + i) 6 (x (par i)).length f page)) ∧
            ((∀ p, ¬ tooOften cnt all p) → writesTables
              ((all.map fun f => KvAct.up (d.frtab + 8 * f)) ++
                (((List.range b).map old).flatten.map fun f => .down (d.frtab + 8 * f) d.free f) ++
                ((List.range b).map fun i => (old (par i)).zipIdx.map (fun e => KvAct.put ((x i).plist + 4 * e.2) 4 e.1) ++
                  [.put (d.seqtab + 16 * (first + i)) 4 (x (par i)).length]).flatten) s' (exec (.kvPerm g a) s))))) ∧
  ∀ (c q : Nat) (at_ : KvWhere) (s : State),
    (∀ va n w pa, at_ .store va n = .ok (.mem pa) → s.cut (dieOf c) pa = false →
      ∃ u : State, (KvAct.put va n w).first at_ c q s = .ok ([], u) ∧
        ∀ p, u.readByte p = afterWrite pa ((natBytes n w).map some) s.readByte p) ∧
    (∀ entry w, wordFrom at_ c s entry 8 = .ok w → (KvAct.up entry).first at_ c q s = (KvAct.put entry 2 ((w + 1) % 65536)).first at_ c q s) ∧
    (∀ entry free f w u, wordFrom at_ c s entry 8 = .ok w → w % 65536 ≠ 0 → (KvAct.put entry 2 (w % 65536 - 1)).first at_ c q s = .ok ([], u) →
      (KvAct.down entry free f).first at_ c q s = .ok (if w % 65536 = 1 ∧ w / 65536 % 2 = 0 then [.push entry free f] else [], u)) ∧
    (∀ entry free f h u, wordFrom at_ c s free 8 = .ok h → (KvAct.put (entry + 4) 4 (h % 2 ^ 32)).first at_ c q s = .ok ([], u) →
      (KvAct.push entry free f).first at_ c q s = .ok ([.give entry free f h], u)) ∧
    (∀ entry free f h now u, wordFrom at_ c s free 8 = .ok now →
      (KvAct.put free 8 ((h / 2 ^ 32 + 1) % 2 ^ 32 * 2 ^ 32 + f)).first at_ c q s = .ok ([], u) →
      (KvAct.give entry free f h).first at_ c q s = .ok (if now = h then ([], u) else ([.push entry free f], s))) ∧
    (∀ a b d u v w, KvAct.first a at_ c q s = .ok (b, u) →
      (b = [] → a.run at_ c q s = .ok u) ∧
      (∀ x, b = [x] → x.first at_ c q u = .ok (d, v) → (d = [] → a.run at_ c q s = .ok v) ∧
        ∀ y, d = [y] → y.first at_ c q v = .ok ([], w) → a.run at_ c q s = .ok w)) ∧
    runActs c q [] s = .ok s ∧
    (∀ a as u, KvAct.run a (s.kvPlace c q) c q s = .ok u → runActs c q (a :: as) s = actsFrom (s.kvPlace c q) c q as u) ∧
    actsFrom at_ c q [] s = .ok s ∧ (∀ a as u, KvAct.run a at_ c q s = .ok u → actsFrom at_ c q (a :: as) s = actsFrom at_ c q as u) ∧
    (∀ a as, (s.seq c q).kvLeft = some (a :: as) → match a.first (s.seq c q).kvWhere c q s with
      | .ok (b, u) => s.kvForward c q = u.modSeq c q fun x => { x with kvLeft := some (b ++ as) }
      | .error _ => s.kvForward c q = s.modSeq c q fun x => { x with kvLeft := some as }) ∧
    (∀ as, (s.seq c q).kvLeft = some as → s.kvRest c q =
      ((List.range (3 * as.length)).foldl (fun t _ => t.kvForward c q) s).modSeq c q fun x => { x with kvLeft := none, kvPlaces := [] })

/-- R103, R215, R294, R299, R301, R304, R309: `ep.hist` pushes the tiles of each expert it names and counts its routings,
`ep.rep` and `ep.done` enter the load queue, `ep.grad` the store queue once every byte of the buffers resolves (log
entry 73), and so does `xk.kick` once its ring's descriptor has been read and is good; a descriptor that is poisoned traps
ECC_UNCORRECTABLE by the model's choice (log entry 121). -/
def Obligations.ExpertAndKickTriggers : Prop :=
  ∀ (g : BitVec 7) (a : BitVec 12) (s s' : State) (v : Value),
    let o := s'.myCore.epo.toNat
    let t := v.toS
    (SourceRead s g a .v v s' → s.mayReach (some .ep) = true →
      let ne := min (o / 65536 % 256) 32
      let tpr := if o / 2 ^ 24 % 256 = 0 then 1 else o / 2 ^ 24 % 256
      let cnt := fun e : Nat => ((List.range 64).filter fun i => (s.guardMask g).getLsbD i && (lane v.toV i).toNat == e).length
      if 32 < s'.me.countQueue.length + ne then exec (.epHist g a) s = trapAt s s' .loopOverflow 0
      else ∃ u : State, exec (.epHist g a) s = .next u.slotDone ∧
        u.me.countQueue = s'.me.countQueue ++ (List.range ne).map (fun j =>
          let e := o / 256 % 256 + j
          BitVec.ofNat 64 (if e < 256 then (cnt e + tpr - 1) / tpr else 0)) ∧
        u.trestle.arriving = s'.trestle.arriving ++ (if s'.trestle.en then
          ((List.range 256).filter fun e => cnt e != 0).map fun e => (o % 256 * 256 + e, cnt e) else []) ∧ u.mem = s'.mem) ∧
    (Leased .ep s g a v s' →
      (LoadRoom s' → ∃ x, exec (.epRep g a) s = .next (s'.enterLoad x).slotDone ∧ Fresh s' x ∧ x.cls = .v ∧ x.kind = .epRep t) ∧
      (LoadRoom s' → o = 0 → ∃ (u : State) (x : LoadEntry), exec (.epDone g a) s = .next u.slotDone ∧ MarkedLoad s' u x ∧
        x.cls = .s ∧ x.parts = [] ∧ x.kind = .epDone (t &&& ~~~(0x1000000 : Word))) ∧
      (∀ l, LoadRoom s' → s'.me.stores.length < 64 → o ≠ 0 → o % 8 = 0 →
        s'.resolve s'.cur.core s'.cur.q .atomic ((o + 8 * (t.toNat / 2 ^ 32 / 64)) % 2 ^ 64) = .at l →
        ∃ (u : State) (x : LoadEntry) (y : StoreEntry), exec (.epDone g a) s = .next u.slotDone ∧ MarkedLoad s' u x ∧
          MarkedStore s' u y ∧ x.cls = .s ∧ x.parts = [.bytes l 8] ∧ x.kind = .epDone (t ||| 0x1000000) ∧ y.kind = .atomic) ∧
      (LoadRoom s' → s'.me.stores.length < 64 → o ≠ 0 → o % 8 ≠ 0 → exec (.epDone g a) s =
        trapAt s s' .misaligned (BitVec.ofNat 64 (o + 8 * (t.toNat / 2 ^ 32 / 64)))) ∧
      (s'.me.stores.length < 64 →
        let p := t.toNat % 65536
        (o % 256 ≠ 0 → exec (.epGrad g a) s = trapAt s s' .misaligned (BitVec.ofNat 64 (s'.slotBase p 0 + o))) ∧
        (o % 256 = 0 → (∀ sl ∈ 0 :: s'.trestle.gradSlots p, ∀ i < s'.gradBytes p / 256,
            ∃ l, s'.resolve s'.cur.core s'.cur.q .store (s'.slotBase p sl + o + 256 * i) = .at l) →
          ∃ (u : State) (y : StoreEntry), exec (.epGrad g a) s = .next u.slotDone ∧ MarkedStore s' u y ∧
            y.kind = .grad p o (RM.code s'.me.rm) 0 0 ∧ u.trestle.grads = s'.trestle.grads ++ [p]))) ∧
    (Leased .xk s g a v s' → s'.me.stores.length < 64 →
      (s'.me.done = false → exec (.xkKick g a) s = waitAt s s'.marker .kick) ∧
      (s'.me.done = true → s'.ringVa s'.me.asid (t.toNat % 16) = none → exec (.xkKick g a) s = trapAt s s' .xformRing 0) ∧
      (∀ va, s'.me.done = true → s'.ringVa s'.me.asid (t.toNat % 16) = some va → s'.resolve s'.cur.core s'.cur.q .load va = .miss →
        exec (.xkKick g a) s = kvFreezes s s' va) ∧
      (∀ va l, s'.me.done = true → s'.ringVa s'.me.asid (t.toNat % 16) = some va →
        s'.resolve s'.cur.core s'.cur.q .load va = .at l →
        let r := s'.readHome s'.cur.core l 32
        if r.2 = true then exec (.xkKick g a) s = trapAt s s' .eccUncorrectable (BitVec.ofNat 64 va)
        else if (ringDesc r.1).isSome = true then
          exec (.xkKick g a) s = .next (s'.addStore (.kick s'.me.asid (t.toNat % 16) (RM.code s'.me.rm)) []).slotDone
        else exec (.xkKick g a) s = trapAt s s' .xformRing 0))

/-- R14, R55, R64, R66, R98, R99: a trigger of a leased unit that the sequencer may not reach traps UNIT_NOT_OWNED whatever
its guard; a class-S trigger whose guard bit is clear is not taken and its source is not read; one whose source traps
takes that trap at its slot, after the freeze of one that finds the store queue full.  A trigger of class V or P whose source
is a pop of the count queue is not taken either when bit 0 of its guard is clear, by the model's reading of R78 (log entry
131). -/
def Obligations.TriggerGates : Prop :=
  (∀ f ∈ ownTriggers, ∀ s, ScalarGate f (fun _ => False) s) ∧
  (∀ f ∈ storingTriggers, ∀ s, ScalarGate f (fun _ => True) s) ∧
  (∀ e ∈ leasedScalar, ∀ s, s.mayReach (some e.1) = true → ScalarGate e.2 (storesLeased e.2) s) ∧
  (∀ e ∈ leasedScalar ++ leasedVector, ∀ (g : BitVec 7) (a : BitVec 12) (s : State), s.cur.live = true →
    s.mayReach (some e.1) = false → exec (e.2 g a) s = trapNow s .unitNotOwned 0) ∧
  (∀ (g : BitVec 7) (s : State), s.cur.live = true → (s.guardMask g).getLsbD 0 = false →
    (∀ f ∈ ownWide, exec (f g 0x0AC) s = .next s.slotDone) ∧
    ∀ e ∈ leasedVector, s.mayReach (some e.1) = true → exec (e.2 g 0x0AC) s = .next s.slotDone)

/-- R97, R101, R104 to R106, R115, R117, R120, R123, R198, R210, R241, R245, R246, R288, R339: the next load-class entry is
read line by line, every part of one line in one step, and with the last part it is performed with what its bytes make;
`kv.map` reads its table words one by one and delivers the address of its token or is marked; data that has been read arrives,
once its fill has landed; a record read fills the record
buffer, from the record cache where it is kept, but from no entry older than a fence that it follows and that is still
pending; and a fence with everything before it performed empties that cache.  The model's readings: what one step reads of
an operation is what lies in one line (log entry 80), and the accesses of `kv.map` to the tables (57), and a copy that is older than a store which R212
orders before the read is read again at home (111). -/
def Obligations.LoadsArePerformed : Prop :=
  (∀ (c q : Nat) (s : State) (e : LoadEntry), GoesNow s c q e → (s.core c).tfOpOf q e.order = none →
    (∀ x ∈ e.ahead, e.parts.length < x.1) →
    let done := fun (r : (List Byte × Bool) × State) (stamp : Bool) (v : Value) => Host.Outcome.next (φ := Fault) (ρ := Refusal)
      (r.2.editLoad c q e.order fun _ => { e with
        performed := true, parts := [], got := [], ahead := [], poisoned := e.poisoned || r.1.2, stampOk := stamp, value := v,
        mark := if e.poisoned || r.1.2 then some .eccUncorrectable else e.mark })
    (∀ p, e.parts = [p] → e.mark = none → (e.check.isSome = true → e.ahead = []) →
      let r := (s.freshPart c e p).readPart c e.check.isSome p
      Shaped e.kind (e.got ++ r.1.1) → ∃ v, MadeOf e.kind (e.got ++ r.1.1) v ∧
        exec (.loadPerformed c q) s = done r (if e.check.isSome then s.stampHolds e else e.stampOk) v) ∧
    (∀ p x ps, e.parts = p :: x :: ps → e.check = none → (∀ y ∈ x :: ps, OtherLine p y) →
      (∃ b, Shaped e.kind b) →
      let r := (s.freshPart c e p).readPart c false p
      ∃ h : List (Nat × (List Byte × Bool)), (∀ y ∈ h, (x :: ps).length < y.1) ∧ exec (.loadPerformed c q) s =
        .next (r.2.editLoad c q e.order fun _ => { e with
          got := e.got ++ r.1.1, parts := x :: ps, ahead := h, poisoned := e.poisoned || r.1.2 })) ∧
    (∀ line runs, runs ≠ [] → e.parts = runs.map (fun r => .bytes (.mem r.1) r.2) → (∀ r ∈ runs, lineIndex r.1 = line) →
      e.check = none → e.mark = none →
      let r := (s.freshFor c e line).cachedRuns c line runs
      let b := e.got ++ (r.1.map (·.1)).flatten
      Shaped e.kind b → ∃ v, MadeOf e.kind b v ∧
        exec (.loadPerformed c q) s = done ((b, r.1.any (·.2)), r.2) e.stampOk v) ∧
    (∀ kseq pos rstride base turn, e.kind = .kvMap kseq pos rstride base turn → (s.core c).mapWaits q e = false →
      let v := s.mapView c q e
      let get := readOr e.words fun va n => .error (.need va n)
      let at_ := s.kvAt c q
      let fails := fun (k : Cause) (va : Nat) => Host.Outcome.next (φ := Fault) (ρ := Refusal)
        (s.editLoad c q e.order fun e => { e with performed := true, mark := some k, markAddr := BitVec.ofNat 64 va })
      let stop := fun faults reason page => match v.recordMiss c q faults with
        | some _ => Host.Outcome.next (φ := Fault) (ρ := Refusal) s
        | none => .next (((v.kvRecord c q faults (faultOf kseq reason pos noFrame page)).performed c q e.order (.s 0) (some .kvBounds)).modSeq
            c q fun x => { x with walks := (s.seq c q).walks })
      (∀ va n, s.mapLook c q e = .error (.need va n) → match v.kvGet c q va n with
        | .ok w => exec (.loadPerformed c q) s = .next (s.editLoad c q e.order fun e => { e with words := e.words ++ [((va, n), w)] })
        | .error (.access k va) => exec (.loadPerformed c q) s = fails k va
        | .error _ => exec (.loadPerformed c q) s = .next s) ∧
      (at_ = 0 → exec (.loadPerformed c q) s = stop 0 5 0) ∧
      ∀ d, kvDescBy get at_ = .ok (some d) →
        (d.nseq ≤ kseq → exec (.loadPerformed c q) s = stop d.faults 5 0) ∧
        ∀ x, kseq < d.nseq → kvSeqBy get d kseq = .ok x →
          (x.length ≤ pos → exec (.loadPerformed c q) s = stop d.faults 1 (pos / 16)) ∧
          ∀ f, pos < x.length → get (x.plist + 4 * (pos / 16)) 4 = .ok f → exec (.loadPerformed c q) s =
            .next (s.performed c q e.order (.s (BitVec.ofNat 64 (base.toNat + (f * 16 + pos % 16) * rstride))) none))) ∧
  (∀ (c q i : Nat) (s : State) (e : LoadEntry), ((s.seq c q).loads ++ (s.seq c q).handlerLoads)[i]? = some e →
    e.performed = true → e.arrived = false → e.landsAt ≤ s.clock → e.fillAt ≤ s.clock → e.kind ≠ .tileLoad → e.kind ≠ .bind →
    exec (.loadDataArrival c q i) s = .next (s.editLoad c q e.order fun e => { e with arrived := true })) ∧
  (∀ (c q : Nat) (s : State) (e : LoadEntry) (fences : List (Nat × Nat)) (l : Loc) (n : Nat), GoesNow s c q e →
    e.kind = .record fences → e.parts = [.bytes l n] →
    (∀ f ∈ fences, ∀ y ∈ (s.seq c f.1).stores, f.2 < y.epoch) →
    let k := s.core c
    let stale := fun pa => ∃ f ∈ fences, f ∈ k.rfences ∧ f ∉ mapGet [] k.refills pa
    (∀ pa b, l = .mem pa → ¬ stale pa → k.records.lookup pa = some b →
      ∃ t : State, exec (.recordRead c q) s = .next t ∧ (t.seq c q).recordBuf = some (some b) ∧ t.mem = s.mem) ∧
    ((∀ pa, l = .mem pa → stale pa ∨ k.records.lookup pa = none) → ∃ t : State, exec (.recordRead c q) s = .next t ∧ t.mem = s.mem ∧
      let r := (s.freshPart c e (.bytes l n)).readPart c false (.bytes l n)
      (t.seq c q).recordBuf = some (if r.1.2 then none else some r.1.1))) ∧
  (∀ (c q : Nat) (s : State) (n : Nat), (q, n) ∈ (s.core c).rfences → EpochOver (s.seq c q) n →
    ∃ t : State, exec (.recordCacheEmpty c q) s = .next t ∧ (t.core c).records = [] ∧ (q, n) ∉ (t.core c).rfences ∧
      t.seq c q = s.seq c q ∧ t.mem = s.mem)

/-- R19, R33, R41, R92, R94, R98, R99, R162, R167, R198, R203, R204, R268, R283: the last entry that a walk reads answers
every miss of its die to its page and address space, filling each TLB, which loses an entry when all 64 are in use; a hold
ends once what it waits for is there: the ends of freezes, and of flag-waits.  The model's choices: which entry a full TLB
loses is free (log entry 7), what a walk has found is kept for its bundle (89), and `cr.tlbinv` waits for the other
sequencers of its address space to drop what it drops, each in a step of its own (33), and a kv
operation reads its tables word by word while it waits (109). -/
def Obligations.HoldsEnd : Prop :=
  (∀ (c q : Nat) (s : State) (w : Walker), s.walkerOf c q = some w →
    let ends := fun found => ∃ t : State, exec (.tlbWalk c q) s = .next t ∧ t.mem = s.mem ∧ w ∉ (t.die (dieOf c)).walkers ∧
      ∀ u, Missing s (dieOf c) w found u → Answered s t w found u
    (c, q) ∉ w.barred ∧ w ∈ (s.die (dieOf c)).walkers ∧
      (∃ m, (s.bundleMiss c q = some m ∨ s.mapMiss c q = some m) ∧ w.asid = m.1 ∧ w.granule = m.2 / 65536) ∧
      match s.walkerNext w with
      | .down _ => exec (.tlbWalk c q) s = .next s
      | .found p => ends (some p)
      | .failed => ends none) ∧
  (∀ (c q asid va : Nat) (s : State), (s.seq c q).hold = some (.walk asid va) → (s.seq c q).awaits asid va = true →
    s.bundleMiss c q = some (asid, va)) ∧
  ∀ (c q : Nat) (s : State) (h : Hold), (s.seq c q).hold = some h →
    let x := s.seq c q
    let k := s.core c
    let free := Host.Outcome.next (φ := Fault) (ρ := Refusal) (s.setSeq c q { x with hold := none })
    let ready := Host.Outcome.next (φ := Fault) (ρ := Refusal) (s.setSeq c q { x with hold := none, done := true })
    let drained := x.stores = [] ∧ ∀ e ∈ x.loads ++ x.handlerLoads, e.performed = true
    (∀ asid va, h = .walk asid va → (∃ p ∈ x.tlb, p.covers asid va = true) ∨ (∃ w ∈ x.walks, w.asid = asid ∧ w.granule = va / 65536) →
      exec (.freezeEnd c q) s = free) ∧
    (h = .storeRoom → x.stores.length < 64 → exec (.freezeEnd c q) s = free) ∧
    (h = .sendRoom → k.sends.length < 8 → exec (.freezeEnd c q) s = free) ∧
    (h = .circuitPop → k.circuit ≠ [] → exec (.freezeEnd c q) s = free) ∧
    (∀ e r, h = .popData → popFirst x.loadQueue = some (e, r) → e.arrived = true → exec (.freezeEnd c q) s = free) ∧
    (∀ w r tf, h = .tiles w r tf → TilesFree k w r (if tf then k.tfOps else k.mxOps) (if tf then 8 else 4) →
      exec (.flagWaitEnd c q) s = free) ∧
    (∀ tag, h = .stopk tag → k.stopk = none → k.tileReady tag = true → exec (.flagWaitEnd c q) s = free) ∧
    (∀ m : BitVec 18, h = .wait m → (∀ t < 16, m.getLsbD t = true → mapGet false k.notReady t = false) →
      (m.getLsbD 16 = true → x.stores = []) → (m.getLsbD 17 = true → ∀ e ∈ x.loadQueue, e.arrived = true) →
      exec (.flagWaitEnd c q) s = free) ∧
    (h = .wake → (k.seq (1 - q)).run ≠ .ending → exec (.flagWaitEnd c q) s = free) ∧
    (h = .rftDrain → (∀ e ∈ x.handlerLoads, e.performed = true) → exec (.flagWaitEnd c q) s = free) ∧
    (h = .sstep → x.stepDone = true → exec (.flagWaitEnd c q) s = free) ∧
    (h = .record → x.recordBuf.isSome = true → exec (.flagWaitEnd c q) s = free) ∧
    (∀ ls, h = .cinv ls → drained → (∀ l ∈ ls, k.lineDirty l = false) → exec (.flagWaitEnd c q) s = free) ∧
    (∀ m, h = .cede m → exec (.flagWaitEnd c q) s = ready) ∧
    (h = .region ∨ h = .kick → drained → exec (.flagWaitEnd c q) s = ready) ∧
    (∀ op, h = .kv op → x.kvLeft = some [] ∨ x.kvLeft = none ∧ drained ∧ k.kvBehind q k.kvTurn = false ∧ (k.seq (1 - q)).kvLeft.getD [] = [] →
      exec (.flagWaitEnd c q) s = ready) ∧
    (∀ all va left, h = .invalidate all va left →
      (left = [] → exec (.flagWaitEnd c q) s = ready) ∧
      ∀ u ∈ left, u ≠ (c, q) → let t := s.dropOther c q u
        let y := s.seq u.1 u.2
        t.mem = s.mem ∧ t.seq c q = { x with hold := some (.invalidate all va (left.erase u)) } ∧
          (t.seq u.1 u.2).tlb = y.tlb.filter fun p => !(p.asid == y.asid && (all || p.covers y.asid va)))

/-- R197, R198, R212, R213, R215 to R218, R220 to R222, R224: an acquire delivers the word and drops the copies that its
signature names, by scope, once no dirty sector of them is left; where it synchronises, what its sequencer does next follows
what the release follows (log entry 99); an atomic on memory, whose line has no dirty sector in the core's banks, returns the
old word and writes the new one in one step, unless the word is poisoned; `bget` takes the lowest free entry; and a batch of remote atomics is applied when its revolution closes. -/
def Obligations.AcquiresAndAtomics : Prop :=
  (∀ (c q : Nat) (s : State) (e : LoadEntry) (scope pa : Nat), NextLoad (s.seq c q) e → e.kind = .acquire scope →
    e.parts = [.bytes (.mem pa) 8] → s.cut (dieOf c) pa = false → s.acquireWaits c e = false →
    let named := fun line => (s.sigOf pa).getLsbD (lineHash line)
    ∃ t : State, exec (.acquirePerform c q) s = .next t ∧ t.mem = s.mem ∧ t.sigOf pa = s.sigOf pa ∧
      PerformedWith (t.seq c q) e.order (.s (wordAt s pa)) (if s.poisonedAt pa 8 then some .eccUncorrectable else none) ∧
      (2 ≤ scope → ∀ l ∈ (t.core c).cache, named l.line = false) ∧
      (t.seq c q).rsig = (s.seq c q).rsig ∧
      (∀ r, mapGet none s.released pa = some r → r.meets (c, q) scope = true → (t.seq c q).chain = (s.seq c q).chain.join r.chain) ∧
      ((∀ r, mapGet none s.released pa = some r → r.meets (c, q) scope = false) → (t.seq c q).chain = (s.seq c q).chain) ∧
      (3 ≤ scope → ∀ l ∈ (t.die (dieOf c)).remote, named l.line = true → l.pins ≠ 0)) ∧
  (∀ (c q : Nat) (s : State) (e : LoadEntry) (y : StoreEntry) (rest : List StoreEntry) (op : AtomicOp) (a b : Word) (pa : Nat),
    NextLoad (s.seq c q) e → e.kind = .atomic op a b → e.parts = [.bytes (.mem pa) 8] → (s.seq c q).stores = y :: rest →
    y.kind = .atomic → y.order = e.order + 1 → s.cut (dieOf c) pa = false → (s.core c).lineDirty (lineIndex pa) = false →
    let unchained := fun l : List StoreEntry => l.map fun z => { z with chain := {} }
    ∃ t : State, exec (.atomicApply c q) s = .next t ∧ unchained (t.seq c q).stores = unchained rest ∧
      PerformedWith (t.seq c q) e.order (.s (wordAt s pa)) (if s.poisonedAt pa 8 then some .eccUncorrectable else none) ∧
      (s.poisonedAt pa 8 = true → t.mem = s.mem) ∧
      (s.poisonedAt pa 8 = false → match atomicWrites op (wordAt s pa) a b with
        | some v => ∀ p, t.readByte p = afterWrite pa ((natBytes 8 v.toNat).map some) s.readByte p
        | none => t.mem = s.mem)) ∧
  (∀ (c q : Nat) (s : State) (e : LoadEntry) (y : StoreEntry) (rest : List StoreEntry) (p : Nat), NextLoad (s.seq c q) e →
    e.kind = .bget p → e.parts = [] → (s.seq c q).stores = y :: rest → y.kind = .atomic → y.order = e.order + 1 →
    let d := dieOf c
    (∀ i < 4096, (s.barrierAt d i).taken = false → (∀ j < i, (s.barrierAt d j).taken = true) → p ≠ 0 →
      ∃ t : State, exec (.atomicApply c q) s = .next t ∧ t.mem = s.mem ∧ (t.seq c q).stores = rest ∧ (t.barrierAt d i).taken = true ∧
        (t.barrierAt d i).parties = p ∧ (t.barrierAt d i).count = 0 ∧ (t.barrierAt d i).gen = (s.barrierAt d i).gen % 4095 + 1 ∧
        PerformedWith (t.seq c q) e.order
          (.s (BitVec.ofNat 64 (i + d * 2 ^ 18 + ((s.barrierAt d i).gen % 4095 + 1) * 2 ^ 20))) none) ∧
    (p = 0 ∨ (∀ i < 4096, (s.barrierAt d i).taken = true) → ∃ t : State, exec (.atomicApply c q) s = .next t ∧
      t.dies = s.dies ∧ (t.seq c q).stores = rest ∧ PerformedWith (t.seq c q) e.order (.s 0) none)) ∧
  (∀ (c : Nat) (s : State) (r : RemoteAtomic) (v : Word), (s.core c).atomics = [r] → r.closes ≤ s.clock →
    (s.core c).spadPoisonedAt r.off 8 = false →
    atomicWrites r.op (BitVec.ofNat 64 (leNat ((s.core c).readSpad r.off 8))) r.a r.b = some v →
    ∃ t : State, exec (.remoteAtomicBatch c) s = .next t ∧ (t.core c).atomics = [] ∧
      ∀ i < 8, mapGet 0 (t.core c).spad (r.off + i) = v.extractLsb' (8 * i) 8)

/-- R101, R107, R167, R175, R197, R198, R206, R210, R216, R217, R248, R304, R309: the store at the head writes its next run
at its place, and only there, a tile's once tf has read the tile; a release publishes its signature and its word; a
rebuild recomputes one line's record of the registration that it was triggered on; a gradient merge adds the buffers of
the slots to one line of the master's, in ascending slot order, and after the last line sets its flags and leaves; a kick
leaves the queue with its effect.  The model's choices: the lines of a gradient merge lie in Trestle's address space (log
entry 73), the last of several kicks held gives the rounding mode of the run that follows (103), and a release keeps with
its word who made it and what it follows (99). -/
def Obligations.StoresArePerformed : Prop :=
  (∀ (c q : Nat) (s : State) (y : StoreEntry) (p : StorePart) (ps : List StorePart) (rest : List StoreEntry),
    NextStore (s.seq c q) y → (s.seq c q).stores = y :: rest →
    (y.kind = .plain ∨ ∃ n, y.kind = .tile n ∧ (s.core c).tfOpOf q y.order = none) → y.parts = p :: ps →
    let left := { s.seq c q with stores := if ps = [] then rest else { y with parts := ps, left := y.left - 1 } :: rest }
    (∀ pa, p.loc = .mem pa → s.cut (dieOf c) pa = false →
      ∃ t : State, exec (.merge c q) s = .next t ∧ (∀ a, t.readByte a = afterWrite pa p.bytes s.readByte a) ∧
        t.seq c q = left ∧ ∀ k, (t.core k).spad = (s.core k).spad) ∧
    (∀ o off, p.loc = .spad o off →
      ∃ t : State, exec (.scratchpadStorePerformed c q) s = .next t ∧ t.mem = s.mem ∧
        (∀ a, mapGet 0 (t.core o).spad a = afterWrite off p.bytes (mapGet 0 (s.core o).spad) a) ∧
        t.seq c q = left ∧ ∀ k, k ≠ o → (t.core k).spad = (s.core k).spad)) ∧
  (∀ (c q n : Nat) (s : State) (y : StoreEntry), NextStore (s.seq c q) y → y.kind = .tile n →
    (s.core c).tfOpOf q y.order ≠ none → exec (.merge c q) s = .next s ∧ exec (.scratchpadStorePerformed c q) s = .next s) ∧
  (∀ (c q : Nat) (s : State) (y : StoreEntry) (rest : List StoreEntry), NextStore (s.seq c q) y → (s.seq c q).stores = y :: rest →
    (∀ pa v sig scope, y.kind = .release pa v sig scope → s.cut (dieOf c) pa = false →
      ∃ t : State, exec (.releasePerform c q) s = .next t ∧ t.sigOf pa = sig ∧
        mapGet none t.released pa = some { party := some (c, q), scope := scope, chain := s.past c q y.chain } ∧
        t.seq c q = { s.seq c q with stores := rest } ∧
        ∀ a, t.readByte a = afterWrite pa ((natBytes 8 v.toNat).map some) s.readByte a) ∧
    (∀ key serial line r, y.kind = .rebuild key serial line → s.region key = some r → r.serial = serial →
      let l := r.pages.getD (line / 256) 0 + 256 * (line % 256)
      s.cut (dieOf c) l = false →
      ∃ t : State, exec (.drebuildPerform c q) s = .next t ∧ t.mem = s.mem ∧
        t.digest l = { payload := digestPayload r.etype r.kind r.seed (s.readMem l 256), valid := true, kind := BitVec.ofNat 4 r.kind,
                         poisoned := false, stamp := if (s.digest l).poisoned then 0 else (s.digest l).stamp } ∧
        (∀ a ≠ l, t.digest a = s.digest a) ∧
        (t.seq c q).stores = if r.length / 256 ≤ line + 1 then rest else { y with kind := .rebuild key serial (line + 1) } :: rest) ∧
    (∀ key serial line, y.kind = .rebuild key serial line → (∀ r, s.region key = some r → r.serial ≠ serial) →
      ∃ t : State, exec (.drebuildPerform c q) s = .next t ∧ t.digests = s.digests ∧ (t.seq c q).stores = rest) ∧
    (∀ p goff rm line flags m, y.kind = .grad p goff rm line flags → (∀ sl < 4, (s.trestle.slot p sl).inflight = 0) →
      (line < s.gradBytes p / 256 → s.gradPlace p goff line 0 = some m →
        let slots := (s.trestle.gradSlots p).filterMap (s.gradPlace p goff line)
        (∀ a ∈ m :: slots, s.cut (s.slotDie p 0) a = false) →
        let word := fun a i => BitVec.ofNat 32 (leNat (s.readMem (a + 4 * i) 4))
        let sum := fun i k => (slots.take k).foldl (fun g a => (f32Add (RM.ofCode rm) g (word a i)).1) (word m i)
        ∃ (t : State) (f : Flags), exec (.epGradMerge c q) s = .next t ∧
          (∀ a, t.readByte a = afterWrite m (((List.range 64).map fun i => (natBytes 4 (sum i slots.length).toNat).map some).flatten)
            s.readByte a) ∧
          (∀ j < 7, f.getLsbD j = true ↔ ∃ i < 64, ∃ k < slots.length,
            (f32Add (RM.ofCode rm) (sum i k) (word (slots.getD k 0) i)).2.getLsbD j = true) ∧
          (t.seq c q).stores = { y with kind := .grad p goff rm (line + 1) (flags ||| f) } :: rest ∧ t.trestle = s.trestle) ∧
      (s.gradBytes p / 256 ≤ line → ∃ t : State, exec (.epGradMerge c q) s = .next t ∧ t.mem = s.mem ∧ (t.seq c q).stores = rest ∧
        (t.seq c q).fpctl = orFlags (s.seq c q).fpctl flags ∧ t.trestle.grads = s.trestle.grads.erase p)) ∧
    (∀ p goff rm line flags, y.kind = .grad p goff rm line flags → (∃ sl < 4, (s.trestle.slot p sl).inflight ≠ 0) →
      exec (.epGradMerge c q) s = .next s) ∧
    (∀ asid ring rm, y.kind = .kick asid ring rm →
      ∃ (t : State) (r : Ring), exec (.merge c q) s = .next t ∧ (t.seq c q).stores = rest ∧ t.mem = s.mem ∧
        t.ring asid ring = some r ∧ r.running = true ∧ r.nextRm = rm ∧
        (∀ x, s.ring asid ring = some x → x.running = true → r.again = true ∧ r.tail = x.tail)))

/-- R28, R69, R70, R139, R140, R159 to R161, R167, R171, R173, R176, R180 to R182, R185 to R187: results are presented;
the operations at the heads of tf and mx complete, their tiles written and ready: loads and conversions with every element
converted, products with every element summed in classical or in recombined order, sparse over the places that its metadata
names, grouped by the rows of its groups; a binding, which pins its lines one by one, a `stopk`, which writes its records one
by one from the keys as its first write found them, a drain and a unit end.  The sum of a chunk of finite terms is exact.  A load
of a zero-packed source holds its dense bytes (R172, R311), and a product reads a bound operand out of the lines that it has
read of it, and leaves the tile empty (R174).
The model's readings: a conversion into the tile's own format leaves the data as they are (log entry 61), a `stopk` reads
poisoned keys as stored (24), and a status with ERR 1 has EXP 0 (126). -/
def Obligations.UnitsComplete : Prop :=
  (∀ e ∈ ownPorts, ∀ (c q : Nat) (s : State), ∃ t : State, exec (.fixedLatencyResult c q e.1) s = .next t ∧
    Presented (e.2 (s.seq c q).results) (s.seq c q).now (e.2 (t.seq c q).results) ∧
    (∀ f ∈ ownPorts, f.1 ≠ e.1 → f.2 (t.seq c q).results = f.2 (s.seq c q).results) ∧ t.mem = s.mem ∧
    (t.seq c q).sregs = (s.seq c q).sregs ∧ (t.seq c q).ports = (s.seq c q).ports) ∧
  (∀ e ∈ vectorPorts, ∀ (c q : Nat) (s : State), (s.core c).owns q .vx = true →
    ∃ t : State, exec (.fixedLatencyResult c q e.1) s = .next t ∧ Presented (e.2 (s.core c)) (s.seq c q).now (e.2 (t.core c)) ∧
      (∀ f ∈ vectorPorts, f.1 ≠ e.1 → f.2 (t.core c) = f.2 (s.core c)) ∧ t.seq c q = s.seq c q ∧ t.mem = s.mem) ∧
  (∀ (c : Nat) (s : State) (op : TileOp) (rest : List TileOp), (s.core c).tfOps = op :: rest →
    let rm := RM.ofCode op.rm
    (∀ d x cf bcol, op.kind = .convert d x cf bcol →
      let a := (s.core c).tile x
      ∃ t : State, exec (.tileOpComplete c true) s = .next t ∧
        let b := (t.core c).tile d
        (t.core c).tfOps = rest ∧ OperationDone (s.core c) (t.core c) op d ∧ b.state = .resident ∧
        b.fmt = cf ∧ b.rows = a.rows ∧ b.cols = a.cols ∧ b.bdir = ((hxOf cf).isSome && bcol) ∧
        (∀ down, Whole a a.fmt down → cf ∈ [7, 8, 9, 10, 11, 12] → a.fmt ∈ [7, 8, 9, 10, 11, 12] →
          ((hxOf cf).isSome = true → (if bcol then a.rows else a.cols) % 16 = 0) →
          if cf = a.fmt ∧ ((hxOf cf).isSome = true → bcol = down) then b.data = a.data
          else if (hxOf cf).isSome = true ∧ bcol = true
            then ConvertedTo b.data cf rm a.cols a.rows (fun l i => elemVal (a, i, l)) (fun l i => i * a.cols + l)
            else ConvertedTo b.data cf rm a.rows a.cols (fun l i => elemVal (a, l, i)) (fun l i => l * a.cols + i))) ∧
    (∀ n cf d, op.kind = .load n cf d → op.ready = true →
      let broken := d.zpack = true ∧ Breaks ((d.rows * d.cols * elemBytes d.fmt + 255) / 256) op.got
      let status := d.tileDims.1 + d.tileDims.2 * 2 ^ 8 + n * 2 ^ 16
      ∃ t : State, exec (.tileOpComplete c true) s = .next t ∧ (t.core c).tfOps = rest ∧
        let b := (t.core c).tile n
        OperationDone (s.core c) (t.core c) op n ∧ b.state = .resident ∧
        b.fmt = (if cf = 0 then d.fmt else cf) ∧ b.rows = d.tileDims.1 ∧ b.cols = d.tileDims.2 ∧
        (∀ bytes, op.poisoned = false → SourceIs d op.got bytes →
          (cf = 0 ∨ cf = d.fmt → b.data = arrange d.fmt d.rows d.cols d.trans bytes) ∧
          (cf ≠ d.fmt → cf ∈ [7, 8, 9, 10, 11, 12] → d.fmt ∈ [7, 8, 9, 10, 11, 12] → bytes.length = tileBytes d.fmt d.rows d.cols →
            ((hxOf cf).isSome = true ∨ (hxOf d.fmt).isSome = true → d.cols % 16 = 0) → ConvertedTo b.data cf rm d.rows d.cols
              (fun l i => elemVal ({ Tile.init with fmt := d.fmt, rows := d.rows, cols := d.cols, data := bytes }, l, i))
              (fun l i => if d.trans then i * d.rows + l else l * d.cols + i)) ∧
          ∀ e ∈ (t.seq c op.q).loads, e.order = op.order → e.arrived = true ∧ e.mark = none ∧
            e.value = .s (BitVec.ofNat 64 (status + if d.zpack then 2 ^ 20 else 0))) ∧
        (op.poisoned = false → broken → ∀ e ∈ (t.seq c op.q).loads, e.order = op.order → e.arrived = true ∧ e.mark = none ∧
          e.value = .s (BitVec.ofNat 64 (status + 2 ^ 21))) ∧
        (op.poisoned = true → ∀ e ∈ (t.seq c op.q).loads, e.order = op.order → e.arrived = true ∧ e.mark = some .eccUncorrectable)) ∧
    (∀ n, op.kind = .store n → ∃ t : State, exec (.tileOpComplete c true) s = .next t ∧ (t.core c).tfOps = rest ∧
      (∀ x, (t.core c).claimsOf x = (s.core c).claimsOf x - op.reads.count x) ∧ (t.core c).tiles = (s.core c).tiles) ∧
    (∀ q e n d src lines, op.kind = .bind n d src lines → NextLoad (s.seq c q) e → e.kind = .bind → op.q = q → op.order = e.order →
      (∀ l, l ∈ s.bindable c q ↔ l ∈ lines ∧ (∀ b ∈ op.pinned, b.1 ≠ l) ∧ s.pinnable (dieOf c) l = true) ∧
      (∀ l ∈ s.bindable c q, let t := s.bindLine c l
        t.mem = s.mem ∧ ∃ b, (t.core c).tfOps = { op with pinned := op.pinned ++ [(l, b)] } :: rest ∧
          (homeDie (l * 256) ≠ dieOf c → ∃ m ∈ (t.die (dieOf c)).remote, m.line = l ∧ 1 ≤ m.pins)) ∧
      ((∃ l ∈ lines, ∀ b ∈ op.pinned, b.1 ≠ l) → exec (.tbindPinned c q) s = .next s) ∧
      ((∀ l ∈ lines, ∃ b ∈ op.pinned, b.1 = l) → ∃ t : State, exec (.tbindPinned c q) s = .next t ∧ (t.core c).tfOps = rest ∧ OperationDone (s.core c) (t.core c) op n ∧
        ((t.core c).tile n).state = .bound ∧ ((t.core c).tile n).src = src ∧ ((t.core c).tile n).lines = lines ∧
        ((t.core c).tile n).fmt = d.fmt ∧ ((t.core c).tile n).copies = op.pinned ∧ t.mem = s.mem))) ∧
  (∀ (c : Nat) (s : State) (op : TileOp) (rest : List TileOp), (s.core c).mxOps = op :: rest →
    let rm := RM.ofCode op.rm
    let k := s.core c
    (∀ d rows cols fmt, op.kind = .zero d rows cols fmt → ∃ t : State, exec (.tileOpComplete c false) s = .next t ∧
      (t.core c).mxOps = rest ∧ (t.core c).tileReady d = true ∧ ((t.core c).tile d).state = .resident ∧
      ((t.core c).tile d).rows = rows ∧ ((t.core c).tile d).cols = cols ∧ ((t.core c).tile d).fmt = fmt ∧
      ((t.core c).tile d).data = List.replicate (tileBytes fmt rows cols) 0) ∧
    (∀ d a b n acc cl fmt (x y : Nat → Tile), op.kind = .product d a b n acc cl → 1 ≤ n → fmt ∈ [2, 8, 9, 10, 11, 12] →
      op.reads = (List.range n).map (a + ·) ++ (List.range n).map (b + ·) → d ∉ op.reads →
      (∀ i < n, OperandRead k op (a + i) (x i) ∧ OperandRead k op (b + i) (y i)) →
      let (m, w) := ((x 0).rows, (y 0).cols)
      let kk := ((List.range n).map fun i => (x i).cols).sum
      (∀ i < n, Whole (x i) fmt false ∧ Whole (y i) fmt true ∧ (x i).rows = m ∧ (y i).cols = w ∧ (x i).cols = (y i).rows ∧ 1 ≤ (x i).cols) →
      MayAccumulate (k.tile d) acc fmt m w →
      ∃ t : State, exec (.tileOpComplete c false) s = .next t ∧ (t.core c).mxOps = rest ∧ OperationDone k (t.core c) op d ∧
        OperandsLeft k (t.core c) op ∧ ResultIs ((t.core c).tile d) fmt m w (fun r j =>
          if fmt ≠ 2 ∧ cl = false ∧ m = 64 ∧ w = 64 ∧ kk % 32 = 0 then
            let z : Place := (Tile.init, 0, 0)
            recombinedSum (kk / 2) rm (startAt (k.tile d) acc r j) (fun i l => elemVal ((rowOf n x i).getD l z))
              (fun l i => elemVal ((colOf n y i).getD l z)) r j
          else classicalSum fmt 16 rm (startAt (k.tile d) acc r j) ((rowOf n x r).zip (colOf n y j)))) ∧
    (∀ d a b n mt acc fmt (x y : Nat → Tile), op.kind = .sparse d a b n mt acc → 1 ≤ n → fmt ∈ [2, 8, 9] →
      op.reads = (List.range n).map (a + ·) ++ (List.range n).map (b + ·) ++ [mt] → d ∉ op.reads →
      (∀ i < n, OperandRead k op (a + i) (x i) ∧ OperandRead k op (b + i) (y i)) → op.bound.lookup mt = none →
      let (m, w) := ((x 0).rows, (y 0).cols)
      (∀ i < n, Whole (x i) fmt false ∧ Whole (y i) fmt true ∧ (x i).rows = m ∧ (y i).cols = w ∧ 2 * (x i).cols = (y i).rows ∧
        (y i).rows % 4 = 0 ∧ 1 ≤ (x i).cols) →
      Whole (k.tile mt) 1 false → (k.tile mt).rows = m → 8 * (k.tile mt).cols = ((List.range n).map fun i => (y i).rows).sum →
      MayAccumulate (k.tile d) acc fmt m w →
      ∃ t : State, exec (.tileOpComplete c false) s = .next t ∧ (t.core c).mxOps = rest ∧ OperationDone k (t.core c) op d ∧
        OperandsLeft k (t.core c) op ∧ ResultIs ((t.core c).tile d) fmt m w (fun r j =>
          classicalSum fmt 8 rm (startAt (k.tile d) acc r j) (sparsePairs (k.tile mt) r (rowOf n x r) (colOf n y j)))) ∧
    (∀ d a b n acc off fmt (x : Tile) (y : Nat → Tile), op.kind = .grouped d a b n acc off → 1 ≤ n → fmt ∈ [2, 8, 9, 10, 11, 12] →
      op.reads = a :: (List.range n).map (b + ·) → d ∉ op.reads → off.length = n + 1 →
      OperandRead k op a x → (∀ i < n, OperandRead k op (b + i) (y i)) →
      let (m, w) := (x.rows, (y 0).cols)
      Whole x fmt false → 1 ≤ x.cols → (∀ i < n, Whole (y i) fmt true ∧ (y i).cols = w ∧ (y i).rows = x.cols ∧ off.getD i 0 ≤ off.getD (i + 1) 0) →
      MayAccumulate (k.tile d) acc fmt m w →
      ∃ t : State, exec (.tileOpComplete c false) s = .next t ∧ (t.core c).mxOps = rest ∧ OperationDone k (t.core c) op d ∧
        OperandsLeft k (t.core c) op ∧ ResultIs ((t.core c).tile d) fmt m w (fun r j =>
          match (List.range n).find? fun i => decide (off.getD i 0 ≤ r ∧ r < off.getD (i + 1) 0) with
          | some i => classicalSum fmt 16 rm (startAt (k.tile d) acc r j) ((rowOf 1 (fun _ => x) r).zip (colOf 1 (fun _ => y i) j))
          | none => startAt (k.tile d) acc r j))) ∧
  (∀ (rm : RM) (ts : List FVal), (∀ x ∈ ts, ∃ n m e, x = .fin n m e) →
    (sumOf rm ts).2 = 0 ∧ ∃ n m e, (sumOf rm ts).1 = .fin n m e ∧
      (∀ lo : Int, lo ≤ 0 → (∀ x ∈ ts, ∀ n m e, x = .fin n m e → lo ≤ e) → scaled lo (.fin n m e) = (ts.map (scaled lo)).sum) ∧
      (m = 0 → ts ≠ [] → (n = true ↔ (∀ x ∈ ts, fIsNeg x = true) ∨ (∃ x ∈ ts, fIsNeg x = true) ∧ rm = .rdn))) ∧
  (∀ (c : Nat) (s : State) (o : Stopk), (s.core c).stopk = some o → EpochOver (s.seq c o.q) (o.epoch - 1) → o.k ≤ o.n →
    (∀ i < o.k, o.spoiled = false → i ∉ o.written → let t := s.stopkWrite c i
      t.mem = s.mem ∧ ∃ bs : List Byte, bs = o.out.getD (stopkRecords (s.core c) o) ∧
        (t.core c).stopk = some { o with out := some bs, written := i :: o.written } ∧
        (bs.length = 8 * o.k → (t.core c).readSpad (o.ooff + 8 * i) 8 = (bs.drop (8 * i)).take 8) ∧
        ∀ a, a < o.ooff + 8 * i ∨ o.ooff + 8 * i + 8 ≤ a → mapGet 0 (t.core c).spad a = mapGet 0 (s.core c).spad a) ∧
    ∃ t : State, exec (.stopkComplete c) s = .next t ∧ (t.core c).stopk = none ∧ (t.core c).ready o.tag = true ∧ t.mem = s.mem ∧
      (∀ bs, o.spoiled = false → o.out = some bs → bs.length = 8 * o.k → ∀ n < o.k,
        (t.core c).readSpad (o.ooff + 8 * n) 8 = if n ∈ o.written then (s.core c).readSpad (o.ooff + 8 * n) 8 else (bs.drop (8 * n)).take 8) ∧
      (o.spoiled = false → o.out = none → o.written = [] → ∃ l : List Nat, l.length = o.k ∧ (∀ i ∈ l, i < o.n) ∧
        l.Pairwise (fun i j => ranksBefore (stopkRank (s.core c) o i) (stopkRank (s.core c) o j) = true) ∧
        (∀ i ∈ l, ∀ j < o.n, j ∉ l → ranksBefore (stopkRank (s.core c) o i) (stopkRank (s.core c) o j) = true) ∧
        ∀ n < o.k, (t.core c).readSpad (o.ooff + 8 * n) 8 =
          natBytes 4 (l.getD n 0) ++ natBytes 4 (stopkRaw (s.core c) o (l.getD n 0)))) ∧
  (∀ (c : Nat) (s : State) (d : Drain), (s.core c).drain = some d →
    d.cycle + 2 + d.rows.length ≤ (s.seq c (if (s.core c).hold.getLsbD 1 then 1 else 0)).cycle →
    exec (.mdrainRow c) s = .next (s.modCore c fun k => { k with drain := none })) ∧
  (∀ (c q : Nat) (s : State), let x := s.seq c q
    x.run = .ending → x.stores = [] → x.loads = [] → (∀ o ∈ (s.core c).mxOps ++ (s.core c).tfOps, o.q ≠ q) → (s.core c).stopk = none →
    x.kvLeft.getD [] = [] →
    ((s.core c).launch = none → exec (.unitComplete c q) s = .next (s.setSeq c q { x with run := .idle })) ∧
    (∀ id l, (s.core c).launch = some id → s.launch id = some l → 2 ≤ l.counter → x.restart = false →
      ∃ t : State, exec (.unitComplete c q) s = .next t ∧ (t.seq c q).run = .idle ∧ t.mem = s.mem ∧
        t.launch id = some { l with counter := l.counter - 1, isFailed := l.isFailed || x.unitFailed,
                                    isAbsorbed := l.isAbsorbed || x.unitAbsorbed }))

/-- R42, R212, R217, R223, R225 to R231, R315: arrivals, frees and limits at the barrier table; supersteps; the departure and
the arrival of circuit vectors; and the enlargement of a receive queue.  The model's choices: what an arrival or a vector
hands on beside a signature (log entries 99, 111), and that a vector which a ring link loses arrives poisoned (121); a send waits for what its sequencer triggered before
it (105); the slots and the transit of a pair are free constants of the image, at least three clocks (104), and so is the
clock in which a vector lands on another die (38); the pool's share goes to the smallest full queue (R42). -/
def Obligations.BarriersStepsAndCircuits : Prop :=
  (∀ (c q : Nat) (s : State) (y : StoreEntry) (rest : List StoreEntry) (h : Word), NextStore (s.seq c q) y →
    (s.seq c q).stores = y :: rest → s.ringCut (dieOf c) (h.toNat / 2 ^ 18 % 4) = false →
    let (d, i) := (h.toNat / 2 ^ 18 % 4, h.toNat % 4096)
    let b := s.barrierAt d i
    let left := fun t : State => (t.seq c q).stores.map (·.order) = rest.map (·.order)
    (∀ g scope, y.kind = .arrival h g scope →
      let sig := b.sig ||| g
      (s.liveBarrier h = some b → ∃ t : State, exec (.barrierArrival c q) s = .next t ∧ left t ∧ t.mem = s.mem ∧
        (t.seq c q).arrival = some (h, b.phase) ∧
        (b.count + 1 = b.parties → (t.barrierAt d i).phase = b.phase + 1 ∧ (t.barrierAt d i).count = 0 ∧
          (t.barrierAt d i).sig = 0 ∧ mapGet 0 (t.barrierAt d i).doneSigs b.phase = sig) ∧
        (b.count + 1 ≠ b.parties → (t.barrierAt d i).phase = b.phase ∧ (t.barrierAt d i).count = b.count + 1 ∧
          (t.barrierAt d i).sig = sig ∧ (t.seq c q).rsig = (s.seq c q).rsig ∧ (t.seq c (1 - q)).rsig = (s.seq c (1 - q)).rsig ∧
          ∃ r ∈ (t.barrierAt d i).arrivals, r.party = some (c, q) ∧ r.scope = scope ∧ ∃ g : Past, r.chain = g.join (s.past c q y.chain))) ∧
      (s.liveBarrier h = none → ∃ t : State, exec (.barrierArrival c q) s = .next t ∧ (t.seq c q).stores = rest ∧ t.dies = s.dies ∧
        (t.seq c q).rsig = (s.seq c q).rsig ||| g ∧
        ((s.seq c q).run = .running → .barrierGeneration ∈ (t.seq c q).pending))) ∧
    (y.kind = .bfree h →
      (s.liveBarrier h = some b → ∃ t : State, exec (.barrierEntryFree c q) s = .next t ∧ left t ∧
        (t.barrierAt d i).taken = false ∧ (t.barrierAt d i).gen = b.gen ∧ t.liveBarrier h = none ∧ t.mem = s.mem) ∧
      (s.liveBarrier h = none → ∃ t : State, exec (.barrierEntryFree c q) s = .next t ∧ (t.seq c q).stores = rest ∧ t.dies = s.dies ∧
        ((s.seq c q).run = .running → .barrierGeneration ∈ (t.seq c q).pending)))) ∧
  (∀ (c q : Nat) (s : State) (e : LoadEntry) (h : Word) (limit deadline scope p : Nat), NextLoad (s.seq c q) e →
    e.kind = .bwait h limit deadline scope (some p) →
    (s.ringCut (dieOf c) (h.toNat / 2 ^ 18 % 4) = true →
      PerformedWith ((s.settleWait c q).seq c q) e.order (.s 0) (some .eccUncorrectable) ∧ (s.settleWait c q).mem = s.mem) ∧
    (s.ringCut (dieOf c) (h.toNat / 2 ^ 18 % 4) = false → limit ≠ 0xFFFFFFFF → deadline ≤ s.clock →
      (∀ b, s.liveBarrier h = some b → b.phase ≤ p) →
      ∃ t : State, exec (.bwaitLimitExpiry c q) s = .next t ∧ PerformedWith (t.seq c q) e.order (.s 1) none ∧ t.mem = s.mem)) ∧
  (∀ (id : Nat) (s : State) (l : Launch), s.launch id = some l → l.state = .running →
    let group := (s.liveUnits l).filter fun u => !(s.seq u.1 u.2).stepJoin
    s.clock % 512 = 0 → group ≠ [] →
    (l.stepping = none → (∀ u ∈ group, (s.seq u.1 u.2).run = .running ∧ (s.seq u.1 u.2).hold = some .sstep ∧ (s.seq u.1 u.2).stepDone = false) →
      (¬ AllLanded s l.cores group → exec (.communicationStepBegin id) s = .next (s.setLaunch id { l with stepping := some s.clock })) ∧
      (AllLanded s l.cores group → ∃ t : State, exec (.communicationStepBegin id) s = .next t ∧ t.clock = s.clock ∧
        ∀ u ∈ group, (t.seq u.1 u.2).stepDone = true ∧ (t.seq u.1 u.2).hold = none)) ∧
    (∀ c, l.stepping = some c → c < s.clock → AllLanded s l.cores group →
      ∃ (t : State) (m : Launch), exec (.computationStepBegin id) s = .next t ∧ t.launch id = some m ∧ m.stepping = none ∧ t.mem = s.mem ∧
        ∀ u ∈ group, (s.seq u.1 u.2).run = .running → (s.seq u.1 u.2).hold = some .sstep → (t.seq u.1 u.2).stepDone = true)) ∧
  (∀ (c i t0 : Nat) (s : State) (v : Vec) (k : Nat) (e : SendEntry), s.departures c = [i] → (s.core c).sends[i]? = some e →
    e.send = .vector t0 v k →
    (k + 2 ≤ s.clock ∧ (s.core t0).circuit.length < (s.core t0).circuitCap ∧ (∀ y ∈ (s.seq c e.q).stores, e.order < y.order) ∧
      (∀ y ∈ (s.seq c e.q).loads ++ (s.seq c e.q).handlerLoads, y.performed = true ∨ e.order < y.order ∨
        ∃ h l d sc p, y.kind = .bwait h l d sc p) ∧
      (dieOf t0 = dieOf c → ∀ g ∈ s.flights, g.src = c → g.target = t0 → g.left ≠ s.clock)) ∧
    ∃ (t : State) (f : Flight), exec (.cxSendDepart c) s = .next t ∧ (t.core c).sends = (s.core c).sends.eraseIdx i ∧
      t.flights = s.flights ++ [f] ∧ f.src = c ∧ f.target = t0 ∧ f.val = v ∧ f.poisoned = s.ringCut (dieOf c) (dieOf t0) ∧ f.chain = s.pastOfSend c e ∧
      f.left = s.clock ∧ s.clock + 3 ≤ f.clock ∧ ∀ g ∈ s.flights, g.src = c → g.target = t0 → g.clock ≤ f.clock) ∧
  (∀ (c : Nat) (s : State) (f : Flight), f ∈ s.flights → f.target = c → f.clock ≤ s.clock →
    (∀ g ∈ s.flights, g.target = c → g.clock ≤ s.clock → g = f) →
    ∃ t : State, exec (.cxVectorArrive c) s = .next t ∧ t.flights = s.flights.erase f ∧ t.mem = s.mem ∧
      (t.core c).circuit = (s.core c).circuit ++ [{ src := f.src, val := f.val, poisoned := f.poisoned, chain := f.chain }]) ∧
  (∀ (c k : Nat) (s : State) (m : McstFlight), s.mcasts = [m] → m.src = c → m.clock ≤ s.clock → m.targets = [k] →
    ∃ t : State, exec (.cxMcstLand c) s = .next t ∧ t.mcasts = [] ∧ t.mem = s.mem ∧
      ∀ i < 64, ∀ j < 4, mapGet 0 (t.core k).spad (m.off + 4 * i + j) =
        if m.mask.getLsbD i then (lane m.val i).extractLsb' (8 * j) 8 else mapGet 0 (s.core k).spad (m.off + 4 * i + j)) ∧
  (∀ (id c b : Nat) (s : State) (l : Launch), s.launch id = some l → l.blockedFrom = some b → b + 1024 ≤ s.clock → s.blocked l = true →
    c ∈ l.cores → (s.core c).circuitCap ≤ (s.core c).circuit.length →
    (∀ k ∈ l.cores, (s.core k).circuitCap ≤ (s.core k).circuit.length → k = c) →
    ((s.die l.die).pool ≠ 0 → ∃ t : State, exec (.circuitQueueEnlarge id) s = .next t ∧
      (t.core c).circuitCap = (s.core c).circuitCap + 16 ∧ (t.die l.die).pool = (s.die l.die).pool - 1 ∧ t.mem = s.mem))

/-- R36, R37, R92, R264, R266, R268, R269, R271 to R274: taking a trap and returning from one.  A running sequencer with a
handler enters it, for a precise cause or, at a boundary, for the first deferred one; with none the unit fails; a handler
of a CANCEL or PREEMPT whose budget is spent, or that returns, ends its unit; `rft` outside a handler traps PRIVILEGE;
a cancel is delivered to every active unit of a launch; and a phase's record is posted.  Said of sequencers whose trace
is off.  The model's choices: the table's row TRAP_ENTRY performs the entry on its arguments (log entry 17); control-register
writes of slots before the trap stay pending through the handler (28), and those of the bundle of `rft` precede the return
(95); a phase's record is posted once its checkpoint word is written (90). -/
def Obligations.TrapsTakenAndReturned : Prop :=
  (∀ (c q k : Nat) (code : BitVec 6) (fa : BitVec 64) (s : State), let x := s.seq c q
    x.run = .running → x.handler = false → x.budget = none → x.traceOn = false →
    (x.trapvec ≠ 0 → ∃ t : State, exec (.trapEntry c q code k fa) s = .next t ∧
      HandlerEntered x (t.seq c q) (Cause.ofCode code) k fa false s.clock ∧ t.mem = s.mem ∧ (t.seq c q).pending = x.pending) ∧
    (x.trapvec = 0 → (s.core c).launch = none → exec (.trapEntry c q code k fa) s = .next (s.stopUnit c q)) ∧
    (∀ id l, x.trapvec = 0 → (s.core c).launch = some id → s.launch id = some l → l.hdr.unitPolicy = 2 →
      Cause.ofCode code ≠ .cancel → Cause.ofCode code ≠ .preempt →
      ∃ (t : State) (m : Launch), exec (.trapEntry c q code k fa) s = .next t ∧ (t.seq c q).run = .ending ∧
        (t.seq c q).unitFailed = true ∧ t.launch id = some m ∧
        m.failure = some (l.failure.getD { cause := Cause.ofCode code, core := c, q := q }))) ∧
  (∀ (c q : Nat) (cause : Cause) (s : State), let x := s.seq c q
    x.run = .running → FirstPending x.pending cause → x.budget = none → x.traceOn = false →
    (x.handler = false → x.hold = none → x.recordBuf = none → x.done = false → x.trapvec ≠ 0 →
      ∃ t : State, exec (.deferredTrap c q) s = .next t ∧ HandlerEntered x (t.seq c q) cause x.slot 0 true s.clock ∧
        (t.seq c q).pending = x.pending.erase cause ∧ t.mem = s.mem) ∧
    (x.handler = true → cause = .cancel ∨ cause = .preempt → exec (.deferredTrap c q) s = .next (s.stopUnit c q))) ∧
  (∀ (c q n b : Nat) (s : State), (s.seq c q).budget = some (n, b) → 4096 ≤ n ∨ b + 65536 ≤ s.clock →
    ∃ t : State, exec (.handlerBudgetExpiry c q) s = .next t ∧ (t.seq c q).run = .ending ∧ (t.seq c q).handler = false ∧
      (t.seq c q).stores = (s.seq c q).stores ∧ (t.seq c q).sregs = (s.seq c q).sregs) ∧
  (∀ s : State, s.cur.live = true → let x := s.me
    (x.handler = false → exec .rft s = trapNow s .privilege 0) ∧
    (x.handler = true → x.budget = none → (∃ e ∈ x.handlerLoads, e.performed = false) → exec .rft s = waitAt s s .rftDrain) ∧
    (x.handler = true → x.budget.isSome = true → ∃ t : State, exec .rft s = .next t ∧ t.me.run = .ending ∧ t.cur.live = false) ∧
    (∀ o r, x.handler = true → x.budget = none → (∀ e ∈ x.handlerLoads, e.performed = true) → x.late = [] → x.traceOn = false →
      x.shadow = some (o, r) →
      ∃ t : State, exec .rft s = .next t ∧ t.cur.live = false ∧ t.mem = s.mem ∧ t.me.handler = false ∧ t.me.pc = x.xpc ∧
        t.me.slot = x.rslot.toNat ∧ t.me.ports = o ∧ t.me.results = r ∧ t.me.shadow = none ∧ t.me.clrHead = false ∧
        t.me.stepping = x.step ∧ t.me.sregs = x.sregs ∧ t.me.vregs = x.vregs ∧ t.me.pregs = x.pregs ∧ t.me.loops = x.loops ∧
        t.me.late = x.shadowLate ∧ t.me.lateFlags = x.shadowFlags ∧ t.me.stores = x.stores ∧ t.me.trapvec = x.trapvec ∧
        t.me.loads = (if x.clrHead = true ∧ x.headRecord = some .load then clearHead x.loads else x.loads))) ∧
  (∀ (id : Nat) (s : State) (l : Launch), s.launch id = some l → l.state = .running → (∀ u ∈ s.activeUnits l, (s.seq u.1 u.2).traceOn = false) →
    ∃ (t : State) (m : Launch), exec (.cancel .launch id) s = .next t ∧ t.launch id = some m ∧ m.isFailed = true ∧ m.cancelled = true ∧
      t.mem = s.mem ∧ ∀ u ∈ s.activeUnits l, if (s.seq u.1 u.2).trapvec = 0 ∨ (s.seq u.1 u.2).handler = true
        then (t.seq u.1 u.2).run = .ending else .cancel ∈ (t.seq u.1 u.2).pending) ∧
  (∀ (p : Nat) (s : State) (r : LevelRec), s.level .phase p = some r → r.posting = true →
    ∃ (t : State) (r' : LevelRec), exec (.phaseRecordPost p) s = .next t ∧ t.level .phase p = some r' ∧ r'.complete = true ∧
      r'.posting = false ∧ r.record .phase p ∈ t.posted ∧ t.mem = s.mem)

/-- R4, R31, R32, R191, R208, R232, R251, R253 to R255, R258 to R263: vectors are accepted or rejected, launches are placed,
gather tokens, and are stopped, saved and restored; a bank request that fails R191 completes the launch failed and disturbs
nothing (said where the vector opens its graph and is not its only launch, so that no level ends with it).  The model's
choices: which bays a launch takes among the free ones (log entry 39); periods of tokens counted from reset (41); times by
the die's clock as it was stepped (42); a save is one step (43); a child's levels (48); bays kept for a candidate (106); a
child takes over what its parent's spawn follows (99). -/
def Obligations.LaunchLifecycle : Prop :=
  (∀ (w : BitVec 512) (s : State), let v := startVecOf (natBytes 64 w.toNat)
    (s.vectorError v = .launchVector → ∃ t : State, exec (.startVector w) s = .next t ∧
      t.posted = s.posted ++ [{ level := .launch, id := s.nextLaunch, status := .failed, cause := .launchVector, core := 0, q := 0, kills := 0 }] ∧
      t.launches = s.launches ∧ t.graphs = s.graphs ∧ t.dies = s.dies ∧ t.mem = s.mem) ∧
    (∀ h, s.vectorError v = .launchBanks → s.headerFor v = some h → (∀ r, s.level .graph v.graph = some r → r.complete = true) →
      (∀ e ∈ s.launches, e.1 < s.nextLaunch) → 2 ≤ v.gsize →
      (max h.opbanks 2 + (h.scratch + 10239) / 10240 + 2 > 32) ∧ ∃ (t : State) (l : Launch) (r : LevelRec),
        exec (.startVector w) s = .next t ∧ t.launch s.nextLaunch = some l ∧ l.vec = v ∧ l.state = .complete ∧ l.isFailed = true ∧
        t.posted = s.posted ++ [{ level := .launch, id := s.nextLaunch, status := .failed, cause := .launchBanks, core := 0, q := 0, kills := 0 }] ∧
        t.level .graph v.graph = some r ∧ r.counter = v.gsize - 1 ∧ r.isFailed = true ∧ t.cores = s.cores ∧ t.mem = s.mem) ∧
    (∀ h, s.vectorError v = .none → s.headerFor v = some h → s.predecessorFailed v = false → s.levelCancelled v = false →
      ∃ (t : State) (l : Launch), exec (.startVector w) s = .next t ∧ t.nextLaunch = s.nextLaunch + 1 ∧ t.launch s.nextLaunch = some l ∧
        l.vec = v ∧ l.hdr = h ∧ l.state = .queued ∧ l.tokens = 0 ∧ t.mem = s.mem ∧
        s.nextLaunch ∈ (t.die l.die).queue v.queue ∧ (t.level .graph v.graph).isSome = true ∧ (t.level .job v.job).isSome = true)) ∧
  (∀ (c q : Nat) (s : State) (y : StoreEntry) (rest : List StoreEntry) (g : BitVec 1024) (p : StorePart) (ps : List StorePart)
      (id : Nat) (parent : Launch) (h : Header), NextStore (s.seq c q) y → (s.seq c q).stores = y :: rest → y.kind = .spawn g →
    y.parts = p :: ps → (s.core c).launch = some id → s.launch id = some parent →
    let v := { startVecOf (s.readLoc p.loc 64).1 with graph := parent.vec.graph }
    v.image = parent.vec.image → s.vectorError v = .none → s.headerFor v = some h → s.predecessorFailed v = false →
    s.levelCancelled v = false → parent.onEmpty ≠ .requeueTail → parent.onEmpty ≠ .discard →
    ∃ (t : State) (l : Launch), exec (.childLaunchAccept c q) s = .next t ∧ (t.seq c q).stores = rest ∧ t.nextLaunch = s.nextLaunch + 1 ∧
      t.launch s.nextLaunch = some l ∧ l.vec = v ∧ l.hdr = h ∧ l.state = .queued ∧ l.parentSig = some g ∧ l.parentPast = s.past c q y.chain ∧ t.mem = s.mem) ∧
  (∀ (d id : Nat) (s : State) (l : Launch), s.preempts d = none → s.nextPlaced d = some (id, l) → l.state = .queued →
    ∃ (t : State) (m : Launch), exec (.schedulerSelect d) s = .next t ∧ t.launch id = some m ∧ m.state = .running ∧
      m.started = s.clock ∧ m.counter = m.cores.length ∧ m.bays.length = l.hdr.bayCount ∧ (∀ b ∈ m.bays, b ∈ s.freeBays d) ∧ t.mem = s.mem ∧
      ∀ pos < m.cores.length, let x := t.seq (m.cores.getD pos 0) 0
        (t.core (m.cores.getD pos 0)).launch = some id ∧ x.run = .running ∧ x.pc = l.entryAt pos ∧ x.sreg 0 = l.vec.arg ∧
          x.sreg 1 = BitVec.ofNat 64 pos ∧ x.sreg 2 = BitVec.ofNat 64 l.hdr.cores ∧ (∀ n, 3 ≤ n → x.sreg n = 0) ∧
          (∀ n, n ≠ 0 → x.preg n = 0) ∧ x.cycle = 1 ∧ x.asid = l.asid ∧ (t.core (m.cores.getD pos 0)).held = l.hdr.claim) ∧
  (∀ (d id : Nat) (s : State) (l : Launch), (s.die d).accrued < s.clock → s.clock % 65536 = 0 → s.candidates d = [(id, l)] → s.draining d id = false →
    s.launch id = some l →
    ∃ t : State, exec (.tokenAccrual d) s = .next t ∧ (t.die d).accrued = s.clock ∧ t.mem = s.mem ∧
      t.launch id = some { l with tokens := min 255 (l.tokens + 1), holdOff := false }) ∧
  (∀ (id cid at_ : Nat) (s : State) (l cand : Launch), s.launch id = some l → l.state = .running → l.drain = some at_ →
    at_ + (s.die l.die).drainUs * microParts ≤ timeNow s l.die → l.forLaunch = some cid → s.launch cid = some cand →
    cand.state = .queued → (cand.tokens < (s.die l.die).killK ∨ l.hdr.killable = false) →
    exec (.drainRedecision id) s = .next (s.setLaunch id { l with drain := none, ckpt := some (timeNow s l.die) })) ∧
  (∀ (c q id : Nat) (s : State) (l : Launch), let x := s.seq c q
    x.run = .running → x.handler = false → x.slot = 0 → x.done = false → x.recordBuf = none → x.pending = [] → x.hold = none →
    (s.core c).launch = some id → s.launch id = some l → l.ckpt.isSome = true → (s.safeMasks c q).isSome = true →
    exec (.safePointStop c q) s = .next ((s.traceStallEnd c q).modSeq c q fun x => { x with run := .parked, hold := none, walks := [], start := none })) ∧
  (∀ (id at_ : Nat) (s : State) (l : Launch), s.launch id = some l → l.state = .running → l.ckpt = some at_ → s.allStopped l = false →
    at_ + 2 * (s.die l.die).drainUs * microParts ≤ timeNow s l.die → l.forLaunch = none →
    ∃ t : State, exec (.checkpointWithdraw id) s = .next t ∧ t.launch id = some { l with ckpt := none } ∧ t.mem = s.mem ∧
      ∀ u ∈ s.liveUnits l, (s.seq u.1 u.2).run = .parked → (t.seq u.1 u.2).run = .running) ∧
  (∀ (id : Nat) (s : State) (l : Launch), s.launch id = some l → s.saveReady l = true →
    ∃ (t : State) (m : Launch), exec (.checkpointSave id) s = .next t ∧ t.launch id = some m ∧ m.state = .saved ∧ m.bays = [] ∧
      m.ckpt = none ∧ m.saved.length = l.cores.length ∧ t.savedReports = s.savedReports ++ [id] ∧
      (∀ c ∈ l.cores, (t.core c).launch = none) ∧ ((t.die l.die).queue l.vec.queue).head? = some id) ∧
  (∀ (id : Nat) (s : State) (l : Launch), s.launch id = some l → l.state = .restoring → l.cancelled = false →
    (l.saved.map fun x => l.cores.getD x.position 0).Nodup →
    ∃ (t : State) (m : Launch), exec (.launchRestore id) s = .next t ∧ t.launch id = some m ∧ m.state = .running ∧ m.saved = [] ∧
      ∀ x ∈ l.saved, let c := l.cores.getD x.position 0
        (t.core c).launch = some id ∧ ∀ q < 2, (t.seq c q).sregs = (x.core.seq q).sregs ∧ (t.seq c q).pc = (x.core.seq q).pc ∧
          (t.seq c q).run = if (x.core.seq q).run = .parked then .running else (x.core.seq q).run)

/-- R225, R294, R296 to R299, R303, R309, R310, R312 to R314: a ring's engine takes its next request, reads it unit by unit,
writes its lines in ascending address, each as one merge, makes its stage arrivals and posts its record before HEAD; Trestle
gathers counts, ends a window with a plan of at most 64 actions, copies and verifies line by line, publishes or gives the
plan up, serves rows and retires slots.  The model's choices: a reader of the ring's memory meets the tables as they stand
(log entries 34, 49); when a line can be written and a unit read, either comes first (49, 110); the status of a partial stage
that its barrier refuses (50); the count of events without a log (69); a plan is carried out step by step (70); fields of a
failed `ep.rep` are free (71); the release of a publication names no word (102), and hands on Trestle's own stores and what it
has read (99). -/
def Obligations.EnginesAndTrestle : Prop :=
  (∀ (asid r : Nat) (s : State) (x : Ring), s.ring asid r = some x → x.running = true → x.finished = none →
    let at_ := fun (t : State) (y : Ring) => t.ring asid r = some y ∧ t.mem = s.mem
    (∀ d, x.work = none → s.engineDesc x.die asid r = some d →
      (d.head = x.tail.getD d.tail → ∃ t : State, exec (.xformRequest asid r) s = .next t ∧
        at_ t (if x.again then { x with again := false, rm := x.nextRm, tail := none } else { x with running := false, tail := none })) ∧
      (d.head ≠ x.tail.getD d.tail → ∃ (t : State) (w : EngineWork), exec (.xformRequest asid r) s = .next t ∧
        at_ t { x with tail := some (x.tail.getD d.tail), work := some w } ∧ w.index = d.head ∧ w.src = 0 ∧ w.dst = 0 ∧ w.units = [] ∧
        ∀ b, s.engineRead x.die asid (d.rbase + 64 * (d.head % 2 ^ d.log)) 64 = .ok b → (∀ e ∈ b, e.2 = false) →
          let ok := (xreqOf (b.map (·.1))).ok
          w.ending = (if ok then none else some 4) ∧ (ok = true → w.req = b.map (·.1) ∧ w.rm = x.rm))) ∧
    (∀ w, x.work = some w → w.nextLine w.xreq = none →
      (w.ending = none → ∃ (t : State) (v : EngineWork), exec (.xformRequest asid r) s = .next t ∧ at_ t { x with work := some v } ∧
        v.dst = w.dst ∧ match s.readUnit x.die asid w.xreq (RM.ofCode w.rm) w.next w.pos w.made with
          | .error e => v.ending = some e ∧ v.units = w.units
          | .ok none => v.ending = some 0 ∧ v.units = w.units
          | .ok (some u) => v.ending = none ∧ v.units = w.units ++ [u.made] ∧ v.next = w.next + 1 ∧ v.src = w.src + u.took ∧
              v.flags = w.flags ||| u.flags) ∧
      (∀ e, w.ending = some e →
        let status := if e = 0 ∧ w.bad = true then 6 else e
        let done := fun (t : State) (st : Nat) => exec (.xformRequest asid r) s = .next t ∧ t.mem = s.mem ∧
          ∃ y, t.ring asid r = some y ∧ y.finished = some (w.src, w.dst, st, w.flags.toNat % 64)
        ((w.xreq.bar = 0 ∨ w.xreq.stage = 0 ∨ w.dst % w.xreq.stage = 0) → ∃ t, done t status) ∧
        (w.xreq.bar ≠ 0 → w.xreq.stage ≠ 0 → w.dst % w.xreq.stage ≠ 0 → s.ringCut x.die (w.xreq.bar / 2 ^ 18 % 4) = false →
          (s.liveBarrier (BitVec.ofNat 64 w.xreq.bar) = none → ∃ t, done t (if status = 0 then 5 else status)) ∧
          (∀ b, s.liveBarrier (BitVec.ofNat 64 w.xreq.bar) = some b → b.count + 1 ≠ b.parties → ∃ t, done t status ∧
            let n := t.barrierAt (w.xreq.bar / 2 ^ 18 % 4) (w.xreq.bar % 4096)
            n.count = b.count + 1 ∧ n.sig = BitVec.allOnes 1024)))) ∧
    (∀ w line pa e, x.work = some w → w.nextLine w.xreq = some line → w.ending = some e → w.clash = false →
      (w.xreq.bar = 0 ∨ w.xreq.stage = 0) → s.resolveIn asid .store (line * 256) = .at (.mem pa) → s.cut x.die pa = false →
      let byte := fun j => w.units.reverse.findSome? fun u => if u.dst ≤ line * 256 + j then u.out[line * 256 + j - u.dst]? else none
      ∃ (t : State) (v : EngineWork), exec (.xformRequest asid r) s = .next t ∧ t.ring asid r = some { x with work := some v } ∧
        (∀ a, t.readByte a = afterWrite pa ((List.range 256).map fun j => (byte j).map (·.1)) s.readByte a) ∧
        v.line = line + 1 ∧ v.dst = w.dst + ((List.range 256).filter fun j => (byte j).isSome).length ∧ v.ending = w.ending ∧
        ∀ u ∈ w.units, u ∈ v.units ↔ (line + 1) * 256 < u.dst + u.out.length)) ∧
  (∀ (asid r : Nat) (s : State) (x : Ring) (f : Nat × Nat × Nat × Nat) (w : EngineWork) (d : RingDesc), s.ring asid r = some x →
    x.finished = some f → x.work = some w → s.engineDesc x.die asid r = some d →
    let va := d.cbase + 32 * (w.index % 2 ^ d.log)
    let told := fun (t : State) (y : Ring) => exec (.xformCompletion asid r) s = .next t ∧ t.ring asid r = some y
    (x.told = 0 → ∃ t, told t { x with told := 1 } ∧
      ∀ pa, s.resolveIn asid .store va = .at (.mem pa) → s.cut x.die pa = false → ∀ a, t.readByte a = afterWrite pa ((natBytes 8 f.1 ++
        natBytes 8 f.2.1 ++ natBytes 1 f.2.2.1 ++ natBytes 1 f.2.2.2 ++ natBytes 2 0 ++ natBytes 4 w.index).map some) s.readByte a) ∧
    (x.told = 1 → ∃ t, told t { x with told := 2, completed := (x.completed + 1) % 2 ^ 64 } ∧
      ∀ pa, s.resolveIn asid .store va = .at (.mem pa) → s.cut x.die pa = false → t.sigOf (pa + 24) = BitVec.allOnes 1024 ∧
        ∀ a, t.readByte a = afterWrite (pa + 24) ((natBytes 8 (x.completed + 1)).map some) s.readByte a) ∧
    (∀ dv ph, 2 ≤ x.told → s.ringVa asid r = some dv → s.resolveIn asid .store dv = .at (.mem ph) → s.cut x.die ph = false →
      ∃ t, told t { x with told := 0, finished := none, work := none } ∧
        ∀ a, t.readByte a = afterWrite (ph + 24) ((natBytes 4 ((w.index + 1) % 2 ^ 32)).map some) s.readByte a)) ∧
  (∀ (s : State) (p n : Nat) (rest : List (Nat × Nat)), s.trestle.arriving = (p, n) :: rest → s.trestle.en = true →
    ∃ t : State, exec .histCountArrive s = .next t ∧ t.trestle.arriving = rest ∧ t.mem = s.mem ∧
      ∀ k, mapGet 0 t.trestle.loads k = if k = p then min (mapGet 0 s.trestle.loads p + n) (2 ^ 32 - 1) else mapGet 0 s.trestle.loads k) ∧
  (∀ s : State, s.trestle.en = true → s.trestle.windowEnd ≤ s.clock →
    ∃ t : State, exec .trestleWindowEnd s = .next t ∧ t.trestle.loads = [] ∧ (∀ p sl, (t.trestle.slot p sl).dispatched = 0) ∧
      t.trestle.windowEnd = s.trestle.windowEnd + 2 ^ s.trestle.win ∧ t.trestle.version = s.trestle.version ∧
      (s.trestle.plan.isSome = true → t.trestle.plan = s.trestle.plan ∧ t.trestle.events = (s.trestle.events + 1) % 2 ^ 32) ∧
      (s.trestle.plan = none → t.mem = s.mem ∧ ∀ pl, t.trestle.plan = some pl → pl.step = .copy 0 0 ∧ pl.failed = [] ∧
        1 ≤ pl.copies.length + pl.retires.length ∧ pl.copies.length + pl.retires.length ≤ 64 ∧
        (∀ e ∈ pl.copies, s.trestle.hi < mapGet 0 s.trestle.loads e.1 ∧ 1 ≤ e.2 ∧ e.2 ≤ 3 ∧ (s.trestle.slot e.1 e.2).state = .absent ∧
          ∀ k, 1 ≤ k → k ≤ 3 → (s.trestle.slot e.1 k).state = .absent →
            s.dieDispatches (s.slotDie e.1 e.2) < s.dieDispatches (s.slotDie e.1 k) ∨
            s.dieDispatches (s.slotDie e.1 e.2) = s.dieDispatches (s.slotDie e.1 k) ∧ e.2 ≤ k) ∧
        (∀ e ∈ pl.retires, s.trestle.tune = false ∧ mapGet 0 s.trestle.loads e.1 < s.trestle.lo ∧ 1 ≤ e.2.1 ∧ e.2.1 ≤ 3 ∧
          (s.trestle.slot e.1 e.2.1).state = .live ∧ e.2.2 ≠ e.2.1 ∧ s.trestle.stateOf e.1 e.2.2 = .live ∧
          (∀ k, 1 ≤ k → k ≤ 3 → (s.trestle.slot e.1 k).state = .live →
            (s.trestle.slot e.1 e.2.1).dispatched < (s.trestle.slot e.1 k).dispatched ∨
            (s.trestle.slot e.1 e.2.1).dispatched = (s.trestle.slot e.1 k).dispatched ∧ k ≤ e.2.1) ∧
          ∀ k ≤ 3, k ≠ e.2.1 → s.trestle.stateOf e.1 k = .live →
            (s.trestle.slot e.1 e.2.2).inflight < (s.trestle.slot e.1 k).inflight ∨
            (s.trestle.slot e.1 e.2.2).inflight = (s.trestle.slot e.1 k).inflight ∧ e.2.2 ≤ k))) ∧
  (∀ (s : State) (pl : Plan), s.trestle.plan = some pl →
    let goes := fun (t : State) (next : Plan) => exec .trestlePublish s = .next t ∧ t.trestle = { s.trestle with plan := some next }
    let quiet := fun (next : Plan) => ∃ t, goes t next ∧ t.mem = s.mem
    (∀ i line p sl, pl.step = .copy i line → pl.copies[i]? = some (p, sl) →
      (s.weightLines p ≤ line → quiet { pl with step := .verify i 0 }) ∧
      (line < s.weightLines p →
        (∀ a b, s.copyPlaces p sl line = some (a, b) → s.poisonedAt a 256 = false →
          ∃ t, goes t { pl with step := .copy i (line + 1) } ∧ ∀ z, t.readByte z = afterWrite b ((s.readMem a 256).map some) s.readByte z) ∧
        (s.copyPlaces p sl line = none → quiet { pl with step := .copy (i + 1) 0, failed := pl.failed ++ [(p, sl, 1)] }))) ∧
    (∀ i line p sl, pl.step = .verify i line → pl.copies[i]? = some (p, sl) →
      (s.weightLines p ≤ line → quiet { pl with step := .copy (i + 1) 0 }) ∧
      (line < s.weightLines p → ∀ a b, s.copyPlaces p sl line = some (a, b) → s.poisonedAt a 256 = false → s.poisonedAt b 256 = false →
        (s.readMem a 256 = s.readMem b 256 → quiet { pl with step := .verify i (line + 1) }) ∧
        (s.readMem a 256 ≠ s.readMem b 256 → quiet { pl with step := .copy (i + 1) 0, failed := pl.failed ++ [(p, sl, 2)] }))) ∧
    (∀ i line, pl.step = .copy i line → pl.copies[i]? = none →
      (pl.failed = [] → quiet { pl with step := .mirror 0 }) ∧
      (pl.failed ≠ [] → ∃ t : State, exec .trestlePublish s = .next t ∧ t.trestle.plan = none ∧ t.trestle.version = s.trestle.version ∧
        t.trestle.events = (s.trestle.events + pl.failed.length) % 2 ^ 32 ∧ ∀ e ∈ pl.copies, (t.trestle.slot e.1 e.2).state = .absent)) ∧
    (∀ i, pl.step = .mirror i →
      (pl.mirrored[i]? = none → quiet { pl with step := .release }) ∧
      (∀ p sl st redir a b, pl.mirrored[i]? = some (p, sl, st, redir) →
        let va := s.trestle.tbase + 64 * p + 16 * sl
        s.resolveIn s.trestle.asid .store (va + 7) = .at (.mem a) →
        (s.mergeRun a (natBytes 1 st.code)).resolveIn s.trestle.asid .store (va + 9) = .at (.mem b) →
        ∃ t, goes t { pl with step := .mirror (i + 1) } ∧
          ∀ z, t.readByte z = afterWrite b ((natBytes 1 redir).map some) (afterWrite a ((natBytes 1 st.code).map some) s.readByte) z)) ∧
    (pl.step = .release → ∃ t : State, exec .trestlePublish s = .next t ∧ t.mem = s.mem ∧
      t.trestle = { s.trestle with plan := some { pl with step := .switch }, published := s.ownPast trestleParty }) ∧
    (pl.step = .switch → ∃ t : State, exec .trestlePublish s = .next t ∧ t.mem = s.mem ∧ t.trestle.plan = none ∧
      t.trestle.version = (s.trestle.version + 1) % 2 ^ 32 ∧
      (∀ e ∈ pl.copies, (∀ u ∈ pl.retires, 4 * u.1 + u.2.1 ≠ 4 * e.1 + e.2) → (t.trestle.slot e.1 e.2).state = .live) ∧
      (∀ e ∈ pl.retires, (t.trestle.slot e.1 e.2.1).state = .retiring ∧
        ((∀ u ∈ pl.retires, 4 * u.1 + u.2.1 = 4 * e.1 + e.2.1 → u = e) → (t.trestle.slot e.1 e.2.1).redir = e.2.2)) ∧
      ∀ p sl, (∀ e ∈ pl.copies, 4 * e.1 + e.2 ≠ 4 * p + sl) → (∀ u ∈ pl.retires, 4 * u.1 + u.2.1 ≠ 4 * p + sl) →
        t.trestle.slot p sl = s.trestle.slot p sl)) ∧
  (∀ (c q : Nat) (s : State) (e : LoadEntry) (w : Word), NextLoad (s.seq c q) e → e.kind = .epRep w → s.trestle.en = true →
    s.repWaits c q = false → let p := w.toNat % 65536
    let rows := if w.toNat / 65536 % 256 = 0 then 1 else w.toNat / 65536 % 256
    let served := fun (t : State) (v : Vec) (sl : Nat) => exec (.epRepServe c q) s = .next t ∧
      PerformedWith (t.seq c q) e.order (.v v) none ∧ t.mem = s.mem ∧ lane v 2 = BitVec.ofNat 32 s.trestle.version ∧
      (lane v 3).toNat % 4 = sl ∧ (lane v 3).getLsbD 4 = true ∧
      ∀ b, s.trestleRead (s.trestle.tbase + 64 * p + 16 * sl) 16 = some b →
        lane v 0 = BitVec.ofNat 32 (field b 0 7) ∧ lane v 1 = BitVec.ofNat 32 (field b 0 7 / 2 ^ 32) ∧ (lane v 3).toNat / 4 % 4 = field b 8 1 % 4
    (w.getLsbD 24 = false → ∃ (t : State) (v : Vec) (sl : Nat), served t v sl ∧ sl < 4 ∧ s.trestle.stateOf p sl = .live ∧
      (t.trestle.slot p sl).inflight = min ((s.trestle.slot p sl).inflight + rows) (2 ^ 32 - 1) ∧
      (t.trestle.slot p sl).dispatched = min ((s.trestle.slot p sl).dispatched + rows) (2 ^ 32 - 1) ∧
      (s.slotDie p sl = dieOf c ∨ ∀ r < 4, s.trestle.stateOf p r = .live → s.slotDie p r ≠ dieOf c ∧
        ((s.trestle.slot p sl).inflight < (s.trestle.slot p r).inflight ∨
          (s.trestle.slot p sl).inflight = (s.trestle.slot p r).inflight ∧ sl ≤ r))) ∧
    (w.getLsbD 24 = true →
      let sl := w.toNat / 2 ^ 25 % 4
      let dst := (s.trestle.slot p sl).redir
      (s.trestle.stateOf p sl = .live → ∃ t v, served t v sl ∧ t.trestle = s.trestle) ∧
      (s.trestle.stateOf p sl = .retiring → dst < 4 → dst ≠ sl → ∃ t v, served t v dst ∧
        (t.trestle.slot p sl).inflight = (s.trestle.slot p sl).inflight - min rows (s.trestle.slot p sl).inflight ∧
        (t.trestle.slot p dst).inflight = min ((s.trestle.slot p dst).inflight + rows) (2 ^ 32 - 1) ∧
        (t.trestle.slot p dst).dispatched = (s.trestle.slot p dst).dispatched) ∧
      (s.trestle.stateOf p sl = .absent ∨ s.trestle.stateOf p sl = .copying → ∃ (t : State) (v : Vec),
        exec (.epRepServe c q) s = .next t ∧ PerformedWith (t.seq c q) e.order (.v v) none ∧ (lane v 3).getLsbD 4 = false ∧
        t.trestle.slots = s.trestle.slots ∧ t.trestle.events = (s.trestle.events + 1) % 2 ^ 32))) ∧
  (∀ (s : State) (p sl : Nat), sl ≠ 0 → (s.trestle.slot p sl).state = .retiring → (s.trestle.slot p sl).inflight = 0 →
    ∃ t : State, exec (.slotRetire p sl) s = .next t ∧ (t.trestle.slot p sl).state = .absent ∧
      (t.trestle.slot p sl).redir = (s.trestle.slot p sl).redir ∧ t.trestle.version = s.trestle.version)

/-- R199, R204, R209, R219, R233, R252, R295, R330, R333, R334, R336, R337: what the host and the control registers of a die or
the package do: accesses, releases, invalidations, register reads and writes, features and images.  Said of a part whose boot
succeeded, but for the reads of registers.  The model's choices: an address that does not translate, and a register write
out of range, are ignored (log entry 76); an access names an address space, or 65536 for a physical address (79); a load
with a handle in use is ignored, and pages' rights of a load are (16); an address that the host cannot reach over its links
is ignored (121), and an invalidation reaches each sequencer in a step of its own, before the host's next action (33). -/
def Obligations.HostActions : Prop :=
  (∀ (asid : Nat) (va : BitVec 64) (r : HaspRead) (s : State),
    let reads := fun b => exec (.hostWrite asid va (.register r)) s = .next { s with hostReads := s.hostReads ++ [b] }
    match r with
    | .tcfg => ∀ n : BitVec 64, n.getLsbD 0 = s.trestle.en → n.getLsbD 1 = s.trestle.tune → s.trestle.win < 32 → s.trestle.asid < 2 ^ 16 →
        n.toNat / 4 % 2 ^ 14 = s.trestle.win → n.toNat / 2 ^ 16 = s.trestle.asid → reads (natBytes 8 n.toNat)
    | .tver => reads (natBytes 8 (s.trestle.version + 2 ^ 32 * s.trestle.events))
    | .tres => ∀ a b c d, s.trestle.res = [a, b, c, d] → reads (natBytes 8 (a + 16 * b + 256 * c + 4096 * d))
    | .written .tthr => reads (natBytes 8 (s.trestle.hi + 2 ^ 32 * s.trestle.lo))
    | .written .ttab => reads (natBytes 8 s.trestle.tbase)
    | .written .tlog => reads (natBytes 8 s.trestle.logbase)
    | .written .ctxbase => reads (natBytes 8 s.ctxbase.toNat)
    | .written (.queuePriority d q) => reads (natBytes 8 ((s.die d).priorityOf q))
    | .written (.drainLimit d) => reads (natBytes 8 (s.die d).drainUs)
    | .written (.killThreshold d) => reads (natBytes 8 (s.die d).killK)
    | .featOff => reads (natBytes 32 s.featOff.toNat)
    | .featAcc => reads (natBytes 32 s.featAcc.toNat)
    | .publicKey => reads (natBytes 64 Config.devKey.toNat)
    | .corrected d => reads (natBytes 8 (s.die d).corrected)
    | .linkErrors n => reads (natBytes 8 (mapGet Link.init s.links n).errors)) ∧
  ∀ s : State, s.featOff.getLsbD 7 = false →
    (∀ (asid pa : Nat) (va : BitVec 64) (bs : List Byte), bs ≠ [] → va.toNat % 256 + bs.length ≤ 256 →
      s.hostPlace asid va.toNat .store = some pa →
      ∃ t : State, exec (.hostWrite asid va (.store bs)) s = .next t ∧ ∀ a, t.readByte a = afterWrite pa (bs.map some) s.readByte a) ∧
    (∀ (asid : Nat) (va : BitVec 64) (n : Nat), ∃ t : State, exec (.hostWrite asid va (.load n)) s = .next t ∧ t.mem = s.mem ∧
      ∀ pa, 0 < n → va.toNat % 256 + n ≤ 256 → s.hostPlace asid va.toNat .load = some pa → t.hostReads = s.hostReads ++ [s.readMem pa n]) ∧
    (∀ (asid pa : Nat) (va v : BitVec 64), va.toNat % 8 = 0 → s.hostPlace asid va.toNat .store = some pa →
      ∃ t : State, exec (.hostRelease asid va v) s = .next t ∧ t.sigOf pa = BitVec.allOnes 1024 ∧
        ∀ a, t.readByte a = afterWrite pa ((natBytes 8 v.toNat).map some) s.readByte a) ∧
    (∀ (asid : Nat) (all : Bool) (va : BitVec 64), ∃ left : List (Nat × Nat),
      (∀ u, u ∈ left ↔ u.1 ∈ s.coreIds ∧ u.2 < 2 ∧ (s.seq u.1 u.2).asid = asid) ∧ exec (.hostTlbInvalidate asid all va) s =
        .next (if left = [] then s else { s with hostDrops := s.hostDrops ++ [(asid, all, va.toNat, left)] })) ∧
    (∀ (asid va : Nat) (all : Bool) (left : List (Nat × Nat)) (rest : List (Nat × Bool × Nat × List (Nat × Nat))),
      s.hostDrops = (asid, all, va, left) :: rest → ∀ u ∈ left, u.2 < 2 →
        (s.granted = [] → ∃ m ∈ s.moves, m s = .next (s.hostDrop u)) ∧
        let t := s.hostDrop u
        t.mem = s.mem ∧ t.hostDrops = (if left.erase u = [] then rest else (asid, all, va, left.erase u) :: rest) ∧
        (∀ c, ∀ q < 2, (c, q) ≠ u → t.seq c q = s.seq c q) ∧ ∀ p, p ∈ (t.seq u.1 u.2).tlb ↔ p ∈ (s.seq u.1 u.2).tlb ∧
          ¬(p.asid = (s.seq u.1 u.2).asid ∧ (all = true ∨ p.covers (s.seq u.1 u.2).asid va = true))) ∧
    (∀ v : BitVec 64, s.featAcc.getLsbD 2 = true → ∃ t : State, exec (.tcfgWrite v) s = .next t ∧ t.trestle.en = v.getLsbD 0 ∧
      t.trestle.tune = v.getLsbD 1 ∧ t.trestle.asid = v.toNat / 65536 % 65536 ∧ t.mem = s.mem ∧
      t.trestle.win = (if 16 ≤ v.toNat / 4 % 32 ∧ v.toNat / 4 % 32 ≤ 28 then v.toNat / 4 % 32 else s.trestle.win) ∧
      (v.getLsbD 0 = true → s.trestle.en = false → t.trestle.windowEnd = s.clock + 2 ^ t.trestle.win)) ∧
    (∀ v : BitVec 64, ∃ t : State, exec (.tresWrite v) s = .next t ∧ t.trestle.res.length = s.trestle.res.length ∧
      ∀ d < s.trestle.res.length, let n := v.toNat / 2 ^ (4 * d) % 16
        t.trestle.res.getD d 0 = if n ≤ 8 ∧ n + (s.die d).remways ≤ 14 then n else s.trestle.res.getD d 0) ∧
    (∀ v : BitVec 64,
      exec (.hostRegisterWrite .tthr v) s = .next { s with trestle := { s.trestle with hi := v.toNat % 2 ^ 32, lo := v.toNat / 2 ^ 32 } } ∧
      exec (.hostRegisterWrite .ttab v) s = .next { s with trestle := { s.trestle with tbase := v.toNat % 2 ^ 56 } } ∧
      exec (.hostRegisterWrite .tlog v) s = .next { s with trestle := { s.trestle with logbase := v.toNat % 2 ^ 56 } } ∧
      (v.toNat % 4096 = 0 → exec (.hostRegisterWrite .ctxbase v) s = .next { s with ctxbase := v }) ∧
      (∀ d q, ∃ t : State, exec (.hostRegisterWrite (.queuePriority d q) v) s = .next t ∧ (v.toNat ≤ 7 → q < 64 → (t.die d).priorityOf q = v.toNat)) ∧
      (∀ d, ∃ t : State, exec (.hostRegisterWrite (.drainLimit d) v) s = .next t ∧
        (t.die d).drainUs = if 1 ≤ v.toNat ∧ v.toNat ≤ 65535 then v.toNat else (s.die d).drainUs) ∧
      (∀ d, ∃ t : State, exec (.hostRegisterWrite (.killThreshold d) v) s = .next t ∧
        (t.die d).killK = if 1 ≤ v.toNat ∧ v.toNat ≤ 255 then v.toNat else (s.die d).killK)) ∧
    (∀ v : BitVec 256, exec (.feataccWrite v) s =
      if s.featBound then .next s else .next { s with featAcc := v &&& s.featOff, featBound := true }) ∧
    (∀ (h asid : Nat) (va : BitVec 64) (bs : List Byte), s.featBound = true → s.featAcc.getLsbD 0 = true → s.image h = none →
      ∃ t : State, exec (.imageLoad h asid va bs) s = .next t ∧ t.image h = some { asid := asid, va := va.toNat, bytes := bs } ∧
        ∀ pa, bs ≠ [] → va.toNat % 256 + bs.length ≤ 256 → s.hostPlace asid va.toNat .load = some pa →
          ∀ a, t.readByte a = afterWrite pa (bs.map some) s.readByte a) ∧
    (∀ h : Nat, ((∃ id l, (id, some l) ∈ s.launches ∧ l.vec.image = h ∧ l.state ≠ .complete) → exec (.imageUnload h) s = .next s) ∧
      ((∀ id l, (id, some l) ∈ s.launches → l.vec.image = h → l.state = .complete) →
        ∃ t : State, exec (.imageUnload h) s = .next t ∧ t.image h = none ∧ (∀ k ≠ h, t.image k = s.image k) ∧ t.mem = s.mem)) ∧
    (∀ (d : Nat) (v : BitVec 64), (8 < v.toNat % 16 → exec (.remwaysWrite d v) s = .next s) ∧
      (v.toNat % 16 ≤ 8 → ∃ t : State, exec (.remwaysWrite d v) s = .next t ∧ (t.die d).remways = v.toNat % 16 ∧ t.mem = s.mem ∧
        ∀ l, l ∈ (t.die d).remote ↔ l ∈ (s.die d).remote ∧ (16 - v.toNat % 16 ≤ l.way ∨ l.pins ≠ 0))) ∧
    (∀ v : BitVec 64, ∃ t : State, exec (.digbaseWrite v) s = .next t ∧ t.mem = s.mem ∧
      (∀ i < 64, t.digbase.getLsbD i = if (12 ≤ i ∧ i ≤ 51) ∨ (i = 0 ∧ s.featAcc.getLsbD 1 = true) then v.getLsbD i else s.digbase.getLsbD i) ∧
      (t.digbase.getLsbD 0 = false → t.regions = [] ∧ t.captured = []) ∧
      (t.digbase.getLsbD 0 = true → t.regions = s.regions ∧ t.captured = s.captured))

/-- R4, R195, R205, R206, R235, R242, R317, R319, R335 to R338: attestation, resets, power, links and soft errors.  The model's
choices and readings: an HBM error in a backing store poisons the records kept there, R242's (log entry 68); one that the device
corrects counts nowhere (136);
digests, keys and signatures are free constants (log entry 9); which features firmware offers (53); which sectors and which
poison a warm reset loses (11, 107); which words of a scratchpad and of an operand bank a soft error takes (13, 65); throttle
steps are inputs (55), and a die's time goes on through them (42); links and their numbers (35); what a drain does (54). -/
def Obligations.PackageEvents : Prop :=
  ∀ s : State,
    (∀ n : BitVec 128, ∃ (t : State) (r : BitVec 1280), exec (.attestationRequest n) s = .next t ∧ t.reports = s.reports ++ [r] ∧
      r.extractLsb' 512 128 = n ∧ r.extractLsb' 0 256 = Config.fwHash ∧ r.extractLsb' 256 256 = Config.cfgHash ∧
      r.extractLsb' 640 128 = Config.devId ∧ r.extractLsb' 768 512 = Config.sm2Sign (r.extractLsb' 0 768)) ∧
    (∀ (ok : Bool) (f : BitVec 256), ∃ t : State, exec (.coldReset ok f) s = .next t ∧ t.mem = [] ∧ t.cores = [] ∧ t.dies = [] ∧
      t.launches = [] ∧ t.digbase = 0 ∧ t.ctxbase = 0 ∧ t.featAcc = 0 ∧ t.featBound = false ∧ t.featOff = (if ok then f &&& 0x7F else 0x80) ∧
      t.trestle = Trestle.init ∧ t.posted = s.posted) ∧
    (∀ (ok : Bool) (f : BitVec 256), ∃ t : State, exec (.warmReset ok f) s = .next t ∧ t.cores = [] ∧ t.dies = [] ∧ t.launches = [] ∧
      t.digbase = 0 ∧ t.featAcc = 0 ∧ t.featBound = false ∧ t.featOff = (if ok then f &&& 0x7F else 0x80) ∧ t.trestle = Trestle.init ∧
      (s.cores = [] → s.launches = [] → s.phases = [] → (∀ e ∈ t.poison, e ∈ s.poison) ∧
        ∀ a, (∀ e ∈ s.dirty, e.1 ≠ a / 32) → t.readByte a = s.readByte a)) ∧
    (∀ d : Nat,
      let stepped := fun (f : Nat) => s.modDie d fun x => { x with
        clockMHz := f, timeBase := x.timeBase + (s.clock - x.steppedAt) * (microParts / x.clockMHz), steppedAt := s.clock }
      exec (.throttleStepDown d) s = .next (stepped (max 1000 ((s.die d).clockMHz - 250))) ∧
      exec (.throttleStepUp d) s = .next (stepped (min 2250 ((s.die d).clockMHz + 250))) ∧
      ∃ t : State, exec (.thermalStop d) s = .next t ∧ t.thermalReports = s.thermalReports ++ [d] ∧
        ((∀ c q, (s.seq c q).traceOn = false) → t.mem = s.mem) ∧
        (∀ e ∈ s.onDie d, ∀ u ∈ s.activeUnits e.2, (t.seq u.1 u.2).run = .ending) ∧
        (∀ e ∈ s.onDie d, s.launch e.1 = some e.2 → ∃ m, t.launch e.1 = some m ∧ m.isFailed = true ∧ m.cancelled = true)) ∧
    (∀ (n row : Nat) (ok : Bool), let l := mapGet Link.init s.links n
      ∃ t : State, exec (.linkRowReceive n row ok) s = .next t ∧ t.mem = s.mem ∧
        (s.linkDown n = true → t = s) ∧ (s.linkDown n = false → mapGet Link.init t.links n =
          if ok = true ∧ row = l.expected then { l with expected := row + 1, resends := 0 }
          else if ok = true ∧ row < l.expected then l
          else { l with resends := l.resends + 1, errors := if ok then l.errors else l.errors + 1 })) ∧
    (∀ n : Nat, let l := mapGet Link.init s.links n
      s.linkPresent n = true → l.up = true → 8 < l.resends → ∃ t : State, exec (.linkDown n) s = .next t ∧
        mapGet Link.init t.links n = { l with up := false, errors := l.errors + 1 } ∧ t.mem = s.mem) ∧
    exec .routerDrain s = .next s ∧
    (∀ n : Nat, s.linkPresent n = if 1 ≤ n % 32 ∧ n % 32 ≤ 4 then s.featAcc.getLsbD 3
      else if 5 ≤ n % 32 ∧ n % 32 ≤ 16 then s.featAcc.getLsbD 4 else true) ∧
    (∀ pa : Nat, exec (.softError (.hbm pa) true) s = .next s ∧
      exec (.softError (.l2 pa) true) s = .next (s.modDie (homeDie pa) fun x => { x with corrected := x.corrected + 1 }) ∧
      ∀ e ∈ [ErrSite.hbm pa, ErrSite.l2 pa], ∃ t : State, exec (.softError e false) s = .next t ∧ t.mem = s.mem ∧
        (∀ k, mapGet false t.poison k = (decide (k = pa / 32) || mapGet false s.poison k)) ∧
        ∀ l, t.digest l = if e = ErrSite.hbm pa ∧ l ∈ s.backedLines (pa / 32 * 32) 32 then { s.digest l with poisoned := true } else s.digest l) ∧
    (∀ (c bank frame sector : Nat) (l : CacheLine) (b : Bool), (s.core c).cache.find? (fun l => l.bank == bank && l.frame == frame &&
        (l.sectors.getD sector none).isSome) = some l → (s.core c).lineDirty l.line = false →
      exec (.softError (.cacheBank c bank frame sector) b) s =
        .next (s.modCore c fun k => { k with cache := k.cache.filter fun m => m.line != l.line })) ∧
    (∀ (d line sector : Nat), (s.die d).remote.any (fun l => l.line == line) = true →
      ∃ t : State, exec (.softError (.remoteWay d line sector) false) s = .next t ∧ t.mem = s.mem ∧ t.poison = s.poison ∧
        ∀ l ∈ (t.die d).remote, l.line = line → sector ∈ l.poisoned) ∧
    (∀ c off : Nat, ∃ t : State, exec (.softError (.scratchpad c off) false) s = .next t ∧ (t.core c).spad = (s.core c).spad ∧
      ∀ k, mapGet false (t.core c).spadPoison k = (decide (k = off / 4) || mapGet false (s.core c).spadPoison k)) ∧
    (∀ l : Nat, exec (.softError (.digestRecord l) false) s = .next (s.setDigest l { s.digest l with poisoned := true })) ∧
    (∀ c n w : Nat, ((s.core c).tile n).state = .resident → ∃ t : State, exec (.softError (.operandBank c n w) false) s = .next t ∧
      t.mem = s.mem ∧ ((t.core c).tile n).data = ((s.core c).tile n).data ∧
      ∀ i, i ∈ ((t.core c).tile n).bad ↔ i ∈ ((s.core c).tile n).bad ∨ i / 4 = w ∧ i < ((s.core c).tile n).data.length) ∧
    (∀ (e : ErrSite) (b : Bool), ∃ t : State, exec (.softError e b) s = .next t)

/-- What triggers, moves into operand ports and control words leave alone, when the slot commits and the trace is off:
the registers and the control registers of every sequencer, and every byte of memory; a trigger that only computes also
leaves the operand ports, the queues, the loops and the tiles, when its source pops nothing.  A source that pops nothing
changes nothing but the model's counter of free values.  The key-cache operations keep the registers too, and write no byte
but by their table updates, one word at a time, each at its place; `cr.trace` also writes TRACECTL, and to memory only the
first doublewords of the buffer where it starts a recording; `call` also writes s63; `halt`, `trap`, `brk` and `rft` leave the
data registers and memory, and every other sequencer; and `wake` changes no sequencer but the one that it starts. -/
def Obligations.Frames : Prop :=
  (∀ (a : BitVec 12) (k : Cls) (s s' : State) (v : Value), readSrc a k s = .val v s' → s.me.traceOn = false →
    RegistersKept a s s' ∧ MemoryKept s s' ∧ (a ∉ [0x0A9, 0x0AA, 0x0AC] → s' = { s with free := s'.free })) ∧
  (∀ f ∈ computeTriggers ++ queueTriggers, ∀ (g : BitVec 7) (a : BitVec 12) (s t : State), s.me.traceOn = false →
    exec (f g a) s = .next t → t.cur.live = true → RegistersKept a s t ∧ MemoryKept s t) ∧
  (∀ f ∈ computeTriggers, ∀ (g : BitVec 7) (a : BitVec 12) (s t : State), a ∉ [0x0A9, 0x0AA, 0x0AC] →
    exec (f g a) s = .next t → t.cur.live = true → QueuesKept s t) ∧
  (∀ (i : Instr) (a : BitVec 12) (s t : State), IsPortMove i a → s.me.traceOn = false →
    exec i s = .next t → t.cur.live = true → RegistersKept a s t ∧ MemoryKept s t) ∧
  (∀ (i : Instr) (s t : State), IsControl i → s.me.traceOn = false →
    exec i s = .next t → t.cur.live = true → RegistersKept 0 s t ∧ MemoryKept s t) ∧
  (∀ f ∈ ([.kvFork, .kvFree, .kvApp, .kvPerm] : List (BitVec 7 → BitVec 12 → Instr)), ∀ (g : BitVec 7) (a : BitVec 12) (s t : State),
    s.me.traceOn = false → exec (f g a) s = .next t → t.cur.live = true →
      RegistersKept a s t ∧ (s.me.kvLeft = some [] → MemoryKept s t)) ∧
  (∀ (c q va n v : Nat) (at_ : KvWhere) (s u : State) (b : List KvAct), (KvAct.put va n v).first at_ c q s = .ok (b, u) →
    b = [] ∧ (∀ k, (u.core k).tiles = (s.core k).tiles) ∧ match at_ .store va n with
    | .ok (.mem pa) => (∀ k, (u.core k).spad = (s.core k).spad) ∧ ∀ a, ¬ (pa ≤ a ∧ a < pa + n) → u.readByte a = s.readByte a
    | .ok (.spad o off) => u.mem = s.mem ∧ ∀ k a, (k = o → ¬ (off ≤ a ∧ a < off + n)) → mapGet 0 (u.core k).spad a = mapGet 0 (s.core k).spad a
    | .error _ => False) ∧
  (∀ (g : BitVec 7) (a : BitVec 12) (s t : State), s.me.traceOn = false → s.me.trace.count = 0 →
    s.cur.popped = none → a ∉ [0x0A9, 0x0AA, 0x0AC] → exec (.crTrace g a) s = .next t → t.cur.live = true →
    RegistersKept a s (t.modMe fun x => { x with tracectl := s.me.tracectl }) ∧
      (∀ i, i ≠ 0 → t.me.tracectl.getLsbD i = s.me.tracectl.getLsbD i) ∧
      (MemoryKept s t ∨ t.me.tracectl.getLsbD 0 = true ∧ (∀ k, (t.core k).spad = (s.core k).spad) ∧
        t.mem = (((s.tracePut s.cur.core s.cur.q 0 72).tracePut s.cur.core s.cur.q 8 0).tracePut s.cur.core s.cur.q 64 (s.clock * 256)).mem)) ∧
  (∀ (s : State) (c q off w pa : Nat), s.resolveIn (s.seq c q).asid .store ((s.seq c q).traceBase + off) = .at (.mem pa) →
    ∀ a, (s.tracePut c q off w).readByte a = afterWrite pa ((natBytes 8 w).map some) s.readByte a) ∧
  (∀ (c : BitVec 6) (i : BitVec 1) (off : BitVec 18) (s t : State), s.me.traceOn = false → exec (.call c i off) s = .next t →
    t.cur.live = true → RegistersKept 0 s (t.modMe fun x => { x with sregs := s.me.sregs }) ∧ MemoryKept s t ∧
      ∀ n ≠ 63, t.me.sreg n = s.me.sreg n) ∧
  (∀ (c : BitVec 6) (i : BitVec 1) (s t : State), s.cur.live = true → conditionOf s c i = Word.ones → s.me.traceOn = false →
    s.me.late = [] →
    (exec (.halt c i) s = .next t → UnitKept none s t) ∧
    (s.me.trapvec ≠ 0 → s.me.handler = false → s.me.budget = none → ∀ code : BitVec 16,
      exec (.trap c i code) s = .next t ∨ exec (.brk c i code) s = .next t →
        UnitKept none s t ∧ (t.seq s.cur.core s.cur.q).loads = s.me.loads) ∧
    (s.cur.q < 2 → ∀ off : BitVec 18, exec (.wake c i off) s = .next t → t.cur.live = true → UnitKept (some (1 - s.cur.q)) s t ∧
      RegistersKept 0 s (t.modCore s.cur.core fun k => k.setSeq (1 - s.cur.q) (s.seq s.cur.core (1 - s.cur.q)))) ∧
    (s.me.handler = true → s.me.budget = none → exec .rft s = .next t → UnitKept none s t))

/-- R44 to R51, R59, R84: in every slot it can stand in, the word of a well-formed instruction decodes to that
instruction; and what the decoder reads from any word is well-formed and has a word. -/
def Obligations.EncodeDecodes : Prop :=
  (∀ (i : Instr) (w : BitVec 32) (k : Nat), i.wf = true → encode i = some w → k ∈ slotsOf i → decodeSlot k w = .ok i) ∧
  (∀ (i : Instr) (w : BitVec 32) (k : Nat), decodeSlot k w = .ok i → i.wf = true ∧ (encode i).isSome = true)

/-- R43 to R51, R59, R84: words written from the spec's encodings decode to their instructions, and reserved ones are
refused. -/
def Obligations.DecodedWords : Prop :=
  decodeBundle 0x000A9801000AEB500036E005C8001800 =
    some [.header 0 0 1 0 0 0x18 0, .syBarv 0 5, .move 0 0x0AE 0xB50, .move 0 0x0A9 0x801] ∧
  decodeBundle 0xCE0000000000000000000000000060A0 =
    some [.move 0 6 0x0A0, .move 0 0 0, .move 0 0 0, .halt 0 0] ∧
  decodeSlot 1 0b00000001100100000000000000000101#32 = .ok (.iaAdd 3 0 5) ∧
  decodeSlot 2 0b00100000100101001010100000000000#32 = .ok (.iaMin 0x41 1 0x800) ∧
  decodeSlot 0 0b00000000000111000110100000000111#32 = .ok (.lqLdd 0 0x807) ∧
  decodeSlot 0 0b01000000001011111111111111111111#32 = .ok (.wideImmediateMove 5 0x7FFFF) ∧
  decodeSlot 3 0b11000010000101100000000000000100#32 = .ok (.br 2 1 1 4) ∧
  decodeSlot 3 0b11001010000000000010000000001001#32 = .ok (.loop 2 9) ∧
  decodeSlot 0 0b10000000000000000000000000000000#32 = .error .format10 ∧
  decodeSlot 1 0b11000000000000000000000000000000#32 = .error .format11 ∧
  decodeSlot 2 0b11000000000000000000000000000000#32 = .error .format11 ∧
  decodeSlot 0 0b11000001000000000000000000000000#32 = .error .headerBits ∧
  decodeSlot 3 0b11011100000000000000000000000000#32 = .error .controlCode ∧
  decodeSlot 3 0b11111110000000000000000000000000#32 = .error .controlCode

/-- R22, R43, R50, R61 to R65, R86, R271: a step takes the outside world's next action when its clock has come and no
sequencer has an invalidation of the host's left to make, else the one move of the part that there is; the move of a sequencer
granted issue, whose bundle passes its checks and does not freeze, executes the instructions that the bundle's bytes decode to,
in ascending slots from the first uncommitted one, and ends the cycle, q1's lost-merge count being 0 from then on; one whose
bundle fails the checks traps at slot 0 with the first cause of ILLEGAL_BUNDLE, RESERVED_PORT and UNIT_NOT_OWNED; and the state
with an instruction laid out for it makes that move next.  That one move is taken at a time is the model's (log entry 4), and
so is that a bundle is fetched from its home as memory stands (14). -/
def Obligations.StepRunsBundle : Prop :=
  (∀ (s : State) (k : Nat) (i : Instr) (rest : List (Nat × Instr)), s.inputs = (k, i) :: rest → k ≤ s.clock → s.hostDrops = [] →
    step s = exec i { s with inputs := rest }) ∧
  (∀ (s : State) (m : Move), s.inputs = [] → s.moves = [m] → step s = m s) ∧
  (∀ (c q pa : Nat) (s : State), s.resolve c q .fetch (s.seq c q).pc.toNat = .at (.mem pa) → s.poisonedAt pa 16 = false →
    s.cut (dieOf c) pa = false → ∃ b : BitVec 128, s.fetch c q (s.seq c q).pc = .bundle b ∧
      ∀ k < 4, ∀ j < 4, (slotWord b k).extractLsb' (8 * j) 8 = s.readByte (pa + 4 * k + j)) ∧
  (∀ (c q : Nat) (b : BitVec 128) (s : State), q < 2 → q ∈ (s.core c).grants → (s.seq c q).run = .running →
    (s.seq c q).hold = none → (s.seq c q).recordDue = false →
    let d := (s.dropGrant c q).resetLost c q
    let first := (s.seq c q).slot
    let u := d.startIssue c q (bundleExt b)
    d.fetch c q (s.seq c q).pc = .bundle b →
    (∀ is, u.bundleCheck b first = none → decodeBundle b = some is → firstFreeze ((is.drop first).map slotSem) u = none →
      ∃ t : State, execAll (is.drop first) ((d.traceStallEnd c q).startIssue c q (bundleExt b)) = .next t ∧
        exec (.bundleIssue c q) s = .next t.endBundle) ∧
    (if q = 1 then (d.core c).lost = 0 else d = s.dropGrant c q) ∧
    ∀ k, u.bundleCheck b first = some k →
      exec (.bundleIssue c q) s = .next ((d.traceStallEnd c q).takeTrap c q k 0 0 none false (s.seq c q).pc)) ∧
  (∀ (s : State) (b : BitVec 128) (first : Nat),
    (Illegal s.me.handler b → s.bundleCheck b first = some .illegalBundle) ∧
    (¬ Illegal s.me.handler b →
      ((∃ k < 4, first ≤ k ∧ ReservedAt b k) → s.bundleCheck b first = some .reservedPort) ∧
      ((∀ k < 4, first ≤ k → ¬ ReservedAt b k) →
        ((∃ k < 4, first ≤ k ∧ NotHeldAt s b k) → s.bundleCheck b first = some .unitNotOwned) ∧
        ((∀ k < 4, first ≤ k → ¬ NotHeldAt s b k) → s.bundleCheck b first = none)))) ∧
  (∀ w : Nat, step (State.reset.withFetchWord 32 w) = exec (.bundleIssue 0 0) (State.reset.withFetchWord 32 w))

/-- R22 to R25: of two ready bundles that may merge both issue; of two that may not, q0 unless q1 has lost 64 merges in a
row; one ready alone issues; q1's lost-merge count rises where it is ready and does not issue, and otherwise stays until it
issues; and leases change hands with the clock.  A bundle that only freezes or traps at its fetch is let through besides (log
entry 21). -/
def Obligations.MergeStage : Prop :=
  (∀ (s : State) (c : Nat) (ps qs : List Nat) (n m : Bool), s.offer c 0 = .ready ps n → s.offer c 1 = .ready qs m →
    let k := (s.grant c).core c
    if n = false ∧ m = false ∧ ∀ p ∈ ps, p ∉ qs then k.grants = [0, 1] ∧ k.lost = (s.core c).lost
    else if (s.core c).lost < 64 then k.grants = [0] ∧ k.lost = (s.core c).lost + 1
    else k.grants = [1] ∧ k.lost = (s.core c).lost) ∧
  (∀ (s : State) (c : Nat) (ps : List Nat) (n : Bool), s.offer c 0 = .ready ps n → s.offer c 1 = .nothing →
    ((s.grant c).core c).grants = [0] ∧ ((s.grant c).core c).lost = (s.core c).lost) ∧
  (∀ (s : State) (c : Nat) (qs : List Nat) (m : Bool), s.offer c 0 = .nothing → s.offer c 1 = .ready qs m →
    ((s.grant c).core c).grants = [1] ∧ ((s.grant c).core c).lost = (s.core c).lost) ∧
  (∀ (s : State) (c : Nat), s.offer c 0 = .nothing → s.offer c 1 = .nothing →
    ((s.grant c).core c).grants = [] ∧ ((s.grant c).core c).lost = (s.core c).lost) ∧
  (∀ (s : State) (c q : Nat) (b : Nat), ((s.moveLeases.core c).holds q b) =
    ((s.core c).claim.getLsbD b && (s.core c).nextHeld.getLsbD b && (s.core c).nextHold.getLsbD b == (q == 1)))

/-- Memory keeps its canonical form: addresses rising, and no byte listed that an unlisted address reads as (log entry 1). -/
def Obligations.MemoryStaysCanonical : Prop :=
  (∀ (i : Instr) (s t : State), s.MemOk → exec i s = .next t → t.MemOk) ∧ ∀ s t : State, s.MemOk → step s = .next t → t.MemOk

/-- R199, R233, R252, R295, R336: what reset leaves, by the reset values that the spec gives.  The model's choices: memory
lists nothing and an unlisted byte reads as 0 (log entry 1), the clock starts at 0 and every sequencer is idle (2), and no
image or launch is there (3). -/
def Obligations.ResetState : Prop :=
  State.reset.MemOk ∧ State.reset.clock = 0 ∧
  (∀ d : Nat, (State.reset.die d).drainUs = 50 ∧ (State.reset.die d).killK = 16) ∧
  State.reset.digbase = 0 ∧ (∀ d : Nat, (State.reset.die d).remways = 0) ∧
  State.reset.trestle.en = false ∧ State.reset.trestle.tune = false ∧ State.reset.trestle.win = 16 ∧
  State.reset.trestle.hi = 0xFFFFFFFF ∧ State.reset.trestle.lo = 0 ∧
  State.reset.featBound = false ∧ State.reset.featAcc = 0 ∧ State.reset.launches = [] ∧ State.reset.images = [] ∧
  ∀ c q : Nat, (State.reset.seq c q).run = .idle

end Statements
end

