-- ==== Sys2Proof/Laws/Map.lean ====
section
/-! SUPPORT. Laws of sparse tables: reads after writes, and the canonical form kept. -/
namespace Sys2Proof.Machine

variable {α : Type}

@[simp] theorem mapGet_nil (d : α) (k : Nat) : mapGet d [] k = d := rfl

@[simp] theorem mapGet_insert_same (d v : α) (m : NMap α) (k : Nat) : mapGet d (mapInsert k v m) k = v := by
  induction m with
  | nil => simp [mapInsert, mapGet]
  | cons e m ih =>
    obtain ⟨j, w⟩ := e
    unfold mapInsert
    split
    · simp [mapGet]
    · split
      · simp [mapGet]
      · rename_i h
        simp [mapGet, h, ih]

theorem mapGet_insert_ne (d v : α) (m : NMap α) {k j : Nat} (h : j ≠ k) : mapGet d (mapInsert k v m) j = mapGet d m j := by
  induction m with
  | nil => simp [mapInsert, mapGet, h]
  | cons e m ih =>
    obtain ⟨i, w⟩ := e
    unfold mapInsert
    split
    · simp [mapGet, h]
    · split
      · rename_i h'
        subst h'
        simp [mapGet, h]
      · simp only [mapGet]
        split <;> simp_all

theorem mapGet_insert (d v : α) (m : NMap α) (k j : Nat) :
    mapGet d (mapInsert k v m) j = if j = k then v else mapGet d m j := by
  split
  · rename_i h
    subst h
    simp
  · rename_i h
    exact mapGet_insert_ne d v m h

@[simp] theorem mapGet_erase_same (d : α) (m : NMap α) (k : Nat) : mapGet d (mapErase k m) k = d := by
  induction m with
  | nil => rfl
  | cons e m ih =>
    obtain ⟨j, w⟩ := e
    unfold mapErase
    split
    · exact ih
    · rename_i h
      simp [mapGet, h, ih]

theorem mapGet_erase_ne (d : α) (m : NMap α) {k j : Nat} (h : j ≠ k) : mapGet d (mapErase k m) j = mapGet d m j := by
  induction m with
  | nil => rfl
  | cons e m ih =>
    obtain ⟨i, w⟩ := e
    unfold mapErase
    split
    · rename_i h'
      subst h'
      simp [mapGet, h, ih]
    · simp only [mapGet, ih]

variable [DecidableEq α]

@[simp] theorem mapGet_set_same (d v : α) (m : NMap α) (k : Nat) : mapGet d (mapSet d m k v) k = v := by
  unfold mapSet
  split
  · rename_i h
    simp [h]
  · simp

theorem mapGet_set_ne (d v : α) (m : NMap α) {k j : Nat} (h : j ≠ k) : mapGet d (mapSet d m k v) j = mapGet d m j := by
  unfold mapSet
  split
  · exact mapGet_erase_ne d m h
  · exact mapGet_insert_ne d v m h

theorem mapGet_set (d v : α) (m : NMap α) (k j : Nat) :
    mapGet d (mapSet d m k v) j = if j = k then v else mapGet d m j := by
  split
  · rename_i h
    subst h
    simp
  · rename_i h
    exact mapGet_set_ne d v m h

/-! ### The canonical form -/

theorem mapWfAbove_mono (d : α) (m : NMap α) (lo : Nat) (h : mapWfAbove d (some lo) m = true) : mapWfAbove d none m = true := by
  cases m with
  | nil => rfl
  | cons e m => simp_all [mapWfAbove]

theorem mapWfAbove_lower (d : α) (m : NMap α) {lo hi : Nat} (hl : lo ≤ hi) (h : mapWfAbove d (some hi) m = true) :
    mapWfAbove d (some lo) m = true := by
  cases m with
  | nil => rfl
  | cons e m =>
    simp only [mapWfAbove, Option.all_some, Bool.and_eq_true, decide_eq_true_eq] at h ⊢
    exact ⟨⟨by omega, h.1.2⟩, h.2⟩

theorem mapWfAbove_insert (d v : α) (m : NMap α) (k : Nat) (lo : Option Nat) (hv : v ≠ d) (hk : lo.all (· < k) = true)
    (h : mapWfAbove d lo m = true) : mapWfAbove d lo (mapInsert k v m) = true := by
  induction m generalizing lo with
  | nil => simp [mapInsert, mapWfAbove, hk, hv]
  | cons e m ih =>
    obtain ⟨j, w⟩ := e
    simp only [mapWfAbove, Bool.and_eq_true, decide_eq_true_eq] at h
    unfold mapInsert
    split
    · rename_i hj
      simp [mapWfAbove, hk, hv, hj, h]
    · split
      · rename_i hj
        subst hj
        simp [mapWfAbove, hk, hv, h]
      · rename_i h1 h2
        simp only [mapWfAbove, Bool.and_eq_true, decide_eq_true_eq]
        exact ⟨h.1, ih (some j) (by simp; omega) h.2⟩

theorem mapWfAbove_erase (d : α) (m : NMap α) (k : Nat) (lo : Option Nat) (h : mapWfAbove d lo m = true) :
    mapWfAbove d lo (mapErase k m) = true := by
  induction m generalizing lo with
  | nil => rfl
  | cons e m ih =>
    obtain ⟨j, w⟩ := e
    simp only [mapWfAbove, Bool.and_eq_true, decide_eq_true_eq] at h
    unfold mapErase
    split
    · have := ih (some j) h.2
      cases lo with
      | none => exact mapWfAbove_mono d _ j this
      | some l =>
        simp only [Option.all_some, decide_eq_true_eq] at h
        exact mapWfAbove_lower d _ (by omega) this
    · simp only [mapWfAbove, Bool.and_eq_true, decide_eq_true_eq]
      exact ⟨h.1, ih (some j) h.2⟩

/-- A write keeps the canonical form. -/
theorem mapWf_set (d v : α) (m : NMap α) (k : Nat) (h : mapWf d m = true) : mapWf d (mapSet d m k v) = true := by
  unfold mapSet mapWf at *
  split
  · exact mapWfAbove_erase d m k none h
  · rename_i hv
    exact mapWfAbove_insert d v m k none hv rfl h

theorem mapWf_erase (d : α) (m : NMap α) (k : Nat) (h : mapWf d m = true) : mapWf d (mapErase k m) = true :=
  mapWfAbove_erase d m k none h

@[simp] theorem mapWf_nil (d : α) : mapWf d ([] : NMap α) = true := rfl

/-- Equal readings of canonical tables are equal tables. -/
theorem mapWfAbove_ext (d : α) (m n : NMap α) (lo : Option Nat) (hm : mapWfAbove d lo m = true) (hn : mapWfAbove d lo n = true)
    (h : ∀ k, mapGet d m k = mapGet d n k) : m = n := by
  have below : ∀ (m : NMap α) (j k : Nat), mapWfAbove d (some j) m = true → k ≤ j → mapGet d m k = d := by
    intro m
    induction m with
    | nil => intros; rfl
    | cons e m ih =>
      intro j k hw hk
      obtain ⟨i, w⟩ := e
      simp only [mapWfAbove, Option.all_some, Bool.and_eq_true, decide_eq_true_eq] at hw
      simp only [mapGet]
      rw [if_neg (by omega)]
      exact ih i k hw.2 (by omega)
  induction m generalizing n lo with
  | nil =>
    cases n with
    | nil => rfl
    | cons e n =>
      obtain ⟨i, w⟩ := e
      simp only [mapWfAbove, Bool.and_eq_true, decide_eq_true_eq] at hn
      have := h i
      simp [mapGet] at this
      exact absurd this.symm hn.1.2
  | cons e m ih =>
    obtain ⟨i, w⟩ := e
    simp only [mapWfAbove, Bool.and_eq_true, decide_eq_true_eq] at hm
    cases n with
    | nil =>
      have := h i
      simp [mapGet] at this
      exact absurd this hm.1.2
    | cons e' n =>
      obtain ⟨j, x⟩ := e'
      simp only [mapWfAbove, Bool.and_eq_true, decide_eq_true_eq] at hn
      have hij : i = j := by
        rcases Nat.lt_trichotomy i j with hlt | heq | hgt
        · have := h i
          simp only [mapGet, if_true] at this
          rw [if_neg (by omega), below n j i hn.2 (by omega)] at this
          exact absurd this hm.1.2
        · exact heq
        · have := h j
          simp only [mapGet, if_true] at this
          rw [if_neg (by omega), below m i j hm.2 (by omega)] at this
          exact absurd this.symm hn.1.2
      subst hij
      have hw : w = x := by simpa [mapGet] using h i
      subst hw
      have : m = n := by
        apply ih n (some i) hm.2 hn.2
        intro k
        by_cases hk : k = i
        · subst hk
          rw [below m k k hm.2 (Nat.le_refl _), below n k k hn.2 (Nat.le_refl _)]
        · simpa [mapGet, hk] using h k
      rw [this]

end Sys2Proof.Machine
end

