-- ==== Sys2Proof/Laws/State.lean ====
section
/-! SUPPORT. One lemma for each field under each update of the state, and the tables read after they are written. -/
namespace Sys2Proof.Machine

/-! ### setCore -/

@[simp] theorem State.setCore_clock (s : State) (c : Nat) (k : Core) : (s.setCore c k).clock = s.clock := rfl
@[simp] theorem State.setCore_inputs (s : State) (c : Nat) (k : Core) : (s.setCore c k).inputs = s.inputs := rfl
@[simp] theorem State.setCore_choices (s : State) (c : Nat) (k : Core) : (s.setCore c k).choices = s.choices := rfl
@[simp] theorem State.setCore_free (s : State) (c : Nat) (k : Core) : (s.setCore c k).free = s.free := rfl
@[simp] theorem State.setCore_cur (s : State) (c : Nat) (k : Core) : (s.setCore c k).cur = s.cur := rfl
@[simp] theorem State.setCore_dies (s : State) (c : Nat) (k : Core) : (s.setCore c k).dies = s.dies := rfl
@[simp] theorem State.setCore_mem (s : State) (c : Nat) (k : Core) : (s.setCore c k).mem = s.mem := rfl
@[simp] theorem State.setCore_poison (s : State) (c : Nat) (k : Core) : (s.setCore c k).poison = s.poison := rfl
@[simp] theorem State.setCore_dirty (s : State) (c : Nat) (k : Core) : (s.setCore c k).dirty = s.dirty := rfl
@[simp] theorem State.setCore_digbase (s : State) (c : Nat) (k : Core) : (s.setCore c k).digbase = s.digbase := rfl
@[simp] theorem State.setCore_regions (s : State) (c : Nat) (k : Core) : (s.setCore c k).regions = s.regions := rfl
@[simp] theorem State.setCore_captured (s : State) (c : Nat) (k : Core) : (s.setCore c k).captured = s.captured := rfl
@[simp] theorem State.setCore_serial (s : State) (c : Nat) (k : Core) : (s.setCore c k).serial = s.serial := rfl
@[simp] theorem State.setCore_digests (s : State) (c : Nat) (k : Core) : (s.setCore c k).digests = s.digests := rfl
@[simp] theorem State.setCore_unsaved (s : State) (c : Nat) (k : Core) : (s.setCore c k).unsaved = s.unsaved := rfl
@[simp] theorem State.setCore_renewed (s : State) (c : Nat) (k : Core) : (s.setCore c k).renewed = s.renewed := rfl
@[simp] theorem State.setCore_released (s : State) (c : Nat) (k : Core) : (s.setCore c k).released = s.released := rfl
@[simp] theorem State.setCore_linked (s : State) (c : Nat) (k : Core) : (s.setCore c k).linked = s.linked := rfl
@[simp] theorem State.setCore_merges (s : State) (c : Nat) (k : Core) : (s.setCore c k).merges = s.merges := rfl
@[simp] theorem State.setCore_ownStores (s : State) (c : Nat) (k : Core) : (s.setCore c k).ownStores = s.ownStores := rfl
@[simp] theorem State.setCore_hostDrops (s : State) (c : Nat) (k : Core) : (s.setCore c k).hostDrops = s.hostDrops := rfl
@[simp] theorem State.setCore_flights (s : State) (c : Nat) (k : Core) : (s.setCore c k).flights = s.flights := rfl
@[simp] theorem State.setCore_mcasts (s : State) (c : Nat) (k : Core) : (s.setCore c k).mcasts = s.mcasts := rfl
@[simp] theorem State.setCore_images (s : State) (c : Nat) (k : Core) : (s.setCore c k).images = s.images := rfl
@[simp] theorem State.setCore_nextLaunch (s : State) (c : Nat) (k : Core) : (s.setCore c k).nextLaunch = s.nextLaunch := rfl
@[simp] theorem State.setCore_launches (s : State) (c : Nat) (k : Core) : (s.setCore c k).launches = s.launches := rfl
@[simp] theorem State.setCore_graphs (s : State) (c : Nat) (k : Core) : (s.setCore c k).graphs = s.graphs := rfl
@[simp] theorem State.setCore_phases (s : State) (c : Nat) (k : Core) : (s.setCore c k).phases = s.phases := rfl
@[simp] theorem State.setCore_jobs (s : State) (c : Nat) (k : Core) : (s.setCore c k).jobs = s.jobs := rfl
@[simp] theorem State.setCore_posted (s : State) (c : Nat) (k : Core) : (s.setCore c k).posted = s.posted := rfl
@[simp] theorem State.setCore_savedReports (s : State) (c : Nat) (k : Core) : (s.setCore c k).savedReports = s.savedReports := rfl
@[simp] theorem State.setCore_hostReads (s : State) (c : Nat) (k : Core) : (s.setCore c k).hostReads = s.hostReads := rfl
@[simp] theorem State.setCore_ctxbase (s : State) (c : Nat) (k : Core) : (s.setCore c k).ctxbase = s.ctxbase := rfl
@[simp] theorem State.setCore_featOff (s : State) (c : Nat) (k : Core) : (s.setCore c k).featOff = s.featOff := rfl
@[simp] theorem State.setCore_featAcc (s : State) (c : Nat) (k : Core) : (s.setCore c k).featAcc = s.featAcc := rfl
@[simp] theorem State.setCore_featBound (s : State) (c : Nat) (k : Core) : (s.setCore c k).featBound = s.featBound := rfl
@[simp] theorem State.setCore_reports (s : State) (c : Nat) (k : Core) : (s.setCore c k).reports = s.reports := rfl
@[simp] theorem State.setCore_trestle (s : State) (c : Nat) (k : Core) : (s.setCore c k).trestle = s.trestle := rfl
@[simp] theorem State.setCore_rings (s : State) (c : Nat) (k : Core) : (s.setCore c k).rings = s.rings := rfl
@[simp] theorem State.setCore_links (s : State) (c : Nat) (k : Core) : (s.setCore c k).links = s.links := rfl
@[simp] theorem State.setCore_drainConfig (s : State) (c : Nat) (k : Core) : (s.setCore c k).drainConfig = s.drainConfig := rfl
@[simp] theorem State.setCore_thermalReports (s : State) (c : Nat) (k : Core) : (s.setCore c k).thermalReports = s.thermalReports := rfl

/-! ### modCore -/

@[simp] theorem State.modCore_clock (s : State) (c : Nat) (f : Core → Core) : (s.modCore c f).clock = s.clock := rfl
@[simp] theorem State.modCore_inputs (s : State) (c : Nat) (f : Core → Core) : (s.modCore c f).inputs = s.inputs := rfl
@[simp] theorem State.modCore_choices (s : State) (c : Nat) (f : Core → Core) : (s.modCore c f).choices = s.choices := rfl
@[simp] theorem State.modCore_free (s : State) (c : Nat) (f : Core → Core) : (s.modCore c f).free = s.free := rfl
@[simp] theorem State.modCore_cur (s : State) (c : Nat) (f : Core → Core) : (s.modCore c f).cur = s.cur := rfl
@[simp] theorem State.modCore_dies (s : State) (c : Nat) (f : Core → Core) : (s.modCore c f).dies = s.dies := rfl
@[simp] theorem State.modCore_mem (s : State) (c : Nat) (f : Core → Core) : (s.modCore c f).mem = s.mem := rfl
@[simp] theorem State.modCore_poison (s : State) (c : Nat) (f : Core → Core) : (s.modCore c f).poison = s.poison := rfl
@[simp] theorem State.modCore_dirty (s : State) (c : Nat) (f : Core → Core) : (s.modCore c f).dirty = s.dirty := rfl
@[simp] theorem State.modCore_digbase (s : State) (c : Nat) (f : Core → Core) : (s.modCore c f).digbase = s.digbase := rfl
@[simp] theorem State.modCore_regions (s : State) (c : Nat) (f : Core → Core) : (s.modCore c f).regions = s.regions := rfl
@[simp] theorem State.modCore_captured (s : State) (c : Nat) (f : Core → Core) : (s.modCore c f).captured = s.captured := rfl
@[simp] theorem State.modCore_serial (s : State) (c : Nat) (f : Core → Core) : (s.modCore c f).serial = s.serial := rfl
@[simp] theorem State.modCore_digests (s : State) (c : Nat) (f : Core → Core) : (s.modCore c f).digests = s.digests := rfl
@[simp] theorem State.modCore_unsaved (s : State) (c : Nat) (f : Core → Core) : (s.modCore c f).unsaved = s.unsaved := rfl
@[simp] theorem State.modCore_renewed (s : State) (c : Nat) (f : Core → Core) : (s.modCore c f).renewed = s.renewed := rfl
@[simp] theorem State.modCore_released (s : State) (c : Nat) (f : Core → Core) : (s.modCore c f).released = s.released := rfl
@[simp] theorem State.modCore_linked (s : State) (c : Nat) (f : Core → Core) : (s.modCore c f).linked = s.linked := rfl
@[simp] theorem State.modCore_merges (s : State) (c : Nat) (f : Core → Core) : (s.modCore c f).merges = s.merges := rfl
@[simp] theorem State.modCore_ownStores (s : State) (c : Nat) (f : Core → Core) : (s.modCore c f).ownStores = s.ownStores := rfl
@[simp] theorem State.modCore_hostDrops (s : State) (c : Nat) (f : Core → Core) : (s.modCore c f).hostDrops = s.hostDrops := rfl
@[simp] theorem State.modCore_flights (s : State) (c : Nat) (f : Core → Core) : (s.modCore c f).flights = s.flights := rfl
@[simp] theorem State.modCore_mcasts (s : State) (c : Nat) (f : Core → Core) : (s.modCore c f).mcasts = s.mcasts := rfl
@[simp] theorem State.modCore_images (s : State) (c : Nat) (f : Core → Core) : (s.modCore c f).images = s.images := rfl
@[simp] theorem State.modCore_nextLaunch (s : State) (c : Nat) (f : Core → Core) : (s.modCore c f).nextLaunch = s.nextLaunch := rfl
@[simp] theorem State.modCore_launches (s : State) (c : Nat) (f : Core → Core) : (s.modCore c f).launches = s.launches := rfl
@[simp] theorem State.modCore_graphs (s : State) (c : Nat) (f : Core → Core) : (s.modCore c f).graphs = s.graphs := rfl
@[simp] theorem State.modCore_phases (s : State) (c : Nat) (f : Core → Core) : (s.modCore c f).phases = s.phases := rfl
@[simp] theorem State.modCore_jobs (s : State) (c : Nat) (f : Core → Core) : (s.modCore c f).jobs = s.jobs := rfl
@[simp] theorem State.modCore_posted (s : State) (c : Nat) (f : Core → Core) : (s.modCore c f).posted = s.posted := rfl
@[simp] theorem State.modCore_savedReports (s : State) (c : Nat) (f : Core → Core) : (s.modCore c f).savedReports = s.savedReports := rfl
@[simp] theorem State.modCore_hostReads (s : State) (c : Nat) (f : Core → Core) : (s.modCore c f).hostReads = s.hostReads := rfl
@[simp] theorem State.modCore_ctxbase (s : State) (c : Nat) (f : Core → Core) : (s.modCore c f).ctxbase = s.ctxbase := rfl
@[simp] theorem State.modCore_featOff (s : State) (c : Nat) (f : Core → Core) : (s.modCore c f).featOff = s.featOff := rfl
@[simp] theorem State.modCore_featAcc (s : State) (c : Nat) (f : Core → Core) : (s.modCore c f).featAcc = s.featAcc := rfl
@[simp] theorem State.modCore_featBound (s : State) (c : Nat) (f : Core → Core) : (s.modCore c f).featBound = s.featBound := rfl
@[simp] theorem State.modCore_reports (s : State) (c : Nat) (f : Core → Core) : (s.modCore c f).reports = s.reports := rfl
@[simp] theorem State.modCore_trestle (s : State) (c : Nat) (f : Core → Core) : (s.modCore c f).trestle = s.trestle := rfl
@[simp] theorem State.modCore_rings (s : State) (c : Nat) (f : Core → Core) : (s.modCore c f).rings = s.rings := rfl
@[simp] theorem State.modCore_links (s : State) (c : Nat) (f : Core → Core) : (s.modCore c f).links = s.links := rfl
@[simp] theorem State.modCore_drainConfig (s : State) (c : Nat) (f : Core → Core) : (s.modCore c f).drainConfig = s.drainConfig := rfl
@[simp] theorem State.modCore_thermalReports (s : State) (c : Nat) (f : Core → Core) : (s.modCore c f).thermalReports = s.thermalReports := rfl

/-! ### setSeq -/

@[simp] theorem State.setSeq_clock (s : State) (c q : Nat) (x : Seq) : (s.setSeq c q x).clock = s.clock := rfl
@[simp] theorem State.setSeq_inputs (s : State) (c q : Nat) (x : Seq) : (s.setSeq c q x).inputs = s.inputs := rfl
@[simp] theorem State.setSeq_choices (s : State) (c q : Nat) (x : Seq) : (s.setSeq c q x).choices = s.choices := rfl
@[simp] theorem State.setSeq_free (s : State) (c q : Nat) (x : Seq) : (s.setSeq c q x).free = s.free := rfl
@[simp] theorem State.setSeq_cur (s : State) (c q : Nat) (x : Seq) : (s.setSeq c q x).cur = s.cur := rfl
@[simp] theorem State.setSeq_dies (s : State) (c q : Nat) (x : Seq) : (s.setSeq c q x).dies = s.dies := rfl
@[simp] theorem State.setSeq_mem (s : State) (c q : Nat) (x : Seq) : (s.setSeq c q x).mem = s.mem := rfl
@[simp] theorem State.setSeq_poison (s : State) (c q : Nat) (x : Seq) : (s.setSeq c q x).poison = s.poison := rfl
@[simp] theorem State.setSeq_dirty (s : State) (c q : Nat) (x : Seq) : (s.setSeq c q x).dirty = s.dirty := rfl
@[simp] theorem State.setSeq_digbase (s : State) (c q : Nat) (x : Seq) : (s.setSeq c q x).digbase = s.digbase := rfl
@[simp] theorem State.setSeq_regions (s : State) (c q : Nat) (x : Seq) : (s.setSeq c q x).regions = s.regions := rfl
@[simp] theorem State.setSeq_captured (s : State) (c q : Nat) (x : Seq) : (s.setSeq c q x).captured = s.captured := rfl
@[simp] theorem State.setSeq_serial (s : State) (c q : Nat) (x : Seq) : (s.setSeq c q x).serial = s.serial := rfl
@[simp] theorem State.setSeq_digests (s : State) (c q : Nat) (x : Seq) : (s.setSeq c q x).digests = s.digests := rfl
@[simp] theorem State.setSeq_unsaved (s : State) (c q : Nat) (x : Seq) : (s.setSeq c q x).unsaved = s.unsaved := rfl
@[simp] theorem State.setSeq_renewed (s : State) (c q : Nat) (x : Seq) : (s.setSeq c q x).renewed = s.renewed := rfl
@[simp] theorem State.setSeq_released (s : State) (c q : Nat) (x : Seq) : (s.setSeq c q x).released = s.released := rfl
@[simp] theorem State.setSeq_linked (s : State) (c q : Nat) (x : Seq) : (s.setSeq c q x).linked = s.linked := rfl
@[simp] theorem State.setSeq_merges (s : State) (c q : Nat) (x : Seq) : (s.setSeq c q x).merges = s.merges := rfl
@[simp] theorem State.setSeq_ownStores (s : State) (c q : Nat) (x : Seq) : (s.setSeq c q x).ownStores = s.ownStores := rfl
@[simp] theorem State.setSeq_hostDrops (s : State) (c q : Nat) (x : Seq) : (s.setSeq c q x).hostDrops = s.hostDrops := rfl
@[simp] theorem State.setSeq_flights (s : State) (c q : Nat) (x : Seq) : (s.setSeq c q x).flights = s.flights := rfl
@[simp] theorem State.setSeq_mcasts (s : State) (c q : Nat) (x : Seq) : (s.setSeq c q x).mcasts = s.mcasts := rfl
@[simp] theorem State.setSeq_images (s : State) (c q : Nat) (x : Seq) : (s.setSeq c q x).images = s.images := rfl
@[simp] theorem State.setSeq_nextLaunch (s : State) (c q : Nat) (x : Seq) : (s.setSeq c q x).nextLaunch = s.nextLaunch := rfl
@[simp] theorem State.setSeq_launches (s : State) (c q : Nat) (x : Seq) : (s.setSeq c q x).launches = s.launches := rfl
@[simp] theorem State.setSeq_graphs (s : State) (c q : Nat) (x : Seq) : (s.setSeq c q x).graphs = s.graphs := rfl
@[simp] theorem State.setSeq_phases (s : State) (c q : Nat) (x : Seq) : (s.setSeq c q x).phases = s.phases := rfl
@[simp] theorem State.setSeq_jobs (s : State) (c q : Nat) (x : Seq) : (s.setSeq c q x).jobs = s.jobs := rfl
@[simp] theorem State.setSeq_posted (s : State) (c q : Nat) (x : Seq) : (s.setSeq c q x).posted = s.posted := rfl
@[simp] theorem State.setSeq_savedReports (s : State) (c q : Nat) (x : Seq) : (s.setSeq c q x).savedReports = s.savedReports := rfl
@[simp] theorem State.setSeq_hostReads (s : State) (c q : Nat) (x : Seq) : (s.setSeq c q x).hostReads = s.hostReads := rfl
@[simp] theorem State.setSeq_ctxbase (s : State) (c q : Nat) (x : Seq) : (s.setSeq c q x).ctxbase = s.ctxbase := rfl
@[simp] theorem State.setSeq_featOff (s : State) (c q : Nat) (x : Seq) : (s.setSeq c q x).featOff = s.featOff := rfl
@[simp] theorem State.setSeq_featAcc (s : State) (c q : Nat) (x : Seq) : (s.setSeq c q x).featAcc = s.featAcc := rfl
@[simp] theorem State.setSeq_featBound (s : State) (c q : Nat) (x : Seq) : (s.setSeq c q x).featBound = s.featBound := rfl
@[simp] theorem State.setSeq_reports (s : State) (c q : Nat) (x : Seq) : (s.setSeq c q x).reports = s.reports := rfl
@[simp] theorem State.setSeq_trestle (s : State) (c q : Nat) (x : Seq) : (s.setSeq c q x).trestle = s.trestle := rfl
@[simp] theorem State.setSeq_rings (s : State) (c q : Nat) (x : Seq) : (s.setSeq c q x).rings = s.rings := rfl
@[simp] theorem State.setSeq_links (s : State) (c q : Nat) (x : Seq) : (s.setSeq c q x).links = s.links := rfl
@[simp] theorem State.setSeq_drainConfig (s : State) (c q : Nat) (x : Seq) : (s.setSeq c q x).drainConfig = s.drainConfig := rfl
@[simp] theorem State.setSeq_thermalReports (s : State) (c q : Nat) (x : Seq) : (s.setSeq c q x).thermalReports = s.thermalReports := rfl

/-! ### modSeq -/

@[simp] theorem State.modSeq_clock (s : State) (c q : Nat) (f : Seq → Seq) : (s.modSeq c q f).clock = s.clock := rfl
@[simp] theorem State.modSeq_inputs (s : State) (c q : Nat) (f : Seq → Seq) : (s.modSeq c q f).inputs = s.inputs := rfl
@[simp] theorem State.modSeq_choices (s : State) (c q : Nat) (f : Seq → Seq) : (s.modSeq c q f).choices = s.choices := rfl
@[simp] theorem State.modSeq_free (s : State) (c q : Nat) (f : Seq → Seq) : (s.modSeq c q f).free = s.free := rfl
@[simp] theorem State.modSeq_cur (s : State) (c q : Nat) (f : Seq → Seq) : (s.modSeq c q f).cur = s.cur := rfl
@[simp] theorem State.modSeq_dies (s : State) (c q : Nat) (f : Seq → Seq) : (s.modSeq c q f).dies = s.dies := rfl
@[simp] theorem State.modSeq_mem (s : State) (c q : Nat) (f : Seq → Seq) : (s.modSeq c q f).mem = s.mem := rfl
@[simp] theorem State.modSeq_poison (s : State) (c q : Nat) (f : Seq → Seq) : (s.modSeq c q f).poison = s.poison := rfl
@[simp] theorem State.modSeq_dirty (s : State) (c q : Nat) (f : Seq → Seq) : (s.modSeq c q f).dirty = s.dirty := rfl
@[simp] theorem State.modSeq_digbase (s : State) (c q : Nat) (f : Seq → Seq) : (s.modSeq c q f).digbase = s.digbase := rfl
@[simp] theorem State.modSeq_regions (s : State) (c q : Nat) (f : Seq → Seq) : (s.modSeq c q f).regions = s.regions := rfl
@[simp] theorem State.modSeq_captured (s : State) (c q : Nat) (f : Seq → Seq) : (s.modSeq c q f).captured = s.captured := rfl
@[simp] theorem State.modSeq_serial (s : State) (c q : Nat) (f : Seq → Seq) : (s.modSeq c q f).serial = s.serial := rfl
@[simp] theorem State.modSeq_digests (s : State) (c q : Nat) (f : Seq → Seq) : (s.modSeq c q f).digests = s.digests := rfl
@[simp] theorem State.modSeq_unsaved (s : State) (c q : Nat) (f : Seq → Seq) : (s.modSeq c q f).unsaved = s.unsaved := rfl
@[simp] theorem State.modSeq_renewed (s : State) (c q : Nat) (f : Seq → Seq) : (s.modSeq c q f).renewed = s.renewed := rfl
@[simp] theorem State.modSeq_released (s : State) (c q : Nat) (f : Seq → Seq) : (s.modSeq c q f).released = s.released := rfl
@[simp] theorem State.modSeq_linked (s : State) (c q : Nat) (f : Seq → Seq) : (s.modSeq c q f).linked = s.linked := rfl
@[simp] theorem State.modSeq_merges (s : State) (c q : Nat) (f : Seq → Seq) : (s.modSeq c q f).merges = s.merges := rfl
@[simp] theorem State.modSeq_ownStores (s : State) (c q : Nat) (f : Seq → Seq) : (s.modSeq c q f).ownStores = s.ownStores := rfl
@[simp] theorem State.modSeq_hostDrops (s : State) (c q : Nat) (f : Seq → Seq) : (s.modSeq c q f).hostDrops = s.hostDrops := rfl
@[simp] theorem State.modSeq_flights (s : State) (c q : Nat) (f : Seq → Seq) : (s.modSeq c q f).flights = s.flights := rfl
@[simp] theorem State.modSeq_mcasts (s : State) (c q : Nat) (f : Seq → Seq) : (s.modSeq c q f).mcasts = s.mcasts := rfl
@[simp] theorem State.modSeq_images (s : State) (c q : Nat) (f : Seq → Seq) : (s.modSeq c q f).images = s.images := rfl
@[simp] theorem State.modSeq_nextLaunch (s : State) (c q : Nat) (f : Seq → Seq) : (s.modSeq c q f).nextLaunch = s.nextLaunch := rfl
@[simp] theorem State.modSeq_launches (s : State) (c q : Nat) (f : Seq → Seq) : (s.modSeq c q f).launches = s.launches := rfl
@[simp] theorem State.modSeq_graphs (s : State) (c q : Nat) (f : Seq → Seq) : (s.modSeq c q f).graphs = s.graphs := rfl
@[simp] theorem State.modSeq_phases (s : State) (c q : Nat) (f : Seq → Seq) : (s.modSeq c q f).phases = s.phases := rfl
@[simp] theorem State.modSeq_jobs (s : State) (c q : Nat) (f : Seq → Seq) : (s.modSeq c q f).jobs = s.jobs := rfl
@[simp] theorem State.modSeq_posted (s : State) (c q : Nat) (f : Seq → Seq) : (s.modSeq c q f).posted = s.posted := rfl
@[simp] theorem State.modSeq_savedReports (s : State) (c q : Nat) (f : Seq → Seq) : (s.modSeq c q f).savedReports = s.savedReports := rfl
@[simp] theorem State.modSeq_hostReads (s : State) (c q : Nat) (f : Seq → Seq) : (s.modSeq c q f).hostReads = s.hostReads := rfl
@[simp] theorem State.modSeq_ctxbase (s : State) (c q : Nat) (f : Seq → Seq) : (s.modSeq c q f).ctxbase = s.ctxbase := rfl
@[simp] theorem State.modSeq_featOff (s : State) (c q : Nat) (f : Seq → Seq) : (s.modSeq c q f).featOff = s.featOff := rfl
@[simp] theorem State.modSeq_featAcc (s : State) (c q : Nat) (f : Seq → Seq) : (s.modSeq c q f).featAcc = s.featAcc := rfl
@[simp] theorem State.modSeq_featBound (s : State) (c q : Nat) (f : Seq → Seq) : (s.modSeq c q f).featBound = s.featBound := rfl
@[simp] theorem State.modSeq_reports (s : State) (c q : Nat) (f : Seq → Seq) : (s.modSeq c q f).reports = s.reports := rfl
@[simp] theorem State.modSeq_trestle (s : State) (c q : Nat) (f : Seq → Seq) : (s.modSeq c q f).trestle = s.trestle := rfl
@[simp] theorem State.modSeq_rings (s : State) (c q : Nat) (f : Seq → Seq) : (s.modSeq c q f).rings = s.rings := rfl
@[simp] theorem State.modSeq_links (s : State) (c q : Nat) (f : Seq → Seq) : (s.modSeq c q f).links = s.links := rfl
@[simp] theorem State.modSeq_drainConfig (s : State) (c q : Nat) (f : Seq → Seq) : (s.modSeq c q f).drainConfig = s.drainConfig := rfl
@[simp] theorem State.modSeq_thermalReports (s : State) (c q : Nat) (f : Seq → Seq) : (s.modSeq c q f).thermalReports = s.thermalReports := rfl

/-! ### setMe -/

@[simp] theorem State.setMe_clock (s : State) (x : Seq) : (s.setMe x).clock = s.clock := rfl
@[simp] theorem State.setMe_inputs (s : State) (x : Seq) : (s.setMe x).inputs = s.inputs := rfl
@[simp] theorem State.setMe_choices (s : State) (x : Seq) : (s.setMe x).choices = s.choices := rfl
@[simp] theorem State.setMe_free (s : State) (x : Seq) : (s.setMe x).free = s.free := rfl
@[simp] theorem State.setMe_cur (s : State) (x : Seq) : (s.setMe x).cur = s.cur := rfl
@[simp] theorem State.setMe_dies (s : State) (x : Seq) : (s.setMe x).dies = s.dies := rfl
@[simp] theorem State.setMe_mem (s : State) (x : Seq) : (s.setMe x).mem = s.mem := rfl
@[simp] theorem State.setMe_poison (s : State) (x : Seq) : (s.setMe x).poison = s.poison := rfl
@[simp] theorem State.setMe_dirty (s : State) (x : Seq) : (s.setMe x).dirty = s.dirty := rfl
@[simp] theorem State.setMe_digbase (s : State) (x : Seq) : (s.setMe x).digbase = s.digbase := rfl
@[simp] theorem State.setMe_regions (s : State) (x : Seq) : (s.setMe x).regions = s.regions := rfl
@[simp] theorem State.setMe_captured (s : State) (x : Seq) : (s.setMe x).captured = s.captured := rfl
@[simp] theorem State.setMe_serial (s : State) (x : Seq) : (s.setMe x).serial = s.serial := rfl
@[simp] theorem State.setMe_digests (s : State) (x : Seq) : (s.setMe x).digests = s.digests := rfl
@[simp] theorem State.setMe_unsaved (s : State) (x : Seq) : (s.setMe x).unsaved = s.unsaved := rfl
@[simp] theorem State.setMe_renewed (s : State) (x : Seq) : (s.setMe x).renewed = s.renewed := rfl
@[simp] theorem State.setMe_released (s : State) (x : Seq) : (s.setMe x).released = s.released := rfl
@[simp] theorem State.setMe_linked (s : State) (x : Seq) : (s.setMe x).linked = s.linked := rfl
@[simp] theorem State.setMe_merges (s : State) (x : Seq) : (s.setMe x).merges = s.merges := rfl
@[simp] theorem State.setMe_ownStores (s : State) (x : Seq) : (s.setMe x).ownStores = s.ownStores := rfl
@[simp] theorem State.setMe_hostDrops (s : State) (x : Seq) : (s.setMe x).hostDrops = s.hostDrops := rfl
@[simp] theorem State.setMe_flights (s : State) (x : Seq) : (s.setMe x).flights = s.flights := rfl
@[simp] theorem State.setMe_mcasts (s : State) (x : Seq) : (s.setMe x).mcasts = s.mcasts := rfl
@[simp] theorem State.setMe_images (s : State) (x : Seq) : (s.setMe x).images = s.images := rfl
@[simp] theorem State.setMe_nextLaunch (s : State) (x : Seq) : (s.setMe x).nextLaunch = s.nextLaunch := rfl
@[simp] theorem State.setMe_launches (s : State) (x : Seq) : (s.setMe x).launches = s.launches := rfl
@[simp] theorem State.setMe_graphs (s : State) (x : Seq) : (s.setMe x).graphs = s.graphs := rfl
@[simp] theorem State.setMe_phases (s : State) (x : Seq) : (s.setMe x).phases = s.phases := rfl
@[simp] theorem State.setMe_jobs (s : State) (x : Seq) : (s.setMe x).jobs = s.jobs := rfl
@[simp] theorem State.setMe_posted (s : State) (x : Seq) : (s.setMe x).posted = s.posted := rfl
@[simp] theorem State.setMe_savedReports (s : State) (x : Seq) : (s.setMe x).savedReports = s.savedReports := rfl
@[simp] theorem State.setMe_hostReads (s : State) (x : Seq) : (s.setMe x).hostReads = s.hostReads := rfl
@[simp] theorem State.setMe_ctxbase (s : State) (x : Seq) : (s.setMe x).ctxbase = s.ctxbase := rfl
@[simp] theorem State.setMe_featOff (s : State) (x : Seq) : (s.setMe x).featOff = s.featOff := rfl
@[simp] theorem State.setMe_featAcc (s : State) (x : Seq) : (s.setMe x).featAcc = s.featAcc := rfl
@[simp] theorem State.setMe_featBound (s : State) (x : Seq) : (s.setMe x).featBound = s.featBound := rfl
@[simp] theorem State.setMe_reports (s : State) (x : Seq) : (s.setMe x).reports = s.reports := rfl
@[simp] theorem State.setMe_trestle (s : State) (x : Seq) : (s.setMe x).trestle = s.trestle := rfl
@[simp] theorem State.setMe_rings (s : State) (x : Seq) : (s.setMe x).rings = s.rings := rfl
@[simp] theorem State.setMe_links (s : State) (x : Seq) : (s.setMe x).links = s.links := rfl
@[simp] theorem State.setMe_drainConfig (s : State) (x : Seq) : (s.setMe x).drainConfig = s.drainConfig := rfl
@[simp] theorem State.setMe_thermalReports (s : State) (x : Seq) : (s.setMe x).thermalReports = s.thermalReports := rfl

/-! ### modMe -/

@[simp] theorem State.modMe_clock (s : State) (f : Seq → Seq) : (s.modMe f).clock = s.clock := rfl
@[simp] theorem State.modMe_inputs (s : State) (f : Seq → Seq) : (s.modMe f).inputs = s.inputs := rfl
@[simp] theorem State.modMe_choices (s : State) (f : Seq → Seq) : (s.modMe f).choices = s.choices := rfl
@[simp] theorem State.modMe_free (s : State) (f : Seq → Seq) : (s.modMe f).free = s.free := rfl
@[simp] theorem State.modMe_cur (s : State) (f : Seq → Seq) : (s.modMe f).cur = s.cur := rfl
@[simp] theorem State.modMe_dies (s : State) (f : Seq → Seq) : (s.modMe f).dies = s.dies := rfl
@[simp] theorem State.modMe_mem (s : State) (f : Seq → Seq) : (s.modMe f).mem = s.mem := rfl
@[simp] theorem State.modMe_poison (s : State) (f : Seq → Seq) : (s.modMe f).poison = s.poison := rfl
@[simp] theorem State.modMe_dirty (s : State) (f : Seq → Seq) : (s.modMe f).dirty = s.dirty := rfl
@[simp] theorem State.modMe_digbase (s : State) (f : Seq → Seq) : (s.modMe f).digbase = s.digbase := rfl
@[simp] theorem State.modMe_regions (s : State) (f : Seq → Seq) : (s.modMe f).regions = s.regions := rfl
@[simp] theorem State.modMe_captured (s : State) (f : Seq → Seq) : (s.modMe f).captured = s.captured := rfl
@[simp] theorem State.modMe_serial (s : State) (f : Seq → Seq) : (s.modMe f).serial = s.serial := rfl
@[simp] theorem State.modMe_digests (s : State) (f : Seq → Seq) : (s.modMe f).digests = s.digests := rfl
@[simp] theorem State.modMe_unsaved (s : State) (f : Seq → Seq) : (s.modMe f).unsaved = s.unsaved := rfl
@[simp] theorem State.modMe_renewed (s : State) (f : Seq → Seq) : (s.modMe f).renewed = s.renewed := rfl
@[simp] theorem State.modMe_released (s : State) (f : Seq → Seq) : (s.modMe f).released = s.released := rfl
@[simp] theorem State.modMe_linked (s : State) (f : Seq → Seq) : (s.modMe f).linked = s.linked := rfl
@[simp] theorem State.modMe_merges (s : State) (f : Seq → Seq) : (s.modMe f).merges = s.merges := rfl
@[simp] theorem State.modMe_ownStores (s : State) (f : Seq → Seq) : (s.modMe f).ownStores = s.ownStores := rfl
@[simp] theorem State.modMe_hostDrops (s : State) (f : Seq → Seq) : (s.modMe f).hostDrops = s.hostDrops := rfl
@[simp] theorem State.modMe_flights (s : State) (f : Seq → Seq) : (s.modMe f).flights = s.flights := rfl
@[simp] theorem State.modMe_mcasts (s : State) (f : Seq → Seq) : (s.modMe f).mcasts = s.mcasts := rfl
@[simp] theorem State.modMe_images (s : State) (f : Seq → Seq) : (s.modMe f).images = s.images := rfl
@[simp] theorem State.modMe_nextLaunch (s : State) (f : Seq → Seq) : (s.modMe f).nextLaunch = s.nextLaunch := rfl
@[simp] theorem State.modMe_launches (s : State) (f : Seq → Seq) : (s.modMe f).launches = s.launches := rfl
@[simp] theorem State.modMe_graphs (s : State) (f : Seq → Seq) : (s.modMe f).graphs = s.graphs := rfl
@[simp] theorem State.modMe_phases (s : State) (f : Seq → Seq) : (s.modMe f).phases = s.phases := rfl
@[simp] theorem State.modMe_jobs (s : State) (f : Seq → Seq) : (s.modMe f).jobs = s.jobs := rfl
@[simp] theorem State.modMe_posted (s : State) (f : Seq → Seq) : (s.modMe f).posted = s.posted := rfl
@[simp] theorem State.modMe_savedReports (s : State) (f : Seq → Seq) : (s.modMe f).savedReports = s.savedReports := rfl
@[simp] theorem State.modMe_hostReads (s : State) (f : Seq → Seq) : (s.modMe f).hostReads = s.hostReads := rfl
@[simp] theorem State.modMe_ctxbase (s : State) (f : Seq → Seq) : (s.modMe f).ctxbase = s.ctxbase := rfl
@[simp] theorem State.modMe_featOff (s : State) (f : Seq → Seq) : (s.modMe f).featOff = s.featOff := rfl
@[simp] theorem State.modMe_featAcc (s : State) (f : Seq → Seq) : (s.modMe f).featAcc = s.featAcc := rfl
@[simp] theorem State.modMe_featBound (s : State) (f : Seq → Seq) : (s.modMe f).featBound = s.featBound := rfl
@[simp] theorem State.modMe_reports (s : State) (f : Seq → Seq) : (s.modMe f).reports = s.reports := rfl
@[simp] theorem State.modMe_trestle (s : State) (f : Seq → Seq) : (s.modMe f).trestle = s.trestle := rfl
@[simp] theorem State.modMe_rings (s : State) (f : Seq → Seq) : (s.modMe f).rings = s.rings := rfl
@[simp] theorem State.modMe_links (s : State) (f : Seq → Seq) : (s.modMe f).links = s.links := rfl
@[simp] theorem State.modMe_drainConfig (s : State) (f : Seq → Seq) : (s.modMe f).drainConfig = s.drainConfig := rfl
@[simp] theorem State.modMe_thermalReports (s : State) (f : Seq → Seq) : (s.modMe f).thermalReports = s.thermalReports := rfl

/-! ### modMyCore -/

@[simp] theorem State.modMyCore_clock (s : State) (f : Core → Core) : (s.modMyCore f).clock = s.clock := rfl
@[simp] theorem State.modMyCore_inputs (s : State) (f : Core → Core) : (s.modMyCore f).inputs = s.inputs := rfl
@[simp] theorem State.modMyCore_choices (s : State) (f : Core → Core) : (s.modMyCore f).choices = s.choices := rfl
@[simp] theorem State.modMyCore_free (s : State) (f : Core → Core) : (s.modMyCore f).free = s.free := rfl
@[simp] theorem State.modMyCore_cur (s : State) (f : Core → Core) : (s.modMyCore f).cur = s.cur := rfl
@[simp] theorem State.modMyCore_dies (s : State) (f : Core → Core) : (s.modMyCore f).dies = s.dies := rfl
@[simp] theorem State.modMyCore_mem (s : State) (f : Core → Core) : (s.modMyCore f).mem = s.mem := rfl
@[simp] theorem State.modMyCore_poison (s : State) (f : Core → Core) : (s.modMyCore f).poison = s.poison := rfl
@[simp] theorem State.modMyCore_dirty (s : State) (f : Core → Core) : (s.modMyCore f).dirty = s.dirty := rfl
@[simp] theorem State.modMyCore_digbase (s : State) (f : Core → Core) : (s.modMyCore f).digbase = s.digbase := rfl
@[simp] theorem State.modMyCore_regions (s : State) (f : Core → Core) : (s.modMyCore f).regions = s.regions := rfl
@[simp] theorem State.modMyCore_captured (s : State) (f : Core → Core) : (s.modMyCore f).captured = s.captured := rfl
@[simp] theorem State.modMyCore_serial (s : State) (f : Core → Core) : (s.modMyCore f).serial = s.serial := rfl
@[simp] theorem State.modMyCore_digests (s : State) (f : Core → Core) : (s.modMyCore f).digests = s.digests := rfl
@[simp] theorem State.modMyCore_unsaved (s : State) (f : Core → Core) : (s.modMyCore f).unsaved = s.unsaved := rfl
@[simp] theorem State.modMyCore_renewed (s : State) (f : Core → Core) : (s.modMyCore f).renewed = s.renewed := rfl
@[simp] theorem State.modMyCore_released (s : State) (f : Core → Core) : (s.modMyCore f).released = s.released := rfl
@[simp] theorem State.modMyCore_linked (s : State) (f : Core → Core) : (s.modMyCore f).linked = s.linked := rfl
@[simp] theorem State.modMyCore_merges (s : State) (f : Core → Core) : (s.modMyCore f).merges = s.merges := rfl
@[simp] theorem State.modMyCore_ownStores (s : State) (f : Core → Core) : (s.modMyCore f).ownStores = s.ownStores := rfl
@[simp] theorem State.modMyCore_hostDrops (s : State) (f : Core → Core) : (s.modMyCore f).hostDrops = s.hostDrops := rfl
@[simp] theorem State.modMyCore_flights (s : State) (f : Core → Core) : (s.modMyCore f).flights = s.flights := rfl
@[simp] theorem State.modMyCore_mcasts (s : State) (f : Core → Core) : (s.modMyCore f).mcasts = s.mcasts := rfl
@[simp] theorem State.modMyCore_images (s : State) (f : Core → Core) : (s.modMyCore f).images = s.images := rfl
@[simp] theorem State.modMyCore_nextLaunch (s : State) (f : Core → Core) : (s.modMyCore f).nextLaunch = s.nextLaunch := rfl
@[simp] theorem State.modMyCore_launches (s : State) (f : Core → Core) : (s.modMyCore f).launches = s.launches := rfl
@[simp] theorem State.modMyCore_graphs (s : State) (f : Core → Core) : (s.modMyCore f).graphs = s.graphs := rfl
@[simp] theorem State.modMyCore_phases (s : State) (f : Core → Core) : (s.modMyCore f).phases = s.phases := rfl
@[simp] theorem State.modMyCore_jobs (s : State) (f : Core → Core) : (s.modMyCore f).jobs = s.jobs := rfl
@[simp] theorem State.modMyCore_posted (s : State) (f : Core → Core) : (s.modMyCore f).posted = s.posted := rfl
@[simp] theorem State.modMyCore_savedReports (s : State) (f : Core → Core) : (s.modMyCore f).savedReports = s.savedReports := rfl
@[simp] theorem State.modMyCore_hostReads (s : State) (f : Core → Core) : (s.modMyCore f).hostReads = s.hostReads := rfl
@[simp] theorem State.modMyCore_ctxbase (s : State) (f : Core → Core) : (s.modMyCore f).ctxbase = s.ctxbase := rfl
@[simp] theorem State.modMyCore_featOff (s : State) (f : Core → Core) : (s.modMyCore f).featOff = s.featOff := rfl
@[simp] theorem State.modMyCore_featAcc (s : State) (f : Core → Core) : (s.modMyCore f).featAcc = s.featAcc := rfl
@[simp] theorem State.modMyCore_featBound (s : State) (f : Core → Core) : (s.modMyCore f).featBound = s.featBound := rfl
@[simp] theorem State.modMyCore_reports (s : State) (f : Core → Core) : (s.modMyCore f).reports = s.reports := rfl
@[simp] theorem State.modMyCore_trestle (s : State) (f : Core → Core) : (s.modMyCore f).trestle = s.trestle := rfl
@[simp] theorem State.modMyCore_rings (s : State) (f : Core → Core) : (s.modMyCore f).rings = s.rings := rfl
@[simp] theorem State.modMyCore_links (s : State) (f : Core → Core) : (s.modMyCore f).links = s.links := rfl
@[simp] theorem State.modMyCore_drainConfig (s : State) (f : Core → Core) : (s.modMyCore f).drainConfig = s.drainConfig := rfl
@[simp] theorem State.modMyCore_thermalReports (s : State) (f : Core → Core) : (s.modMyCore f).thermalReports = s.thermalReports := rfl

/-! ### modDie -/

@[simp] theorem State.modDie_clock (s : State) (d : Nat) (f : Die → Die) : (s.modDie d f).clock = s.clock := rfl
@[simp] theorem State.modDie_inputs (s : State) (d : Nat) (f : Die → Die) : (s.modDie d f).inputs = s.inputs := rfl
@[simp] theorem State.modDie_choices (s : State) (d : Nat) (f : Die → Die) : (s.modDie d f).choices = s.choices := rfl
@[simp] theorem State.modDie_free (s : State) (d : Nat) (f : Die → Die) : (s.modDie d f).free = s.free := rfl
@[simp] theorem State.modDie_cur (s : State) (d : Nat) (f : Die → Die) : (s.modDie d f).cur = s.cur := rfl
@[simp] theorem State.modDie_cores (s : State) (d : Nat) (f : Die → Die) : (s.modDie d f).cores = s.cores := rfl
@[simp] theorem State.modDie_mem (s : State) (d : Nat) (f : Die → Die) : (s.modDie d f).mem = s.mem := rfl
@[simp] theorem State.modDie_poison (s : State) (d : Nat) (f : Die → Die) : (s.modDie d f).poison = s.poison := rfl
@[simp] theorem State.modDie_dirty (s : State) (d : Nat) (f : Die → Die) : (s.modDie d f).dirty = s.dirty := rfl
@[simp] theorem State.modDie_digbase (s : State) (d : Nat) (f : Die → Die) : (s.modDie d f).digbase = s.digbase := rfl
@[simp] theorem State.modDie_regions (s : State) (d : Nat) (f : Die → Die) : (s.modDie d f).regions = s.regions := rfl
@[simp] theorem State.modDie_captured (s : State) (d : Nat) (f : Die → Die) : (s.modDie d f).captured = s.captured := rfl
@[simp] theorem State.modDie_serial (s : State) (d : Nat) (f : Die → Die) : (s.modDie d f).serial = s.serial := rfl
@[simp] theorem State.modDie_digests (s : State) (d : Nat) (f : Die → Die) : (s.modDie d f).digests = s.digests := rfl
@[simp] theorem State.modDie_unsaved (s : State) (d : Nat) (f : Die → Die) : (s.modDie d f).unsaved = s.unsaved := rfl
@[simp] theorem State.modDie_renewed (s : State) (d : Nat) (f : Die → Die) : (s.modDie d f).renewed = s.renewed := rfl
@[simp] theorem State.modDie_released (s : State) (d : Nat) (f : Die → Die) : (s.modDie d f).released = s.released := rfl
@[simp] theorem State.modDie_linked (s : State) (d : Nat) (f : Die → Die) : (s.modDie d f).linked = s.linked := rfl
@[simp] theorem State.modDie_merges (s : State) (d : Nat) (f : Die → Die) : (s.modDie d f).merges = s.merges := rfl
@[simp] theorem State.modDie_ownStores (s : State) (d : Nat) (f : Die → Die) : (s.modDie d f).ownStores = s.ownStores := rfl
@[simp] theorem State.modDie_hostDrops (s : State) (d : Nat) (f : Die → Die) : (s.modDie d f).hostDrops = s.hostDrops := rfl
@[simp] theorem State.modDie_flights (s : State) (d : Nat) (f : Die → Die) : (s.modDie d f).flights = s.flights := rfl
@[simp] theorem State.modDie_mcasts (s : State) (d : Nat) (f : Die → Die) : (s.modDie d f).mcasts = s.mcasts := rfl
@[simp] theorem State.modDie_images (s : State) (d : Nat) (f : Die → Die) : (s.modDie d f).images = s.images := rfl
@[simp] theorem State.modDie_nextLaunch (s : State) (d : Nat) (f : Die → Die) : (s.modDie d f).nextLaunch = s.nextLaunch := rfl
@[simp] theorem State.modDie_launches (s : State) (d : Nat) (f : Die → Die) : (s.modDie d f).launches = s.launches := rfl
@[simp] theorem State.modDie_graphs (s : State) (d : Nat) (f : Die → Die) : (s.modDie d f).graphs = s.graphs := rfl
@[simp] theorem State.modDie_phases (s : State) (d : Nat) (f : Die → Die) : (s.modDie d f).phases = s.phases := rfl
@[simp] theorem State.modDie_jobs (s : State) (d : Nat) (f : Die → Die) : (s.modDie d f).jobs = s.jobs := rfl
@[simp] theorem State.modDie_posted (s : State) (d : Nat) (f : Die → Die) : (s.modDie d f).posted = s.posted := rfl
@[simp] theorem State.modDie_savedReports (s : State) (d : Nat) (f : Die → Die) : (s.modDie d f).savedReports = s.savedReports := rfl
@[simp] theorem State.modDie_hostReads (s : State) (d : Nat) (f : Die → Die) : (s.modDie d f).hostReads = s.hostReads := rfl
@[simp] theorem State.modDie_ctxbase (s : State) (d : Nat) (f : Die → Die) : (s.modDie d f).ctxbase = s.ctxbase := rfl
@[simp] theorem State.modDie_featOff (s : State) (d : Nat) (f : Die → Die) : (s.modDie d f).featOff = s.featOff := rfl
@[simp] theorem State.modDie_featAcc (s : State) (d : Nat) (f : Die → Die) : (s.modDie d f).featAcc = s.featAcc := rfl
@[simp] theorem State.modDie_featBound (s : State) (d : Nat) (f : Die → Die) : (s.modDie d f).featBound = s.featBound := rfl
@[simp] theorem State.modDie_reports (s : State) (d : Nat) (f : Die → Die) : (s.modDie d f).reports = s.reports := rfl
@[simp] theorem State.modDie_trestle (s : State) (d : Nat) (f : Die → Die) : (s.modDie d f).trestle = s.trestle := rfl
@[simp] theorem State.modDie_rings (s : State) (d : Nat) (f : Die → Die) : (s.modDie d f).rings = s.rings := rfl
@[simp] theorem State.modDie_links (s : State) (d : Nat) (f : Die → Die) : (s.modDie d f).links = s.links := rfl
@[simp] theorem State.modDie_drainConfig (s : State) (d : Nat) (f : Die → Die) : (s.modDie d f).drainConfig = s.drainConfig := rfl
@[simp] theorem State.modDie_thermalReports (s : State) (d : Nat) (f : Die → Die) : (s.modDie d f).thermalReports = s.thermalReports := rfl

/-! ### setLaunch -/

@[simp] theorem State.setLaunch_clock (s : State) (id : Nat) (l : Launch) : (s.setLaunch id l).clock = s.clock := rfl
@[simp] theorem State.setLaunch_inputs (s : State) (id : Nat) (l : Launch) : (s.setLaunch id l).inputs = s.inputs := rfl
@[simp] theorem State.setLaunch_choices (s : State) (id : Nat) (l : Launch) : (s.setLaunch id l).choices = s.choices := rfl
@[simp] theorem State.setLaunch_free (s : State) (id : Nat) (l : Launch) : (s.setLaunch id l).free = s.free := rfl
@[simp] theorem State.setLaunch_cur (s : State) (id : Nat) (l : Launch) : (s.setLaunch id l).cur = s.cur := rfl
@[simp] theorem State.setLaunch_cores (s : State) (id : Nat) (l : Launch) : (s.setLaunch id l).cores = s.cores := rfl
@[simp] theorem State.setLaunch_dies (s : State) (id : Nat) (l : Launch) : (s.setLaunch id l).dies = s.dies := rfl
@[simp] theorem State.setLaunch_mem (s : State) (id : Nat) (l : Launch) : (s.setLaunch id l).mem = s.mem := rfl
@[simp] theorem State.setLaunch_poison (s : State) (id : Nat) (l : Launch) : (s.setLaunch id l).poison = s.poison := rfl
@[simp] theorem State.setLaunch_dirty (s : State) (id : Nat) (l : Launch) : (s.setLaunch id l).dirty = s.dirty := rfl
@[simp] theorem State.setLaunch_digbase (s : State) (id : Nat) (l : Launch) : (s.setLaunch id l).digbase = s.digbase := rfl
@[simp] theorem State.setLaunch_regions (s : State) (id : Nat) (l : Launch) : (s.setLaunch id l).regions = s.regions := rfl
@[simp] theorem State.setLaunch_captured (s : State) (id : Nat) (l : Launch) : (s.setLaunch id l).captured = s.captured := rfl
@[simp] theorem State.setLaunch_serial (s : State) (id : Nat) (l : Launch) : (s.setLaunch id l).serial = s.serial := rfl
@[simp] theorem State.setLaunch_digests (s : State) (id : Nat) (l : Launch) : (s.setLaunch id l).digests = s.digests := rfl
@[simp] theorem State.setLaunch_unsaved (s : State) (id : Nat) (l : Launch) : (s.setLaunch id l).unsaved = s.unsaved := rfl
@[simp] theorem State.setLaunch_renewed (s : State) (id : Nat) (l : Launch) : (s.setLaunch id l).renewed = s.renewed := rfl
@[simp] theorem State.setLaunch_released (s : State) (id : Nat) (l : Launch) : (s.setLaunch id l).released = s.released := rfl
@[simp] theorem State.setLaunch_linked (s : State) (id : Nat) (l : Launch) : (s.setLaunch id l).linked = s.linked := rfl
@[simp] theorem State.setLaunch_merges (s : State) (id : Nat) (l : Launch) : (s.setLaunch id l).merges = s.merges := rfl
@[simp] theorem State.setLaunch_ownStores (s : State) (id : Nat) (l : Launch) : (s.setLaunch id l).ownStores = s.ownStores := rfl
@[simp] theorem State.setLaunch_hostDrops (s : State) (id : Nat) (l : Launch) : (s.setLaunch id l).hostDrops = s.hostDrops := rfl
@[simp] theorem State.setLaunch_flights (s : State) (id : Nat) (l : Launch) : (s.setLaunch id l).flights = s.flights := rfl
@[simp] theorem State.setLaunch_mcasts (s : State) (id : Nat) (l : Launch) : (s.setLaunch id l).mcasts = s.mcasts := rfl
@[simp] theorem State.setLaunch_images (s : State) (id : Nat) (l : Launch) : (s.setLaunch id l).images = s.images := rfl
@[simp] theorem State.setLaunch_nextLaunch (s : State) (id : Nat) (l : Launch) : (s.setLaunch id l).nextLaunch = s.nextLaunch := rfl
@[simp] theorem State.setLaunch_graphs (s : State) (id : Nat) (l : Launch) : (s.setLaunch id l).graphs = s.graphs := rfl
@[simp] theorem State.setLaunch_phases (s : State) (id : Nat) (l : Launch) : (s.setLaunch id l).phases = s.phases := rfl
@[simp] theorem State.setLaunch_jobs (s : State) (id : Nat) (l : Launch) : (s.setLaunch id l).jobs = s.jobs := rfl
@[simp] theorem State.setLaunch_posted (s : State) (id : Nat) (l : Launch) : (s.setLaunch id l).posted = s.posted := rfl
@[simp] theorem State.setLaunch_savedReports (s : State) (id : Nat) (l : Launch) : (s.setLaunch id l).savedReports = s.savedReports := rfl
@[simp] theorem State.setLaunch_hostReads (s : State) (id : Nat) (l : Launch) : (s.setLaunch id l).hostReads = s.hostReads := rfl
@[simp] theorem State.setLaunch_ctxbase (s : State) (id : Nat) (l : Launch) : (s.setLaunch id l).ctxbase = s.ctxbase := rfl
@[simp] theorem State.setLaunch_featOff (s : State) (id : Nat) (l : Launch) : (s.setLaunch id l).featOff = s.featOff := rfl
@[simp] theorem State.setLaunch_featAcc (s : State) (id : Nat) (l : Launch) : (s.setLaunch id l).featAcc = s.featAcc := rfl
@[simp] theorem State.setLaunch_featBound (s : State) (id : Nat) (l : Launch) : (s.setLaunch id l).featBound = s.featBound := rfl
@[simp] theorem State.setLaunch_reports (s : State) (id : Nat) (l : Launch) : (s.setLaunch id l).reports = s.reports := rfl
@[simp] theorem State.setLaunch_trestle (s : State) (id : Nat) (l : Launch) : (s.setLaunch id l).trestle = s.trestle := rfl
@[simp] theorem State.setLaunch_rings (s : State) (id : Nat) (l : Launch) : (s.setLaunch id l).rings = s.rings := rfl
@[simp] theorem State.setLaunch_links (s : State) (id : Nat) (l : Launch) : (s.setLaunch id l).links = s.links := rfl
@[simp] theorem State.setLaunch_drainConfig (s : State) (id : Nat) (l : Launch) : (s.setLaunch id l).drainConfig = s.drainConfig := rfl
@[simp] theorem State.setLaunch_thermalReports (s : State) (id : Nat) (l : Launch) : (s.setLaunch id l).thermalReports = s.thermalReports := rfl

/-! ### writeByte -/

@[simp] theorem State.writeByte_clock (s : State) (pa : Nat) (b : Byte) : (s.writeByte pa b).clock = s.clock := rfl
@[simp] theorem State.writeByte_inputs (s : State) (pa : Nat) (b : Byte) : (s.writeByte pa b).inputs = s.inputs := rfl
@[simp] theorem State.writeByte_choices (s : State) (pa : Nat) (b : Byte) : (s.writeByte pa b).choices = s.choices := rfl
@[simp] theorem State.writeByte_free (s : State) (pa : Nat) (b : Byte) : (s.writeByte pa b).free = s.free := rfl
@[simp] theorem State.writeByte_cur (s : State) (pa : Nat) (b : Byte) : (s.writeByte pa b).cur = s.cur := rfl
@[simp] theorem State.writeByte_cores (s : State) (pa : Nat) (b : Byte) : (s.writeByte pa b).cores = s.cores := rfl
@[simp] theorem State.writeByte_dies (s : State) (pa : Nat) (b : Byte) : (s.writeByte pa b).dies = s.dies := rfl
@[simp] theorem State.writeByte_poison (s : State) (pa : Nat) (b : Byte) : (s.writeByte pa b).poison = s.poison := rfl
@[simp] theorem State.writeByte_dirty (s : State) (pa : Nat) (b : Byte) : (s.writeByte pa b).dirty = s.dirty := rfl
@[simp] theorem State.writeByte_digbase (s : State) (pa : Nat) (b : Byte) : (s.writeByte pa b).digbase = s.digbase := rfl
@[simp] theorem State.writeByte_regions (s : State) (pa : Nat) (b : Byte) : (s.writeByte pa b).regions = s.regions := rfl
@[simp] theorem State.writeByte_captured (s : State) (pa : Nat) (b : Byte) : (s.writeByte pa b).captured = s.captured := rfl
@[simp] theorem State.writeByte_serial (s : State) (pa : Nat) (b : Byte) : (s.writeByte pa b).serial = s.serial := rfl
@[simp] theorem State.writeByte_digests (s : State) (pa : Nat) (b : Byte) : (s.writeByte pa b).digests = s.digests := rfl
@[simp] theorem State.writeByte_unsaved (s : State) (pa : Nat) (b : Byte) : (s.writeByte pa b).unsaved = s.unsaved := rfl
@[simp] theorem State.writeByte_renewed (s : State) (pa : Nat) (b : Byte) : (s.writeByte pa b).renewed = s.renewed := rfl
@[simp] theorem State.writeByte_released (s : State) (pa : Nat) (b : Byte) : (s.writeByte pa b).released = s.released := rfl
@[simp] theorem State.writeByte_linked (s : State) (pa : Nat) (b : Byte) : (s.writeByte pa b).linked = s.linked := rfl
@[simp] theorem State.writeByte_merges (s : State) (pa : Nat) (b : Byte) : (s.writeByte pa b).merges = s.merges := rfl
@[simp] theorem State.writeByte_ownStores (s : State) (pa : Nat) (b : Byte) : (s.writeByte pa b).ownStores = s.ownStores := rfl
@[simp] theorem State.writeByte_hostDrops (s : State) (pa : Nat) (b : Byte) : (s.writeByte pa b).hostDrops = s.hostDrops := rfl
@[simp] theorem State.writeByte_flights (s : State) (pa : Nat) (b : Byte) : (s.writeByte pa b).flights = s.flights := rfl
@[simp] theorem State.writeByte_mcasts (s : State) (pa : Nat) (b : Byte) : (s.writeByte pa b).mcasts = s.mcasts := rfl
@[simp] theorem State.writeByte_images (s : State) (pa : Nat) (b : Byte) : (s.writeByte pa b).images = s.images := rfl
@[simp] theorem State.writeByte_nextLaunch (s : State) (pa : Nat) (b : Byte) : (s.writeByte pa b).nextLaunch = s.nextLaunch := rfl
@[simp] theorem State.writeByte_launches (s : State) (pa : Nat) (b : Byte) : (s.writeByte pa b).launches = s.launches := rfl
@[simp] theorem State.writeByte_graphs (s : State) (pa : Nat) (b : Byte) : (s.writeByte pa b).graphs = s.graphs := rfl
@[simp] theorem State.writeByte_phases (s : State) (pa : Nat) (b : Byte) : (s.writeByte pa b).phases = s.phases := rfl
@[simp] theorem State.writeByte_jobs (s : State) (pa : Nat) (b : Byte) : (s.writeByte pa b).jobs = s.jobs := rfl
@[simp] theorem State.writeByte_posted (s : State) (pa : Nat) (b : Byte) : (s.writeByte pa b).posted = s.posted := rfl
@[simp] theorem State.writeByte_savedReports (s : State) (pa : Nat) (b : Byte) : (s.writeByte pa b).savedReports = s.savedReports := rfl
@[simp] theorem State.writeByte_hostReads (s : State) (pa : Nat) (b : Byte) : (s.writeByte pa b).hostReads = s.hostReads := rfl
@[simp] theorem State.writeByte_ctxbase (s : State) (pa : Nat) (b : Byte) : (s.writeByte pa b).ctxbase = s.ctxbase := rfl
@[simp] theorem State.writeByte_featOff (s : State) (pa : Nat) (b : Byte) : (s.writeByte pa b).featOff = s.featOff := rfl
@[simp] theorem State.writeByte_featAcc (s : State) (pa : Nat) (b : Byte) : (s.writeByte pa b).featAcc = s.featAcc := rfl
@[simp] theorem State.writeByte_featBound (s : State) (pa : Nat) (b : Byte) : (s.writeByte pa b).featBound = s.featBound := rfl
@[simp] theorem State.writeByte_reports (s : State) (pa : Nat) (b : Byte) : (s.writeByte pa b).reports = s.reports := rfl
@[simp] theorem State.writeByte_trestle (s : State) (pa : Nat) (b : Byte) : (s.writeByte pa b).trestle = s.trestle := rfl
@[simp] theorem State.writeByte_rings (s : State) (pa : Nat) (b : Byte) : (s.writeByte pa b).rings = s.rings := rfl
@[simp] theorem State.writeByte_links (s : State) (pa : Nat) (b : Byte) : (s.writeByte pa b).links = s.links := rfl
@[simp] theorem State.writeByte_drainConfig (s : State) (pa : Nat) (b : Byte) : (s.writeByte pa b).drainConfig = s.drainConfig := rfl
@[simp] theorem State.writeByte_thermalReports (s : State) (pa : Nat) (b : Byte) : (s.writeByte pa b).thermalReports = s.thermalReports := rfl

/-! ### setDigest -/

@[simp] theorem State.setDigest_clock (s : State) (a : Nat) (r : DigestRec) : (s.setDigest a r).clock = s.clock := rfl
@[simp] theorem State.setDigest_inputs (s : State) (a : Nat) (r : DigestRec) : (s.setDigest a r).inputs = s.inputs := rfl
@[simp] theorem State.setDigest_choices (s : State) (a : Nat) (r : DigestRec) : (s.setDigest a r).choices = s.choices := rfl
@[simp] theorem State.setDigest_free (s : State) (a : Nat) (r : DigestRec) : (s.setDigest a r).free = s.free := rfl
@[simp] theorem State.setDigest_cur (s : State) (a : Nat) (r : DigestRec) : (s.setDigest a r).cur = s.cur := rfl
@[simp] theorem State.setDigest_cores (s : State) (a : Nat) (r : DigestRec) : (s.setDigest a r).cores = s.cores := rfl
@[simp] theorem State.setDigest_dies (s : State) (a : Nat) (r : DigestRec) : (s.setDigest a r).dies = s.dies := rfl
@[simp] theorem State.setDigest_mem (s : State) (a : Nat) (r : DigestRec) : (s.setDigest a r).mem = s.mem := rfl
@[simp] theorem State.setDigest_poison (s : State) (a : Nat) (r : DigestRec) : (s.setDigest a r).poison = s.poison := rfl
@[simp] theorem State.setDigest_dirty (s : State) (a : Nat) (r : DigestRec) : (s.setDigest a r).dirty = s.dirty := rfl
@[simp] theorem State.setDigest_digbase (s : State) (a : Nat) (r : DigestRec) : (s.setDigest a r).digbase = s.digbase := rfl
@[simp] theorem State.setDigest_regions (s : State) (a : Nat) (r : DigestRec) : (s.setDigest a r).regions = s.regions := rfl
@[simp] theorem State.setDigest_captured (s : State) (a : Nat) (r : DigestRec) : (s.setDigest a r).captured = s.captured := rfl
@[simp] theorem State.setDigest_serial (s : State) (a : Nat) (r : DigestRec) : (s.setDigest a r).serial = s.serial := rfl
@[simp] theorem State.setDigest_renewed (s : State) (a : Nat) (r : DigestRec) : (s.setDigest a r).renewed = s.renewed := rfl
@[simp] theorem State.setDigest_released (s : State) (a : Nat) (r : DigestRec) : (s.setDigest a r).released = s.released := rfl
@[simp] theorem State.setDigest_linked (s : State) (a : Nat) (r : DigestRec) : (s.setDigest a r).linked = s.linked := rfl
@[simp] theorem State.setDigest_merges (s : State) (a : Nat) (r : DigestRec) : (s.setDigest a r).merges = s.merges := rfl
@[simp] theorem State.setDigest_ownStores (s : State) (a : Nat) (r : DigestRec) : (s.setDigest a r).ownStores = s.ownStores := rfl
@[simp] theorem State.setDigest_hostDrops (s : State) (a : Nat) (r : DigestRec) : (s.setDigest a r).hostDrops = s.hostDrops := rfl
@[simp] theorem State.setDigest_flights (s : State) (a : Nat) (r : DigestRec) : (s.setDigest a r).flights = s.flights := rfl
@[simp] theorem State.setDigest_mcasts (s : State) (a : Nat) (r : DigestRec) : (s.setDigest a r).mcasts = s.mcasts := rfl
@[simp] theorem State.setDigest_images (s : State) (a : Nat) (r : DigestRec) : (s.setDigest a r).images = s.images := rfl
@[simp] theorem State.setDigest_nextLaunch (s : State) (a : Nat) (r : DigestRec) : (s.setDigest a r).nextLaunch = s.nextLaunch := rfl
@[simp] theorem State.setDigest_launches (s : State) (a : Nat) (r : DigestRec) : (s.setDigest a r).launches = s.launches := rfl
@[simp] theorem State.setDigest_graphs (s : State) (a : Nat) (r : DigestRec) : (s.setDigest a r).graphs = s.graphs := rfl
@[simp] theorem State.setDigest_phases (s : State) (a : Nat) (r : DigestRec) : (s.setDigest a r).phases = s.phases := rfl
@[simp] theorem State.setDigest_jobs (s : State) (a : Nat) (r : DigestRec) : (s.setDigest a r).jobs = s.jobs := rfl
@[simp] theorem State.setDigest_posted (s : State) (a : Nat) (r : DigestRec) : (s.setDigest a r).posted = s.posted := rfl
@[simp] theorem State.setDigest_savedReports (s : State) (a : Nat) (r : DigestRec) : (s.setDigest a r).savedReports = s.savedReports := rfl
@[simp] theorem State.setDigest_hostReads (s : State) (a : Nat) (r : DigestRec) : (s.setDigest a r).hostReads = s.hostReads := rfl
@[simp] theorem State.setDigest_ctxbase (s : State) (a : Nat) (r : DigestRec) : (s.setDigest a r).ctxbase = s.ctxbase := rfl
@[simp] theorem State.setDigest_featOff (s : State) (a : Nat) (r : DigestRec) : (s.setDigest a r).featOff = s.featOff := rfl
@[simp] theorem State.setDigest_featAcc (s : State) (a : Nat) (r : DigestRec) : (s.setDigest a r).featAcc = s.featAcc := rfl
@[simp] theorem State.setDigest_featBound (s : State) (a : Nat) (r : DigestRec) : (s.setDigest a r).featBound = s.featBound := rfl
@[simp] theorem State.setDigest_reports (s : State) (a : Nat) (r : DigestRec) : (s.setDigest a r).reports = s.reports := rfl
@[simp] theorem State.setDigest_trestle (s : State) (a : Nat) (r : DigestRec) : (s.setDigest a r).trestle = s.trestle := rfl
@[simp] theorem State.setDigest_rings (s : State) (a : Nat) (r : DigestRec) : (s.setDigest a r).rings = s.rings := rfl
@[simp] theorem State.setDigest_links (s : State) (a : Nat) (r : DigestRec) : (s.setDigest a r).links = s.links := rfl
@[simp] theorem State.setDigest_drainConfig (s : State) (a : Nat) (r : DigestRec) : (s.setDigest a r).drainConfig = s.drainConfig := rfl
@[simp] theorem State.setDigest_thermalReports (s : State) (a : Nat) (r : DigestRec) : (s.setDigest a r).thermalReports = s.thermalReports := rfl

/-! ### endIssue -/

@[simp] theorem State.endIssue_clock (s : State)  : (s.endIssue).clock = s.clock := rfl
@[simp] theorem State.endIssue_inputs (s : State)  : (s.endIssue).inputs = s.inputs := rfl
@[simp] theorem State.endIssue_choices (s : State)  : (s.endIssue).choices = s.choices := rfl
@[simp] theorem State.endIssue_free (s : State)  : (s.endIssue).free = s.free := rfl
@[simp] theorem State.endIssue_cores (s : State)  : (s.endIssue).cores = s.cores := rfl
@[simp] theorem State.endIssue_dies (s : State)  : (s.endIssue).dies = s.dies := rfl
@[simp] theorem State.endIssue_mem (s : State)  : (s.endIssue).mem = s.mem := rfl
@[simp] theorem State.endIssue_poison (s : State)  : (s.endIssue).poison = s.poison := rfl
@[simp] theorem State.endIssue_dirty (s : State)  : (s.endIssue).dirty = s.dirty := rfl
@[simp] theorem State.endIssue_digbase (s : State)  : (s.endIssue).digbase = s.digbase := rfl
@[simp] theorem State.endIssue_regions (s : State)  : (s.endIssue).regions = s.regions := rfl
@[simp] theorem State.endIssue_captured (s : State)  : (s.endIssue).captured = s.captured := rfl
@[simp] theorem State.endIssue_serial (s : State)  : (s.endIssue).serial = s.serial := rfl
@[simp] theorem State.endIssue_digests (s : State)  : (s.endIssue).digests = s.digests := rfl
@[simp] theorem State.endIssue_unsaved (s : State)  : (s.endIssue).unsaved = s.unsaved := rfl
@[simp] theorem State.endIssue_renewed (s : State)  : (s.endIssue).renewed = s.renewed := rfl
@[simp] theorem State.endIssue_released (s : State)  : (s.endIssue).released = s.released := rfl
@[simp] theorem State.endIssue_linked (s : State)  : (s.endIssue).linked = s.linked := rfl
@[simp] theorem State.endIssue_merges (s : State)  : (s.endIssue).merges = s.merges := rfl
@[simp] theorem State.endIssue_ownStores (s : State)  : (s.endIssue).ownStores = s.ownStores := rfl
@[simp] theorem State.endIssue_hostDrops (s : State)  : (s.endIssue).hostDrops = s.hostDrops := rfl
@[simp] theorem State.endIssue_flights (s : State)  : (s.endIssue).flights = s.flights := rfl
@[simp] theorem State.endIssue_mcasts (s : State)  : (s.endIssue).mcasts = s.mcasts := rfl
@[simp] theorem State.endIssue_images (s : State)  : (s.endIssue).images = s.images := rfl
@[simp] theorem State.endIssue_nextLaunch (s : State)  : (s.endIssue).nextLaunch = s.nextLaunch := rfl
@[simp] theorem State.endIssue_launches (s : State)  : (s.endIssue).launches = s.launches := rfl
@[simp] theorem State.endIssue_graphs (s : State)  : (s.endIssue).graphs = s.graphs := rfl
@[simp] theorem State.endIssue_phases (s : State)  : (s.endIssue).phases = s.phases := rfl
@[simp] theorem State.endIssue_jobs (s : State)  : (s.endIssue).jobs = s.jobs := rfl
@[simp] theorem State.endIssue_posted (s : State)  : (s.endIssue).posted = s.posted := rfl
@[simp] theorem State.endIssue_savedReports (s : State)  : (s.endIssue).savedReports = s.savedReports := rfl
@[simp] theorem State.endIssue_hostReads (s : State)  : (s.endIssue).hostReads = s.hostReads := rfl
@[simp] theorem State.endIssue_ctxbase (s : State)  : (s.endIssue).ctxbase = s.ctxbase := rfl
@[simp] theorem State.endIssue_featOff (s : State)  : (s.endIssue).featOff = s.featOff := rfl
@[simp] theorem State.endIssue_featAcc (s : State)  : (s.endIssue).featAcc = s.featAcc := rfl
@[simp] theorem State.endIssue_featBound (s : State)  : (s.endIssue).featBound = s.featBound := rfl
@[simp] theorem State.endIssue_reports (s : State)  : (s.endIssue).reports = s.reports := rfl
@[simp] theorem State.endIssue_trestle (s : State)  : (s.endIssue).trestle = s.trestle := rfl
@[simp] theorem State.endIssue_rings (s : State)  : (s.endIssue).rings = s.rings := rfl
@[simp] theorem State.endIssue_links (s : State)  : (s.endIssue).links = s.links := rfl
@[simp] theorem State.endIssue_drainConfig (s : State)  : (s.endIssue).drainConfig = s.drainConfig := rfl
@[simp] theorem State.endIssue_thermalReports (s : State)  : (s.endIssue).thermalReports = s.thermalReports := rfl

/-! ### modLaunch -/

@[simp] theorem State.modLaunch_clock (s : State) (id : Nat) (f : Launch → Launch) : (s.modLaunch id f).clock = s.clock := by unfold State.modLaunch; split <;> rfl
@[simp] theorem State.modLaunch_inputs (s : State) (id : Nat) (f : Launch → Launch) : (s.modLaunch id f).inputs = s.inputs := by unfold State.modLaunch; split <;> rfl
@[simp] theorem State.modLaunch_choices (s : State) (id : Nat) (f : Launch → Launch) : (s.modLaunch id f).choices = s.choices := by unfold State.modLaunch; split <;> rfl
@[simp] theorem State.modLaunch_free (s : State) (id : Nat) (f : Launch → Launch) : (s.modLaunch id f).free = s.free := by unfold State.modLaunch; split <;> rfl
@[simp] theorem State.modLaunch_cur (s : State) (id : Nat) (f : Launch → Launch) : (s.modLaunch id f).cur = s.cur := by unfold State.modLaunch; split <;> rfl
@[simp] theorem State.modLaunch_cores (s : State) (id : Nat) (f : Launch → Launch) : (s.modLaunch id f).cores = s.cores := by unfold State.modLaunch; split <;> rfl
@[simp] theorem State.modLaunch_dies (s : State) (id : Nat) (f : Launch → Launch) : (s.modLaunch id f).dies = s.dies := by unfold State.modLaunch; split <;> rfl
@[simp] theorem State.modLaunch_mem (s : State) (id : Nat) (f : Launch → Launch) : (s.modLaunch id f).mem = s.mem := by unfold State.modLaunch; split <;> rfl
@[simp] theorem State.modLaunch_poison (s : State) (id : Nat) (f : Launch → Launch) : (s.modLaunch id f).poison = s.poison := by unfold State.modLaunch; split <;> rfl
@[simp] theorem State.modLaunch_dirty (s : State) (id : Nat) (f : Launch → Launch) : (s.modLaunch id f).dirty = s.dirty := by unfold State.modLaunch; split <;> rfl
@[simp] theorem State.modLaunch_digbase (s : State) (id : Nat) (f : Launch → Launch) : (s.modLaunch id f).digbase = s.digbase := by unfold State.modLaunch; split <;> rfl
@[simp] theorem State.modLaunch_regions (s : State) (id : Nat) (f : Launch → Launch) : (s.modLaunch id f).regions = s.regions := by unfold State.modLaunch; split <;> rfl
@[simp] theorem State.modLaunch_captured (s : State) (id : Nat) (f : Launch → Launch) : (s.modLaunch id f).captured = s.captured := by unfold State.modLaunch; split <;> rfl
@[simp] theorem State.modLaunch_serial (s : State) (id : Nat) (f : Launch → Launch) : (s.modLaunch id f).serial = s.serial := by unfold State.modLaunch; split <;> rfl
@[simp] theorem State.modLaunch_digests (s : State) (id : Nat) (f : Launch → Launch) : (s.modLaunch id f).digests = s.digests := by unfold State.modLaunch; split <;> rfl
@[simp] theorem State.modLaunch_unsaved (s : State) (id : Nat) (f : Launch → Launch) : (s.modLaunch id f).unsaved = s.unsaved := by unfold State.modLaunch; split <;> rfl
@[simp] theorem State.modLaunch_renewed (s : State) (id : Nat) (f : Launch → Launch) : (s.modLaunch id f).renewed = s.renewed := by unfold State.modLaunch; split <;> rfl
@[simp] theorem State.modLaunch_released (s : State) (id : Nat) (f : Launch → Launch) : (s.modLaunch id f).released = s.released := by unfold State.modLaunch; split <;> rfl
@[simp] theorem State.modLaunch_linked (s : State) (id : Nat) (f : Launch → Launch) : (s.modLaunch id f).linked = s.linked := by unfold State.modLaunch; split <;> rfl
@[simp] theorem State.modLaunch_merges (s : State) (id : Nat) (f : Launch → Launch) : (s.modLaunch id f).merges = s.merges := by unfold State.modLaunch; split <;> rfl
@[simp] theorem State.modLaunch_ownStores (s : State) (id : Nat) (f : Launch → Launch) : (s.modLaunch id f).ownStores = s.ownStores := by unfold State.modLaunch; split <;> rfl
@[simp] theorem State.modLaunch_hostDrops (s : State) (id : Nat) (f : Launch → Launch) : (s.modLaunch id f).hostDrops = s.hostDrops := by unfold State.modLaunch; split <;> rfl
@[simp] theorem State.modLaunch_flights (s : State) (id : Nat) (f : Launch → Launch) : (s.modLaunch id f).flights = s.flights := by unfold State.modLaunch; split <;> rfl
@[simp] theorem State.modLaunch_mcasts (s : State) (id : Nat) (f : Launch → Launch) : (s.modLaunch id f).mcasts = s.mcasts := by unfold State.modLaunch; split <;> rfl
@[simp] theorem State.modLaunch_images (s : State) (id : Nat) (f : Launch → Launch) : (s.modLaunch id f).images = s.images := by unfold State.modLaunch; split <;> rfl
@[simp] theorem State.modLaunch_nextLaunch (s : State) (id : Nat) (f : Launch → Launch) : (s.modLaunch id f).nextLaunch = s.nextLaunch := by unfold State.modLaunch; split <;> rfl
@[simp] theorem State.modLaunch_graphs (s : State) (id : Nat) (f : Launch → Launch) : (s.modLaunch id f).graphs = s.graphs := by unfold State.modLaunch; split <;> rfl
@[simp] theorem State.modLaunch_phases (s : State) (id : Nat) (f : Launch → Launch) : (s.modLaunch id f).phases = s.phases := by unfold State.modLaunch; split <;> rfl
@[simp] theorem State.modLaunch_jobs (s : State) (id : Nat) (f : Launch → Launch) : (s.modLaunch id f).jobs = s.jobs := by unfold State.modLaunch; split <;> rfl
@[simp] theorem State.modLaunch_posted (s : State) (id : Nat) (f : Launch → Launch) : (s.modLaunch id f).posted = s.posted := by unfold State.modLaunch; split <;> rfl
@[simp] theorem State.modLaunch_savedReports (s : State) (id : Nat) (f : Launch → Launch) : (s.modLaunch id f).savedReports = s.savedReports := by unfold State.modLaunch; split <;> rfl
@[simp] theorem State.modLaunch_hostReads (s : State) (id : Nat) (f : Launch → Launch) : (s.modLaunch id f).hostReads = s.hostReads := by unfold State.modLaunch; split <;> rfl
@[simp] theorem State.modLaunch_ctxbase (s : State) (id : Nat) (f : Launch → Launch) : (s.modLaunch id f).ctxbase = s.ctxbase := by unfold State.modLaunch; split <;> rfl
@[simp] theorem State.modLaunch_featOff (s : State) (id : Nat) (f : Launch → Launch) : (s.modLaunch id f).featOff = s.featOff := by unfold State.modLaunch; split <;> rfl
@[simp] theorem State.modLaunch_featAcc (s : State) (id : Nat) (f : Launch → Launch) : (s.modLaunch id f).featAcc = s.featAcc := by unfold State.modLaunch; split <;> rfl
@[simp] theorem State.modLaunch_featBound (s : State) (id : Nat) (f : Launch → Launch) : (s.modLaunch id f).featBound = s.featBound := by unfold State.modLaunch; split <;> rfl
@[simp] theorem State.modLaunch_reports (s : State) (id : Nat) (f : Launch → Launch) : (s.modLaunch id f).reports = s.reports := by unfold State.modLaunch; split <;> rfl
@[simp] theorem State.modLaunch_trestle (s : State) (id : Nat) (f : Launch → Launch) : (s.modLaunch id f).trestle = s.trestle := by unfold State.modLaunch; split <;> rfl
@[simp] theorem State.modLaunch_rings (s : State) (id : Nat) (f : Launch → Launch) : (s.modLaunch id f).rings = s.rings := by unfold State.modLaunch; split <;> rfl
@[simp] theorem State.modLaunch_links (s : State) (id : Nat) (f : Launch → Launch) : (s.modLaunch id f).links = s.links := by unfold State.modLaunch; split <;> rfl
@[simp] theorem State.modLaunch_drainConfig (s : State) (id : Nat) (f : Launch → Launch) : (s.modLaunch id f).drainConfig = s.drainConfig := by unfold State.modLaunch; split <;> rfl
@[simp] theorem State.modLaunch_thermalReports (s : State) (id : Nat) (f : Launch → Launch) : (s.modLaunch id f).thermalReports = s.thermalReports := by unfold State.modLaunch; split <;> rfl

/-! ### setLevel -/

@[simp] theorem State.setLevel_clock (s : State) (v : Level) (id : Nat) (r : LevelRec) : (s.setLevel v id r).clock = s.clock := by cases v <;> rfl
@[simp] theorem State.setLevel_inputs (s : State) (v : Level) (id : Nat) (r : LevelRec) : (s.setLevel v id r).inputs = s.inputs := by cases v <;> rfl
@[simp] theorem State.setLevel_choices (s : State) (v : Level) (id : Nat) (r : LevelRec) : (s.setLevel v id r).choices = s.choices := by cases v <;> rfl
@[simp] theorem State.setLevel_free (s : State) (v : Level) (id : Nat) (r : LevelRec) : (s.setLevel v id r).free = s.free := by cases v <;> rfl
@[simp] theorem State.setLevel_cur (s : State) (v : Level) (id : Nat) (r : LevelRec) : (s.setLevel v id r).cur = s.cur := by cases v <;> rfl
@[simp] theorem State.setLevel_cores (s : State) (v : Level) (id : Nat) (r : LevelRec) : (s.setLevel v id r).cores = s.cores := by cases v <;> rfl
@[simp] theorem State.setLevel_dies (s : State) (v : Level) (id : Nat) (r : LevelRec) : (s.setLevel v id r).dies = s.dies := by cases v <;> rfl
@[simp] theorem State.setLevel_mem (s : State) (v : Level) (id : Nat) (r : LevelRec) : (s.setLevel v id r).mem = s.mem := by cases v <;> rfl
@[simp] theorem State.setLevel_poison (s : State) (v : Level) (id : Nat) (r : LevelRec) : (s.setLevel v id r).poison = s.poison := by cases v <;> rfl
@[simp] theorem State.setLevel_dirty (s : State) (v : Level) (id : Nat) (r : LevelRec) : (s.setLevel v id r).dirty = s.dirty := by cases v <;> rfl
@[simp] theorem State.setLevel_digbase (s : State) (v : Level) (id : Nat) (r : LevelRec) : (s.setLevel v id r).digbase = s.digbase := by cases v <;> rfl
@[simp] theorem State.setLevel_regions (s : State) (v : Level) (id : Nat) (r : LevelRec) : (s.setLevel v id r).regions = s.regions := by cases v <;> rfl
@[simp] theorem State.setLevel_captured (s : State) (v : Level) (id : Nat) (r : LevelRec) : (s.setLevel v id r).captured = s.captured := by cases v <;> rfl
@[simp] theorem State.setLevel_serial (s : State) (v : Level) (id : Nat) (r : LevelRec) : (s.setLevel v id r).serial = s.serial := by cases v <;> rfl
@[simp] theorem State.setLevel_digests (s : State) (v : Level) (id : Nat) (r : LevelRec) : (s.setLevel v id r).digests = s.digests := by cases v <;> rfl
@[simp] theorem State.setLevel_unsaved (s : State) (v : Level) (id : Nat) (r : LevelRec) : (s.setLevel v id r).unsaved = s.unsaved := by cases v <;> rfl
@[simp] theorem State.setLevel_renewed (s : State) (v : Level) (id : Nat) (r : LevelRec) : (s.setLevel v id r).renewed = s.renewed := by cases v <;> rfl
@[simp] theorem State.setLevel_released (s : State) (v : Level) (id : Nat) (r : LevelRec) : (s.setLevel v id r).released = s.released := by cases v <;> rfl
@[simp] theorem State.setLevel_linked (s : State) (v : Level) (id : Nat) (r : LevelRec) : (s.setLevel v id r).linked = s.linked := by cases v <;> rfl
@[simp] theorem State.setLevel_merges (s : State) (v : Level) (id : Nat) (r : LevelRec) : (s.setLevel v id r).merges = s.merges := by cases v <;> rfl
@[simp] theorem State.setLevel_ownStores (s : State) (v : Level) (id : Nat) (r : LevelRec) : (s.setLevel v id r).ownStores = s.ownStores := by cases v <;> rfl
@[simp] theorem State.setLevel_hostDrops (s : State) (v : Level) (id : Nat) (r : LevelRec) : (s.setLevel v id r).hostDrops = s.hostDrops := by cases v <;> rfl
@[simp] theorem State.setLevel_flights (s : State) (v : Level) (id : Nat) (r : LevelRec) : (s.setLevel v id r).flights = s.flights := by cases v <;> rfl
@[simp] theorem State.setLevel_mcasts (s : State) (v : Level) (id : Nat) (r : LevelRec) : (s.setLevel v id r).mcasts = s.mcasts := by cases v <;> rfl
@[simp] theorem State.setLevel_images (s : State) (v : Level) (id : Nat) (r : LevelRec) : (s.setLevel v id r).images = s.images := by cases v <;> rfl
@[simp] theorem State.setLevel_nextLaunch (s : State) (v : Level) (id : Nat) (r : LevelRec) : (s.setLevel v id r).nextLaunch = s.nextLaunch := by cases v <;> rfl
@[simp] theorem State.setLevel_launches (s : State) (v : Level) (id : Nat) (r : LevelRec) : (s.setLevel v id r).launches = s.launches := by cases v <;> rfl
@[simp] theorem State.setLevel_posted (s : State) (v : Level) (id : Nat) (r : LevelRec) : (s.setLevel v id r).posted = s.posted := by cases v <;> rfl
@[simp] theorem State.setLevel_savedReports (s : State) (v : Level) (id : Nat) (r : LevelRec) : (s.setLevel v id r).savedReports = s.savedReports := by cases v <;> rfl
@[simp] theorem State.setLevel_hostReads (s : State) (v : Level) (id : Nat) (r : LevelRec) : (s.setLevel v id r).hostReads = s.hostReads := by cases v <;> rfl
@[simp] theorem State.setLevel_ctxbase (s : State) (v : Level) (id : Nat) (r : LevelRec) : (s.setLevel v id r).ctxbase = s.ctxbase := by cases v <;> rfl
@[simp] theorem State.setLevel_featOff (s : State) (v : Level) (id : Nat) (r : LevelRec) : (s.setLevel v id r).featOff = s.featOff := by cases v <;> rfl
@[simp] theorem State.setLevel_featAcc (s : State) (v : Level) (id : Nat) (r : LevelRec) : (s.setLevel v id r).featAcc = s.featAcc := by cases v <;> rfl
@[simp] theorem State.setLevel_featBound (s : State) (v : Level) (id : Nat) (r : LevelRec) : (s.setLevel v id r).featBound = s.featBound := by cases v <;> rfl
@[simp] theorem State.setLevel_reports (s : State) (v : Level) (id : Nat) (r : LevelRec) : (s.setLevel v id r).reports = s.reports := by cases v <;> rfl
@[simp] theorem State.setLevel_trestle (s : State) (v : Level) (id : Nat) (r : LevelRec) : (s.setLevel v id r).trestle = s.trestle := by cases v <;> rfl
@[simp] theorem State.setLevel_rings (s : State) (v : Level) (id : Nat) (r : LevelRec) : (s.setLevel v id r).rings = s.rings := by cases v <;> rfl
@[simp] theorem State.setLevel_links (s : State) (v : Level) (id : Nat) (r : LevelRec) : (s.setLevel v id r).links = s.links := by cases v <;> rfl
@[simp] theorem State.setLevel_drainConfig (s : State) (v : Level) (id : Nat) (r : LevelRec) : (s.setLevel v id r).drainConfig = s.drainConfig := by cases v <;> rfl
@[simp] theorem State.setLevel_thermalReports (s : State) (v : Level) (id : Nat) (r : LevelRec) : (s.setLevel v id r).thermalReports = s.thermalReports := by cases v <;> rfl

/-! ### modLevel -/

@[simp] theorem State.modLevel_clock (s : State) (v : Level) (id : Nat) (f : LevelRec → LevelRec) : (s.modLevel v id f).clock = s.clock := by unfold State.modLevel; split <;> simp
@[simp] theorem State.modLevel_inputs (s : State) (v : Level) (id : Nat) (f : LevelRec → LevelRec) : (s.modLevel v id f).inputs = s.inputs := by unfold State.modLevel; split <;> simp
@[simp] theorem State.modLevel_choices (s : State) (v : Level) (id : Nat) (f : LevelRec → LevelRec) : (s.modLevel v id f).choices = s.choices := by unfold State.modLevel; split <;> simp
@[simp] theorem State.modLevel_free (s : State) (v : Level) (id : Nat) (f : LevelRec → LevelRec) : (s.modLevel v id f).free = s.free := by unfold State.modLevel; split <;> simp
@[simp] theorem State.modLevel_cur (s : State) (v : Level) (id : Nat) (f : LevelRec → LevelRec) : (s.modLevel v id f).cur = s.cur := by unfold State.modLevel; split <;> simp
@[simp] theorem State.modLevel_cores (s : State) (v : Level) (id : Nat) (f : LevelRec → LevelRec) : (s.modLevel v id f).cores = s.cores := by unfold State.modLevel; split <;> simp
@[simp] theorem State.modLevel_dies (s : State) (v : Level) (id : Nat) (f : LevelRec → LevelRec) : (s.modLevel v id f).dies = s.dies := by unfold State.modLevel; split <;> simp
@[simp] theorem State.modLevel_mem (s : State) (v : Level) (id : Nat) (f : LevelRec → LevelRec) : (s.modLevel v id f).mem = s.mem := by unfold State.modLevel; split <;> simp
@[simp] theorem State.modLevel_poison (s : State) (v : Level) (id : Nat) (f : LevelRec → LevelRec) : (s.modLevel v id f).poison = s.poison := by unfold State.modLevel; split <;> simp
@[simp] theorem State.modLevel_dirty (s : State) (v : Level) (id : Nat) (f : LevelRec → LevelRec) : (s.modLevel v id f).dirty = s.dirty := by unfold State.modLevel; split <;> simp
@[simp] theorem State.modLevel_digbase (s : State) (v : Level) (id : Nat) (f : LevelRec → LevelRec) : (s.modLevel v id f).digbase = s.digbase := by unfold State.modLevel; split <;> simp
@[simp] theorem State.modLevel_regions (s : State) (v : Level) (id : Nat) (f : LevelRec → LevelRec) : (s.modLevel v id f).regions = s.regions := by unfold State.modLevel; split <;> simp
@[simp] theorem State.modLevel_captured (s : State) (v : Level) (id : Nat) (f : LevelRec → LevelRec) : (s.modLevel v id f).captured = s.captured := by unfold State.modLevel; split <;> simp
@[simp] theorem State.modLevel_serial (s : State) (v : Level) (id : Nat) (f : LevelRec → LevelRec) : (s.modLevel v id f).serial = s.serial := by unfold State.modLevel; split <;> simp
@[simp] theorem State.modLevel_digests (s : State) (v : Level) (id : Nat) (f : LevelRec → LevelRec) : (s.modLevel v id f).digests = s.digests := by unfold State.modLevel; split <;> simp
@[simp] theorem State.modLevel_unsaved (s : State) (v : Level) (id : Nat) (f : LevelRec → LevelRec) : (s.modLevel v id f).unsaved = s.unsaved := by unfold State.modLevel; split <;> simp
@[simp] theorem State.modLevel_renewed (s : State) (v : Level) (id : Nat) (f : LevelRec → LevelRec) : (s.modLevel v id f).renewed = s.renewed := by unfold State.modLevel; split <;> simp
@[simp] theorem State.modLevel_released (s : State) (v : Level) (id : Nat) (f : LevelRec → LevelRec) : (s.modLevel v id f).released = s.released := by unfold State.modLevel; split <;> simp
@[simp] theorem State.modLevel_linked (s : State) (v : Level) (id : Nat) (f : LevelRec → LevelRec) : (s.modLevel v id f).linked = s.linked := by unfold State.modLevel; split <;> simp
@[simp] theorem State.modLevel_merges (s : State) (v : Level) (id : Nat) (f : LevelRec → LevelRec) : (s.modLevel v id f).merges = s.merges := by unfold State.modLevel; split <;> simp
@[simp] theorem State.modLevel_ownStores (s : State) (v : Level) (id : Nat) (f : LevelRec → LevelRec) : (s.modLevel v id f).ownStores = s.ownStores := by unfold State.modLevel; split <;> simp
@[simp] theorem State.modLevel_hostDrops (s : State) (v : Level) (id : Nat) (f : LevelRec → LevelRec) : (s.modLevel v id f).hostDrops = s.hostDrops := by unfold State.modLevel; split <;> simp
@[simp] theorem State.modLevel_flights (s : State) (v : Level) (id : Nat) (f : LevelRec → LevelRec) : (s.modLevel v id f).flights = s.flights := by unfold State.modLevel; split <;> simp
@[simp] theorem State.modLevel_mcasts (s : State) (v : Level) (id : Nat) (f : LevelRec → LevelRec) : (s.modLevel v id f).mcasts = s.mcasts := by unfold State.modLevel; split <;> simp
@[simp] theorem State.modLevel_images (s : State) (v : Level) (id : Nat) (f : LevelRec → LevelRec) : (s.modLevel v id f).images = s.images := by unfold State.modLevel; split <;> simp
@[simp] theorem State.modLevel_nextLaunch (s : State) (v : Level) (id : Nat) (f : LevelRec → LevelRec) : (s.modLevel v id f).nextLaunch = s.nextLaunch := by unfold State.modLevel; split <;> simp
@[simp] theorem State.modLevel_launches (s : State) (v : Level) (id : Nat) (f : LevelRec → LevelRec) : (s.modLevel v id f).launches = s.launches := by unfold State.modLevel; split <;> simp
@[simp] theorem State.modLevel_posted (s : State) (v : Level) (id : Nat) (f : LevelRec → LevelRec) : (s.modLevel v id f).posted = s.posted := by unfold State.modLevel; split <;> simp
@[simp] theorem State.modLevel_savedReports (s : State) (v : Level) (id : Nat) (f : LevelRec → LevelRec) : (s.modLevel v id f).savedReports = s.savedReports := by unfold State.modLevel; split <;> simp
@[simp] theorem State.modLevel_hostReads (s : State) (v : Level) (id : Nat) (f : LevelRec → LevelRec) : (s.modLevel v id f).hostReads = s.hostReads := by unfold State.modLevel; split <;> simp
@[simp] theorem State.modLevel_ctxbase (s : State) (v : Level) (id : Nat) (f : LevelRec → LevelRec) : (s.modLevel v id f).ctxbase = s.ctxbase := by unfold State.modLevel; split <;> simp
@[simp] theorem State.modLevel_featOff (s : State) (v : Level) (id : Nat) (f : LevelRec → LevelRec) : (s.modLevel v id f).featOff = s.featOff := by unfold State.modLevel; split <;> simp
@[simp] theorem State.modLevel_featAcc (s : State) (v : Level) (id : Nat) (f : LevelRec → LevelRec) : (s.modLevel v id f).featAcc = s.featAcc := by unfold State.modLevel; split <;> simp
@[simp] theorem State.modLevel_featBound (s : State) (v : Level) (id : Nat) (f : LevelRec → LevelRec) : (s.modLevel v id f).featBound = s.featBound := by unfold State.modLevel; split <;> simp
@[simp] theorem State.modLevel_reports (s : State) (v : Level) (id : Nat) (f : LevelRec → LevelRec) : (s.modLevel v id f).reports = s.reports := by unfold State.modLevel; split <;> simp
@[simp] theorem State.modLevel_trestle (s : State) (v : Level) (id : Nat) (f : LevelRec → LevelRec) : (s.modLevel v id f).trestle = s.trestle := by unfold State.modLevel; split <;> simp
@[simp] theorem State.modLevel_rings (s : State) (v : Level) (id : Nat) (f : LevelRec → LevelRec) : (s.modLevel v id f).rings = s.rings := by unfold State.modLevel; split <;> simp
@[simp] theorem State.modLevel_links (s : State) (v : Level) (id : Nat) (f : LevelRec → LevelRec) : (s.modLevel v id f).links = s.links := by unfold State.modLevel; split <;> simp
@[simp] theorem State.modLevel_drainConfig (s : State) (v : Level) (id : Nat) (f : LevelRec → LevelRec) : (s.modLevel v id f).drainConfig = s.drainConfig := by unfold State.modLevel; split <;> simp
@[simp] theorem State.modLevel_thermalReports (s : State) (v : Level) (id : Nat) (f : LevelRec → LevelRec) : (s.modLevel v id f).thermalReports = s.thermalReports := by unfold State.modLevel; split <;> simp

/-! ### freshWord -/

@[simp] theorem State.freshWord_clock (s : State) : s.freshWord.2.clock = s.clock := rfl
@[simp] theorem State.freshWord_inputs (s : State) : s.freshWord.2.inputs = s.inputs := rfl
@[simp] theorem State.freshWord_choices (s : State) : s.freshWord.2.choices = s.choices := rfl
@[simp] theorem State.freshWord_cur (s : State) : s.freshWord.2.cur = s.cur := rfl
@[simp] theorem State.freshWord_cores (s : State) : s.freshWord.2.cores = s.cores := rfl
@[simp] theorem State.freshWord_dies (s : State) : s.freshWord.2.dies = s.dies := rfl
@[simp] theorem State.freshWord_mem (s : State) : s.freshWord.2.mem = s.mem := rfl
@[simp] theorem State.freshWord_poison (s : State) : s.freshWord.2.poison = s.poison := rfl
@[simp] theorem State.freshWord_dirty (s : State) : s.freshWord.2.dirty = s.dirty := rfl
@[simp] theorem State.freshWord_digbase (s : State) : s.freshWord.2.digbase = s.digbase := rfl
@[simp] theorem State.freshWord_regions (s : State) : s.freshWord.2.regions = s.regions := rfl
@[simp] theorem State.freshWord_captured (s : State) : s.freshWord.2.captured = s.captured := rfl
@[simp] theorem State.freshWord_serial (s : State) : s.freshWord.2.serial = s.serial := rfl
@[simp] theorem State.freshWord_digests (s : State) : s.freshWord.2.digests = s.digests := rfl
@[simp] theorem State.freshWord_unsaved (s : State) : s.freshWord.2.unsaved = s.unsaved := rfl
@[simp] theorem State.freshWord_renewed (s : State) : s.freshWord.2.renewed = s.renewed := rfl
@[simp] theorem State.freshWord_released (s : State) : s.freshWord.2.released = s.released := rfl
@[simp] theorem State.freshWord_linked (s : State) : s.freshWord.2.linked = s.linked := rfl
@[simp] theorem State.freshWord_merges (s : State) : s.freshWord.2.merges = s.merges := rfl
@[simp] theorem State.freshWord_ownStores (s : State) : s.freshWord.2.ownStores = s.ownStores := rfl
@[simp] theorem State.freshWord_hostDrops (s : State) : s.freshWord.2.hostDrops = s.hostDrops := rfl
@[simp] theorem State.freshWord_flights (s : State) : s.freshWord.2.flights = s.flights := rfl
@[simp] theorem State.freshWord_mcasts (s : State) : s.freshWord.2.mcasts = s.mcasts := rfl
@[simp] theorem State.freshWord_images (s : State) : s.freshWord.2.images = s.images := rfl
@[simp] theorem State.freshWord_nextLaunch (s : State) : s.freshWord.2.nextLaunch = s.nextLaunch := rfl
@[simp] theorem State.freshWord_launches (s : State) : s.freshWord.2.launches = s.launches := rfl
@[simp] theorem State.freshWord_graphs (s : State) : s.freshWord.2.graphs = s.graphs := rfl
@[simp] theorem State.freshWord_phases (s : State) : s.freshWord.2.phases = s.phases := rfl
@[simp] theorem State.freshWord_jobs (s : State) : s.freshWord.2.jobs = s.jobs := rfl
@[simp] theorem State.freshWord_posted (s : State) : s.freshWord.2.posted = s.posted := rfl
@[simp] theorem State.freshWord_savedReports (s : State) : s.freshWord.2.savedReports = s.savedReports := rfl
@[simp] theorem State.freshWord_hostReads (s : State) : s.freshWord.2.hostReads = s.hostReads := rfl
@[simp] theorem State.freshWord_ctxbase (s : State) : s.freshWord.2.ctxbase = s.ctxbase := rfl
@[simp] theorem State.freshWord_featOff (s : State) : s.freshWord.2.featOff = s.featOff := rfl
@[simp] theorem State.freshWord_featAcc (s : State) : s.freshWord.2.featAcc = s.featAcc := rfl
@[simp] theorem State.freshWord_featBound (s : State) : s.freshWord.2.featBound = s.featBound := rfl
@[simp] theorem State.freshWord_reports (s : State) : s.freshWord.2.reports = s.reports := rfl
@[simp] theorem State.freshWord_trestle (s : State) : s.freshWord.2.trestle = s.trestle := rfl
@[simp] theorem State.freshWord_rings (s : State) : s.freshWord.2.rings = s.rings := rfl
@[simp] theorem State.freshWord_links (s : State) : s.freshWord.2.links = s.links := rfl
@[simp] theorem State.freshWord_drainConfig (s : State) : s.freshWord.2.drainConfig = s.drainConfig := rfl
@[simp] theorem State.freshWord_thermalReports (s : State) : s.freshWord.2.thermalReports = s.thermalReports := rfl

/-! ### freshVec -/

@[simp] theorem State.freshVec_clock (s : State) : s.freshVec.2.clock = s.clock := rfl
@[simp] theorem State.freshVec_inputs (s : State) : s.freshVec.2.inputs = s.inputs := rfl
@[simp] theorem State.freshVec_choices (s : State) : s.freshVec.2.choices = s.choices := rfl
@[simp] theorem State.freshVec_cur (s : State) : s.freshVec.2.cur = s.cur := rfl
@[simp] theorem State.freshVec_cores (s : State) : s.freshVec.2.cores = s.cores := rfl
@[simp] theorem State.freshVec_dies (s : State) : s.freshVec.2.dies = s.dies := rfl
@[simp] theorem State.freshVec_mem (s : State) : s.freshVec.2.mem = s.mem := rfl
@[simp] theorem State.freshVec_poison (s : State) : s.freshVec.2.poison = s.poison := rfl
@[simp] theorem State.freshVec_dirty (s : State) : s.freshVec.2.dirty = s.dirty := rfl
@[simp] theorem State.freshVec_digbase (s : State) : s.freshVec.2.digbase = s.digbase := rfl
@[simp] theorem State.freshVec_regions (s : State) : s.freshVec.2.regions = s.regions := rfl
@[simp] theorem State.freshVec_captured (s : State) : s.freshVec.2.captured = s.captured := rfl
@[simp] theorem State.freshVec_serial (s : State) : s.freshVec.2.serial = s.serial := rfl
@[simp] theorem State.freshVec_digests (s : State) : s.freshVec.2.digests = s.digests := rfl
@[simp] theorem State.freshVec_unsaved (s : State) : s.freshVec.2.unsaved = s.unsaved := rfl
@[simp] theorem State.freshVec_renewed (s : State) : s.freshVec.2.renewed = s.renewed := rfl
@[simp] theorem State.freshVec_released (s : State) : s.freshVec.2.released = s.released := rfl
@[simp] theorem State.freshVec_linked (s : State) : s.freshVec.2.linked = s.linked := rfl
@[simp] theorem State.freshVec_merges (s : State) : s.freshVec.2.merges = s.merges := rfl
@[simp] theorem State.freshVec_ownStores (s : State) : s.freshVec.2.ownStores = s.ownStores := rfl
@[simp] theorem State.freshVec_hostDrops (s : State) : s.freshVec.2.hostDrops = s.hostDrops := rfl
@[simp] theorem State.freshVec_flights (s : State) : s.freshVec.2.flights = s.flights := rfl
@[simp] theorem State.freshVec_mcasts (s : State) : s.freshVec.2.mcasts = s.mcasts := rfl
@[simp] theorem State.freshVec_images (s : State) : s.freshVec.2.images = s.images := rfl
@[simp] theorem State.freshVec_nextLaunch (s : State) : s.freshVec.2.nextLaunch = s.nextLaunch := rfl
@[simp] theorem State.freshVec_launches (s : State) : s.freshVec.2.launches = s.launches := rfl
@[simp] theorem State.freshVec_graphs (s : State) : s.freshVec.2.graphs = s.graphs := rfl
@[simp] theorem State.freshVec_phases (s : State) : s.freshVec.2.phases = s.phases := rfl
@[simp] theorem State.freshVec_jobs (s : State) : s.freshVec.2.jobs = s.jobs := rfl
@[simp] theorem State.freshVec_posted (s : State) : s.freshVec.2.posted = s.posted := rfl
@[simp] theorem State.freshVec_savedReports (s : State) : s.freshVec.2.savedReports = s.savedReports := rfl
@[simp] theorem State.freshVec_hostReads (s : State) : s.freshVec.2.hostReads = s.hostReads := rfl
@[simp] theorem State.freshVec_ctxbase (s : State) : s.freshVec.2.ctxbase = s.ctxbase := rfl
@[simp] theorem State.freshVec_featOff (s : State) : s.freshVec.2.featOff = s.featOff := rfl
@[simp] theorem State.freshVec_featAcc (s : State) : s.freshVec.2.featAcc = s.featAcc := rfl
@[simp] theorem State.freshVec_featBound (s : State) : s.freshVec.2.featBound = s.featBound := rfl
@[simp] theorem State.freshVec_reports (s : State) : s.freshVec.2.reports = s.reports := rfl
@[simp] theorem State.freshVec_trestle (s : State) : s.freshVec.2.trestle = s.trestle := rfl
@[simp] theorem State.freshVec_rings (s : State) : s.freshVec.2.rings = s.rings := rfl
@[simp] theorem State.freshVec_links (s : State) : s.freshVec.2.links = s.links := rfl
@[simp] theorem State.freshVec_drainConfig (s : State) : s.freshVec.2.drainConfig = s.drainConfig := rfl
@[simp] theorem State.freshVec_thermalReports (s : State) : s.freshVec.2.thermalReports = s.thermalReports := rfl

/-! ### nextChoice -/

@[simp] theorem State.nextChoice_clock (s : State) : s.nextChoice.2.clock = s.clock := rfl
@[simp] theorem State.nextChoice_inputs (s : State) : s.nextChoice.2.inputs = s.inputs := rfl
@[simp] theorem State.nextChoice_free (s : State) : s.nextChoice.2.free = s.free := rfl
@[simp] theorem State.nextChoice_cur (s : State) : s.nextChoice.2.cur = s.cur := rfl
@[simp] theorem State.nextChoice_cores (s : State) : s.nextChoice.2.cores = s.cores := rfl
@[simp] theorem State.nextChoice_dies (s : State) : s.nextChoice.2.dies = s.dies := rfl
@[simp] theorem State.nextChoice_mem (s : State) : s.nextChoice.2.mem = s.mem := rfl
@[simp] theorem State.nextChoice_poison (s : State) : s.nextChoice.2.poison = s.poison := rfl
@[simp] theorem State.nextChoice_dirty (s : State) : s.nextChoice.2.dirty = s.dirty := rfl
@[simp] theorem State.nextChoice_digbase (s : State) : s.nextChoice.2.digbase = s.digbase := rfl
@[simp] theorem State.nextChoice_regions (s : State) : s.nextChoice.2.regions = s.regions := rfl
@[simp] theorem State.nextChoice_captured (s : State) : s.nextChoice.2.captured = s.captured := rfl
@[simp] theorem State.nextChoice_serial (s : State) : s.nextChoice.2.serial = s.serial := rfl
@[simp] theorem State.nextChoice_digests (s : State) : s.nextChoice.2.digests = s.digests := rfl
@[simp] theorem State.nextChoice_unsaved (s : State) : s.nextChoice.2.unsaved = s.unsaved := rfl
@[simp] theorem State.nextChoice_renewed (s : State) : s.nextChoice.2.renewed = s.renewed := rfl
@[simp] theorem State.nextChoice_released (s : State) : s.nextChoice.2.released = s.released := rfl
@[simp] theorem State.nextChoice_linked (s : State) : s.nextChoice.2.linked = s.linked := rfl
@[simp] theorem State.nextChoice_merges (s : State) : s.nextChoice.2.merges = s.merges := rfl
@[simp] theorem State.nextChoice_ownStores (s : State) : s.nextChoice.2.ownStores = s.ownStores := rfl
@[simp] theorem State.nextChoice_hostDrops (s : State) : s.nextChoice.2.hostDrops = s.hostDrops := rfl
@[simp] theorem State.nextChoice_flights (s : State) : s.nextChoice.2.flights = s.flights := rfl
@[simp] theorem State.nextChoice_mcasts (s : State) : s.nextChoice.2.mcasts = s.mcasts := rfl
@[simp] theorem State.nextChoice_images (s : State) : s.nextChoice.2.images = s.images := rfl
@[simp] theorem State.nextChoice_nextLaunch (s : State) : s.nextChoice.2.nextLaunch = s.nextLaunch := rfl
@[simp] theorem State.nextChoice_launches (s : State) : s.nextChoice.2.launches = s.launches := rfl
@[simp] theorem State.nextChoice_graphs (s : State) : s.nextChoice.2.graphs = s.graphs := rfl
@[simp] theorem State.nextChoice_phases (s : State) : s.nextChoice.2.phases = s.phases := rfl
@[simp] theorem State.nextChoice_jobs (s : State) : s.nextChoice.2.jobs = s.jobs := rfl
@[simp] theorem State.nextChoice_posted (s : State) : s.nextChoice.2.posted = s.posted := rfl
@[simp] theorem State.nextChoice_savedReports (s : State) : s.nextChoice.2.savedReports = s.savedReports := rfl
@[simp] theorem State.nextChoice_hostReads (s : State) : s.nextChoice.2.hostReads = s.hostReads := rfl
@[simp] theorem State.nextChoice_ctxbase (s : State) : s.nextChoice.2.ctxbase = s.ctxbase := rfl
@[simp] theorem State.nextChoice_featOff (s : State) : s.nextChoice.2.featOff = s.featOff := rfl
@[simp] theorem State.nextChoice_featAcc (s : State) : s.nextChoice.2.featAcc = s.featAcc := rfl
@[simp] theorem State.nextChoice_featBound (s : State) : s.nextChoice.2.featBound = s.featBound := rfl
@[simp] theorem State.nextChoice_reports (s : State) : s.nextChoice.2.reports = s.reports := rfl
@[simp] theorem State.nextChoice_trestle (s : State) : s.nextChoice.2.trestle = s.trestle := rfl
@[simp] theorem State.nextChoice_rings (s : State) : s.nextChoice.2.rings = s.rings := rfl
@[simp] theorem State.nextChoice_links (s : State) : s.nextChoice.2.links = s.links := rfl
@[simp] theorem State.nextChoice_drainConfig (s : State) : s.nextChoice.2.drainConfig = s.drainConfig := rfl
@[simp] theorem State.nextChoice_thermalReports (s : State) : s.nextChoice.2.thermalReports = s.thermalReports := rfl

/-! ### Tables read after they are written -/

@[simp] theorem State.core_setCore (s : State) (c : Nat) (k : Core) : (s.setCore c k).core c = k := by
  simp [State.core, State.setCore]

theorem State.core_setCore_ne (s : State) {c d : Nat} (k : Core) (h : d ≠ c) : (s.setCore c k).core d = s.core d := by
  simp [State.core, State.setCore, mapGet_insert_ne _ _ _ h]

@[simp] theorem State.core_modCore (s : State) (c : Nat) (f : Core → Core) : (s.modCore c f).core c = f (s.core c) := by
  simp [State.modCore]

theorem State.core_modCore_ne (s : State) {c d : Nat} (f : Core → Core) (h : d ≠ c) : (s.modCore c f).core d = s.core d :=
  State.core_setCore_ne s _ h

@[simp] theorem Core.seq_setSeq (k : Core) (q : Nat) (x : Seq) : (k.setSeq q x).seq q = x := by
  simp [Core.seq, Core.setSeq]

theorem Core.seq_setSeq_ne (k : Core) {q r : Nat} (x : Seq) (h : r ≠ q) : (k.setSeq q x).seq r = k.seq r := by
  simp [Core.seq, Core.setSeq, mapGet_insert_ne _ _ _ h]

@[simp] theorem State.seq_setSeq (s : State) (c q : Nat) (x : Seq) : (s.setSeq c q x).seq c q = x := by
  simp [State.seq, State.setSeq]

theorem State.seq_setSeq_ne (s : State) {c q d r : Nat} (x : Seq) (h : d ≠ c ∨ r ≠ q) :
    (s.setSeq c q x).seq d r = s.seq d r := by
  by_cases hd : d = c
  · subst hd
    have hr : r ≠ q := by simpa using h
    simp [State.seq, State.setSeq, Core.seq_setSeq_ne _ _ hr]
  · simp [State.seq, State.setSeq, State.core_setCore_ne _ _ hd]

@[simp] theorem State.seq_modSeq (s : State) (c q : Nat) (f : Seq → Seq) : (s.modSeq c q f).seq c q = f (s.seq c q) := by
  simp [State.modSeq]

theorem State.seq_modSeq_ne (s : State) {c q d r : Nat} (f : Seq → Seq) (h : d ≠ c ∨ r ≠ q) :
    (s.modSeq c q f).seq d r = s.seq d r := State.seq_setSeq_ne s _ h

@[simp] theorem State.me_modMe (s : State) (f : Seq → Seq) : (s.modMe f).me = f s.me := by
  simp [State.me, State.modMe]

@[simp] theorem State.me_setMe (s : State) (x : Seq) : (s.setMe x).me = x := by
  simp [State.me, State.setMe]

@[simp] theorem State.myCore_modMyCore (s : State) (f : Core → Core) : (s.modMyCore f).myCore = f s.myCore := by
  simp [State.myCore, State.modMyCore]

/-- A change of the core that leaves its sequencers leaves the issuing one. -/
theorem State.me_modMyCore (s : State) (f : Core → Core) (h : ∀ k, (f k).seqs = k.seqs) : (s.modMyCore f).me = s.me := by
  simp [State.me, State.modMyCore, State.seq, Core.seq, h, State.core_modCore]

@[simp] theorem State.die_modDie (s : State) (d : Nat) (f : Die → Die) : (s.modDie d f).die d = f (s.die d) := by
  simp [State.die, State.modDie]

@[simp] theorem State.launch_setLaunch (s : State) (id : Nat) (l : Launch) : (s.setLaunch id l).launch id = some l := by
  simp [State.launch, State.setLaunch]

@[simp] theorem State.readByte_writeByte (s : State) (pa : Nat) (b : Byte) : (s.writeByte pa b).readByte pa = b := by
  simp [State.readByte, State.writeByte]

theorem State.readByte_writeByte_ne (s : State) {pa a : Nat} (b : Byte) (h : a ≠ pa) :
    (s.writeByte pa b).readByte a = s.readByte a := by
  simp [State.readByte, State.writeByte, mapGet_set_ne _ _ _ h]

/-! ### Registers -/

@[simp] theorem Seq.sreg_setSreg (x : Seq) (n : Nat) (w : Word) : (x.setSreg n w).sreg n = w := by
  simp [Seq.sreg, Seq.setSreg]

theorem Seq.sreg_setSreg_ne (x : Seq) {n m : Nat} (w : Word) (h : m ≠ n) : (x.setSreg n w).sreg m = x.sreg m := by
  simp [Seq.sreg, Seq.setSreg, mapGet_set_ne _ _ _ h]

@[simp] theorem Seq.vreg_setVreg (x : Seq) (n : Nat) (v : Vec) : (x.setVreg n v).vreg n = v := by
  simp [Seq.vreg, Seq.setVreg]

theorem Seq.vreg_setVreg_ne (x : Seq) {n m : Nat} (v : Vec) (h : m ≠ n) : (x.setVreg n v).vreg m = x.vreg m := by
  simp [Seq.vreg, Seq.setVreg, mapGet_set_ne _ _ _ h]

/-- p0 reads as all ones whatever is written (R11). -/
@[simp] theorem Seq.preg_zero (x : Seq) : x.preg 0 = Word.ones := rfl

theorem Seq.preg_setPreg (x : Seq) {n : Nat} (w : Word) (h : n ≠ 0) : (x.setPreg n w).preg n = w := by
  simp [Seq.preg, Seq.setPreg, pregIn, h]

theorem Seq.preg_setPreg_ne (x : Seq) {n m : Nat} (w : Word) (h : m ≠ n) : (x.setPreg n w).preg m = x.preg m := by
  unfold Seq.setPreg
  split
  · rfl
  · simp only [Seq.preg, pregIn]
    split
    · rfl
    · exact mapGet_set_ne _ _ _ h

end Sys2Proof.Machine
end

