-- ==== Sys2Proof/Laws/Memory.lean ====
section
/-! SUPPORT. What a merge does: the bytes it writes, what it leaves, and that memory stays canonical (R107, R209). -/
namespace Sys2Proof.Machine

/-! ### Writing bytes -/

theorem State.writeMem_cur (s : State) (pa : Nat) (bs : List (Option Byte)) : (s.writeMem pa bs).cur = s.cur := by
  induction bs generalizing s pa with
  | nil => rfl
  | cons b bs ih => cases b <;> simp [State.writeMem, ih]

theorem State.writeMem_cores (s : State) (pa : Nat) (bs : List (Option Byte)) : (s.writeMem pa bs).cores = s.cores := by
  induction bs generalizing s pa with
  | nil => rfl
  | cons b bs ih => cases b <;> simp [State.writeMem, ih]

theorem State.writeMem_wf (s : State) (pa : Nat) (bs : List (Option Byte)) (h : mapWf 0 s.mem = true) :
    mapWf 0 (s.writeMem pa bs).mem = true := by
  induction bs generalizing s pa with
  | nil => exact h
  | cons b bs ih =>
    cases b with
    | none => exact ih s (pa + 1) h
    | some v => exact ih (s.writeByte pa v) (pa + 1) (mapWf_set 0 v s.mem pa h)

/-- The byte that a write leaves at `a`: the one written there, or the one that stood there. -/
def written (pa : Nat) (bs : List (Option Byte)) (a : Nat) : Option Byte := if pa ≤ a then (bs[a - pa]?).join else none

theorem State.readByte_writeMem (s : State) (pa : Nat) (bs : List (Option Byte)) (a : Nat) :
    (s.writeMem pa bs).readByte a = (written pa bs a).getD (s.readByte a) := by
  induction bs generalizing s pa with
  | nil => simp [State.writeMem, written]
  | cons b bs ih =>
    have hs : (s.writeMem pa (b :: bs)).readByte a =
        (written (pa + 1) bs a).getD ((match b with | some v => s.writeByte pa v | none => s).readByte a) := by
      cases b <;> simp only [State.writeMem, ih]
    rw [hs]
    by_cases hle : pa + 1 ≤ a
    · have h1 : pa ≤ a := by omega
      have h2 : a - pa = (a - (pa + 1)) + 1 := by omega
      have hne : a ≠ pa := by omega
      cases b <;> simp [written, hle, h1, h2, State.readByte_writeByte_ne _ _ hne]
    · by_cases heq : a = pa
      · subst heq
        cases b <;> simp [written]
      · have h1 : ¬ pa ≤ a := by omega
        cases b <;> simp [written, hle, h1, State.readByte_writeByte_ne _ _ heq]

/-! ### A fold keeps what each step keeps -/

theorem foldl_keeps {α σ : Type} (p : σ → Prop) (f : σ → α → σ) (h : ∀ s x, p s → p (f s x)) (l : List α) (s : σ) (hs : p s) :
    p (l.foldl f s) := by
  induction l generalizing s with
  | nil => exact hs
  | cons x l ih => exact ih (f s x) (h s x hs)

theorem foldl_same {α σ β : Type} (g : σ → β) (f : σ → α → σ) (h : ∀ s x, g (f s x) = g s) (l : List α) (s : σ) :
    g (l.foldl f s) = g s := by
  induction l generalizing s with
  | nil => rfl
  | cons x l ih => rw [List.foldl_cons, ih, h]

/-! ### Parts of a merge -/

@[simp] theorem State.dropSigs_mem (s : State) (pa : Nat) (bs : List (Option Byte)) : (s.dropSigs pa bs).mem = s.mem := by
  unfold State.dropSigs; dsimp only; split <;> simp [State.setSigEntries]

@[simp] theorem State.dropSigs_cur (s : State) (pa : Nat) (bs : List (Option Byte)) : (s.dropSigs pa bs).cur = s.cur := by
  unfold State.dropSigs; dsimp only; split <;> simp [State.setSigEntries]

@[simp] theorem State.dropSigs_cores (s : State) (pa : Nat) (bs : List (Option Byte)) : (s.dropSigs pa bs).cores = s.cores := by
  unfold State.dropSigs; dsimp only; split <;> simp [State.setSigEntries]

@[simp] theorem State.setSig_mem (s : State) (pa : Nat) (g : BitVec 1024) (r : Release) : (s.setSig pa g r).mem = s.mem := by
  simp [State.setSig, State.setSigEntries]

@[simp] theorem State.touchSig_mem (s : State) (pa : Nat) : (s.touchSig pa).mem = s.mem := by
  unfold State.touchSig; split <;> simp [State.setSigEntries]

@[simp] theorem State.mergeDigest_mem (s : State) (pa : Nat) : (s.mergeDigest pa).mem = s.mem := by
  unfold State.mergeDigest; split <;> simp

@[simp] theorem State.mergeDigest_cur (s : State) (pa : Nat) : (s.mergeDigest pa).cur = s.cur := by
  unfold State.mergeDigest; split <;> simp

@[simp] theorem State.mergeDigest_cores (s : State) (pa : Nat) : (s.mergeDigest pa).cores = s.cores := by
  unfold State.mergeDigest; split <;> simp

@[simp] theorem State.spoilRecords_mem (s : State) (pa : Nat) (bs : List (Option Byte)) : (s.spoilRecords pa bs).mem = s.mem :=
  foldl_same State.mem _ (by intros; simp) _ _

@[simp] theorem State.spoilRecords_cur (s : State) (pa : Nat) (bs : List (Option Byte)) : (s.spoilRecords pa bs).cur = s.cur :=
  foldl_same State.cur _ (by intros; simp) _ _

@[simp] theorem State.spoilRecords_cores (s : State) (pa : Nat) (bs : List (Option Byte)) : (s.spoilRecords pa bs).cores = s.cores :=
  foldl_same State.cores _ (by intros; simp) _ _

/-! ### A merge at the home slice -/

/-- A use of a line at its home is noted for the residency ways alone (R305). -/
@[simp] theorem State.homeUse_mem (s : State) (pa : Nat) : (s.homeUse pa).mem = s.mem := by
  unfold State.homeUse; split <;> simp

@[simp] theorem State.homeUse_cur (s : State) (pa : Nat) : (s.homeUse pa).cur = s.cur := by
  unfold State.homeUse; split <;> simp

@[simp] theorem State.homeUse_cores (s : State) (pa : Nat) : (s.homeUse pa).cores = s.cores := by
  unfold State.homeUse; split <;> simp

/-- A merge writes its bytes and no other. -/
theorem State.readByte_mergeHome (s : State) (pa : Nat) (bs : List (Option Byte)) (a : Nat) :
    (s.mergeHome pa bs).readByte a = (written pa bs a).getD (s.readByte a) := by
  unfold State.mergeHome
  split
  · have h := State.readByte_writeMem (s.homeUse pa) pa bs a
    simp only [State.readByte, State.spoilRecords_mem, State.mergeDigest_mem, State.dropSigs_mem, State.homeUse_mem] at h ⊢
    exact h
  · rename_i h
    have hn : written pa bs a = none := by
      unfold written
      split
      · rcases hb : bs[a - pa]? with _ | b
        · rfl
        · rcases b with _ | b
          · rfl
          · exact absurd (List.any_eq_true.mpr ⟨some b, List.mem_of_getElem? hb, rfl⟩) h
      · rfl
    simp [hn]

@[simp] theorem State.mergeHome_cur (s : State) (pa : Nat) (bs : List (Option Byte)) : (s.mergeHome pa bs).cur = s.cur := by
  unfold State.mergeHome; split <;> simp [State.writeMem_cur]

@[simp] theorem State.mergeHome_cores (s : State) (pa : Nat) (bs : List (Option Byte)) : (s.mergeHome pa bs).cores = s.cores := by
  unfold State.mergeHome; split <;> simp [State.writeMem_cores]

theorem State.mergeHome_wf (s : State) (pa : Nat) (bs : List (Option Byte)) (h : mapWf 0 s.mem = true) :
    mapWf 0 (s.mergeHome pa bs).mem = true := by
  unfold State.mergeHome
  split
  · simp only [State.spoilRecords_mem, State.mergeDigest_mem, State.dropSigs_mem]
    exact State.writeMem_wf (s.homeUse pa) pa bs (by simpa using h)
  · exact h

@[simp] theorem State.mergeRun_cur (s : State) (pa : Nat) (bs : List Byte) : (s.mergeRun pa bs).cur = s.cur :=
  foldl_same State.cur _ (by intros; simp) _ _

@[simp] theorem State.mergeRun_cores (s : State) (pa : Nat) (bs : List Byte) : (s.mergeRun pa bs).cores = s.cores :=
  foldl_same State.cores _ (by intros; simp) _ _

theorem State.mergeRun_wf (s : State) (pa : Nat) (bs : List Byte) (h : mapWf 0 s.mem = true) :
    mapWf 0 (s.mergeRun pa bs).mem = true :=
  foldl_keeps (fun s : State => mapWf 0 s.mem = true) _ (fun s e hs => State.mergeHome_wf s e.1 e.2 hs) _ _ h

/-! ### A store of a core -/

@[simp] theorem State.dropRemote_mem (s : State) (d pa : Nat) : (s.dropRemote d pa).mem = s.mem := by
  simp [State.dropRemote]

/-- A core's store writes its bytes and no other. -/
theorem State.readByte_mergeFrom (s : State) (c pa : Nat) (bs : List (Option Byte)) (a : Nat) :
    (s.mergeFrom c pa bs).readByte a = (written pa bs a).getD (s.readByte a) := by
  have h := State.readByte_mergeHome s pa bs a
  simp only [State.readByte, State.mergeFrom, State.dropRemote_mem, State.modCore_mem] at h ⊢
  exact h

theorem State.mergeFrom_wf (s : State) (c pa : Nat) (bs : List (Option Byte)) (h : mapWf 0 s.mem = true) :
    mapWf 0 (s.mergeFrom c pa bs).mem = true := by
  simpa only [State.mergeFrom, State.dropRemote_mem, State.modCore_mem] using State.mergeHome_wf s pa bs h

end Sys2Proof.Machine
end

