-- ==== Sys2Proof/Laws/Slots.lean ====
section
/-! SUPPORT. What one slot can do: once and for all outcomes, sources and guards. -/
namespace Sys2Proof.Machine

/-! ### The outcomes of a slot (R65, R66) -/

theorem runSlot_ok {m : Sem} {s t : State} (hl : s.cur.live = true) (hm : m s = .ok t) (ht : t.cur.live = true) :
    runSlot m s = .next t.slotDone := by
  simp [runSlot, slotStep, hl, hm, ht]

theorem runSlot_ended {m : Sem} {s t : State} (hl : s.cur.live = true) (hm : m s = .ok t) (ht : t.cur.live = false) :
    runSlot m s = .next t := by
  simp [runSlot, slotStep, hl, hm, ht]

theorem runSlot_trap {m : Sem} {s t : State} {c : Cause} {a : Word} {h : Option HeadRecord} (hl : s.cur.live = true)
    (hm : m s = .trap c a h t) :
    runSlot m s = .next ((s.unread t).takeTrap (s.unread t).cur.core (s.unread t).cur.q c (s.unread t).cur.slot a h false
      (s.unread t).cur.addr).endIssue := by
  simp [runSlot, slotStep, hl, hm]

theorem runSlot_freeze {m : Sem} {s : State} {h : Hold} (hl : s.cur.live = true) (hm : m s = .freeze h) :
    runSlot m s = .next (s.holdAt h false) := by
  simp [runSlot, slotStep, hl, hm]

theorem runSlot_wait {m : Sem} {s t : State} {h : Hold} (hl : s.cur.live = true) (hm : m s = .wait h t) :
    runSlot m s = .next ((s.unread t).holdAt h true) := by
  simp [runSlot, slotStep, hl, hm]

theorem runSlot_over {m : Sem} {s : State} (hl : s.cur.live = false) : runSlot m s = .next s := by
  simp [runSlot, slotStep, hl]

/-! ### Triggers of the three classes (R55) -/

theorem trigS_on {g : BitVec 7} {a : BitVec 12} {f : Word → Sem} {s t : State} {v : Value}
    (hg : (s.guardMask g).getLsbD 0 = true) (hr : readSrc a .s s = .val v t) : trigS g a f s = f v.toS t := by
  simp [trigS, guardedS, hg, hr, SrcRes.bind]

theorem trigS_off {g : BitVec 7} {a : BitVec 12} {f : Word → Sem} {s : State} (hg : (s.guardMask g).getLsbD 0 = false) :
    trigS g a f s = .ok s := by
  simp only [trigS, guardedS, hg, Bool.false_eq_true, if_false]

theorem trigS_trap {g : BitVec 7} {a : BitVec 12} {f : Word → Sem} {s t : State} {c : Cause} {w : Word} {h : Option HeadRecord}
    (hg : (s.guardMask g).getLsbD 0 = true) (hr : readSrc a .s s = .trap c w h t) :
    trigS g a f s = (f Value.zero.toS t).roomOr (.trap c w h t) := by
  simp [trigS, guardedS, hg, hr, SrcRes.bind]

/-- Without room the bundle freezes before a slot's trap or wait; with room a trigger that looks for it first never does. -/
theorem withStoreRoom_roomOr (s : State) (f r : SlotRes) :
    (withStoreRoom s f).roomOr r = if s.me.stores.length < Config.queueEntries then f.roomOr r else .freeze .storeRoom := by
  unfold withStoreRoom; split <;> rfl

/-- Nothing but a pop of the count queue asks the guard before its source is read. -/
theorem guardedPop_on {g : BitVec 7} {a : BitVec 12} {s : State} (f : SlotRes)
    (h : a = 0x0AC → (s.guardMask g).getLsbD 0 = true) : guardedPop g a s f = f := by
  unfold guardedPop
  split
  · rw [guardedS, if_pos (h ‹_›)]
  · rfl

theorem guardedPop_off {g : BitVec 7} {s : State} (f : SlotRes) (h : (s.guardMask g).getLsbD 0 = false) :
    guardedPop g 0x0AC s f = .ok s := by
  rw [guardedPop, if_pos rfl, guardedS, h]; rfl

theorem trigV_on {g : BitVec 7} {a : BitVec 12} {f : Word → Vec → Sem} {s t : State} {v : Value}
    (hp : a = 0x0AC → (s.guardMask g).getLsbD 0 = true) (hr : readSrc a .v s = .val v t) :
    trigV g a f s = f (s.guardMask g) v.toV t := by
  rw [trigV, guardedPop_on _ hp, hr]; rfl

theorem trigP_on {g : BitVec 7} {a : BitVec 12} {f : Word → Word → Sem} {s t : State} {v : Value}
    (hp : a = 0x0AC → (s.guardMask g).getLsbD 0 = true) (hr : readSrc a .p s = .val v t) :
    trigP g a f s = f (s.guardMask g) v.toP t := by
  rw [trigP, guardedPop_on _ hp, hr]; rfl

/-! ### The trace leaves the issue, and with recording off everything, as it was (R276) -/

theorem State.traceRec_off {s : State} {c q : Nat} (ws : List Nat) (h : (s.seq c q).traceOn = false) : s.traceRec c q ws = s := by
  simp [State.traceRec, h]

theorem State.traceValue_off {s : State} {c q : Nat} (v : Value) (h : (s.seq c q).traceOn = false) : s.traceValue c q v = s := by
  unfold State.traceValue
  split
  · exact State.traceRec_off _ h
  · rfl

@[simp] theorem State.tracePut_cur (s : State) (c q off w : Nat) : (s.tracePut c q off w).cur = s.cur := by
  unfold State.tracePut; dsimp only; split <;> simp

@[simp] theorem State.tracePuts_cur (s : State) (c q off : Nat) (ws : List Nat) : (s.tracePuts c q off ws).cur = s.cur := by
  unfold State.tracePuts
  simpa using foldl_same State.cur _ (by intros; simp) _ _

@[simp] theorem State.traceRaw_cur (s : State) (c q : Nat) (ws : List Nat) : (s.traceRaw c q ws).cur = s.cur := by
  unfold State.traceRaw; dsimp only; (repeat' split) <;> simp

@[simp] theorem State.traceFlush_cur (s : State) (c q : Nat) : (s.traceFlush c q).cur = s.cur := by
  unfold State.traceFlush; dsimp only; split <;> simp

@[simp] theorem State.traceRec_cur (s : State) (c q : Nat) (ws : List Nat) : (s.traceRec c q ws).cur = s.cur := by
  unfold State.traceRec; split <;> simp

@[simp] theorem State.traceValue_cur (s : State) (c q : Nat) (v : Value) : (s.traceValue c q v).cur = s.cur := by
  unfold State.traceValue; dsimp only; split <;> simp

@[simp] theorem State.noteCircuit_cur (s : State) : s.noteCircuit.cur = s.cur := by
  unfold State.noteCircuit; split <;> simp

@[simp] theorem State.freshOf_cur (s : State) (c : Cls) : (s.freshOf c).2.cur = s.cur := by
  cases c <;> rfl

/-! ### Reading a source leaves the issue as it was, but for the pop it notes -/

theorem readPort_cur {p : Port} {s t : State} {v : Value} (h : readPort p s = .val v t) : t.cur = s.cur := by
  unfold readPort at h
  dsimp only at h
  split at h
  · split at h
    · cases h; rfl
    · cases h
  · split at h
    · cases h; simp
    · cases h; rfl

theorem readRow_cur {s t : State} {v : Value} (h : readRow s = .val v t) : t.cur = s.cur := by
  unfold readRow at h
  split at h <;> cases h <;> rfl

theorem popLoad_cur {s t : State} {v : Value} (h : popLoad s = .val v t) :
    t.cur = { s.cur with popped := some (0xA9, v) } := by
  unfold popLoad at h
  dsimp only at h
  (repeat' split at h) <;> cases h
  simp [State.took]

theorem popCircuit_cur {s t : State} {v : Value} (h : popCircuit s = .val v t) :
    t.cur = { s.cur with popped := some (0xAA, v), taken := t.cur.taken, takenAt := t.cur.takenAt } := by
  unfold popCircuit at h
  dsimp only at h
  (repeat' split at h) <;> cases h
  simp [State.took]

theorem popCount1_cur {s t : State} {v : Value} (h : popCount1 s = .val v t) :
    t.cur = { s.cur with popped := some (0xAC, v) } := by
  unfold popCount1 at h
  split at h <;> cases h
  simp [State.took]

/-- The issue of `t` is that of `s` but for the pop that it notes. -/
def State.SameIssue (s t : State) : Prop :=
  t.cur = { s.cur with popped := t.cur.popped, taken := t.cur.taken, takenAt := t.cur.takenAt }

theorem State.SameIssue.of_eq {s t : State} (h : t.cur = s.cur) : s.SameIssue t := by
  simp [State.SameIssue, h]

theorem State.SameIssue.of_pop {s t : State} {p : Option (Nat × Value)} (h : t.cur = { s.cur with popped := p }) :
    s.SameIssue t := by
  simp [State.SameIssue, h]

theorem State.SameIssue.of_circuit {s t : State} {p : Option (Nat × Value)} {g : Past} {n : Nat}
    (h : t.cur = { s.cur with popped := p, taken := g, takenAt := n }) : s.SameIssue t := by
  simp [State.SameIssue, h]

theorem readSpecial_cur {a : Nat} {c : Cls} {s t : State} {v : Value} (h : readSpecial a c s = .val v t) : s.SameIssue t := by
  unfold readSpecial at h
  dsimp only at h
  split at h <;>
    first
    | exact .of_eq (readPort_cur h)
    | exact .of_eq (readRow_cur h)
    | exact .of_pop (popLoad_cur h)
    | exact .of_circuit (popCircuit_cur h)
    | exact .of_pop (popCount1_cur h)
    | (cases h; exact .of_eq rfl)
    | (split at h <;> cases h; exact .of_eq rfl)

/-- Reading a source leaves the issue as it was, but for the pop it notes. -/
theorem readSrc_cur {a : BitVec 12} {c : Cls} {s t : State} {v : Value} (h : readSrc a c s = .val v t) : s.SameIssue t := by
  unfold readSrc at h
  dsimp only at h
  (repeat' split at h) <;> first | exact readSpecial_cur h | (cases h; exact .of_eq rfl) | cases h

/-! ### The source of a slot that does not commit (R57, R65, R66) -/

/-- A slot whose source was no pop leaves everything as it has come to be. -/
theorem State.unread_none {s t : State} (h : t.cur.popped = none) : s.unread t = t := by
  simp only [State.unread, h]

/-- The load queue has its head again, before what the slot itself has put in, and the predicates are as they were. -/
theorem State.unread_load {s t : State} {v : Value} (h : t.cur.popped = some (0xA9, v)) :
    s.unread t = t.unnoted.modMe fun x =>
      { x.setLoadQueue (s.me.loadQueue ++ x.loadQueue.drop (s.me.loadQueue.length - 1)) with pregs := s.me.pregs } := by
  simp [State.unread, h]

/-- The circuit receive queue has its head again. -/
theorem State.unread_circuit {s t : State} {v : Value} (h : t.cur.popped = some (0xAA, v)) :
    s.unread t = t.unnoted.modMyCore fun k => { k with circuit := s.myCore.circuit } := by
  simp [State.unread, h]

/-- The count queue has its head again. -/
theorem State.unread_count {s t : State} {v : Value} (h : t.cur.popped = some (0xAC, v)) :
    s.unread t = t.unnoted.modMe fun x => { x with countQueue := s.me.countQueue } := by
  simp [State.unread, h]

end Sys2Proof.Machine
end

