-- ==== Sys2Proof/Laws/Access.lean ====
section
/-! SUPPORT. What the checks of an access answer (R99, R100, R103), and what a trigger adds to a queue (R96). -/
namespace Sys2Proof.Machine

theorem checkOne_at {s : State} {r : Right} {va n : Nat} {f : Loc → SlotRes} {l : Loc} (ha : va % n = 0)
    (h : s.resolve s.cur.core s.cur.q r va = .at l) : checkOne s r va n f = f l := by
  simp [checkOne, checkAll, ha, h]

theorem checkOne_misaligned {s : State} {r : Right} {va n : Nat} {f : Loc → SlotRes} (ha : va % n ≠ 0) :
    checkOne s r va n f = .trap .misaligned (BitVec.ofNat 64 va) none s := by
  simp [checkOne, ha]

theorem checkOne_miss {s : State} {r : Right} {va n : Nat} {f : Loc → SlotRes} (ha : va % n = 0)
    (h : s.resolve s.cur.core s.cur.q r va = .miss) :
    checkOne s r va n f = .freeze (.walk s.me.asid (va / 65536 * 65536)) := by
  simp [checkOne, checkAll, ha, h]

/-- Entries that the load queue in force holds at most (R96, R100). -/
def Seq.loadLimit (x : Seq) : Nat := if x.handler then Config.handlerEntries else Config.queueEntries

theorem withLoadRoom_room {s : State} {f : SlotRes} (h : s.me.loadQueue.length < s.me.loadLimit) : withLoadRoom s f = f := by
  unfold withLoadRoom
  unfold Seq.loadQueue Seq.loadLimit at h
  by_cases hh : s.me.handler = true <;> simp [hh] at h ⊢ <;> omega

theorem withLoadRoom_full {s : State} {f : SlotRes} (h : ¬ s.me.loadQueue.length < s.me.loadLimit) :
    withLoadRoom s f = .plain .loopOverflow s := by
  unfold withLoadRoom
  unfold Seq.loadQueue Seq.loadLimit at h
  by_cases hh : s.me.handler = true <;> simp [hh] at h ⊢ <;> omega

theorem withStoreRoom_room {s : State} {f : SlotRes} (h : s.me.stores.length < Config.queueEntries) : withStoreRoom s f = f := by
  simp [withStoreRoom, h]

theorem withStoreRoom_full {s : State} {f : SlotRes} (h : ¬ s.me.stores.length < Config.queueEntries) :
    withStoreRoom s f = .freeze .storeRoom := by
  simp [withStoreRoom, h]

theorem withStamp_ok {s : State} {va : Nat} {ls : List Loc} {f : Option StampCheck → SlotRes}
    (h : s.me.ports.lqb.getLsbD 16 = true → ls.all s.inRegion = true) :
    withStamp s va ls f = f (stampCheckOf s.me.ports.lqb) := by
  unfold withStamp stampCheckOf
  by_cases hb : s.me.ports.lqb.getLsbD 16 = true
  · simp only [hb, if_true, h hb]
  · simp only [hb, Bool.false_eq_true, if_false]

@[simp] theorem State.enterLoad_cur (s : State) (e : LoadEntry) : (s.enterLoad e).cur = s.cur := by simp [State.enterLoad]
@[simp] theorem State.enterLoad_mem (s : State) (e : LoadEntry) : (s.enterLoad e).mem = s.mem := by simp [State.enterLoad]
@[simp] theorem State.addLoad_cur (s : State) (k : LoadKind) (c : Cls) (ps : List Part) (x : Option StampCheck) :
    (s.addLoad k c ps x).cur = s.cur := by simp [State.addLoad]
@[simp] theorem State.addStore_cur (s : State) (k : StoreKind) (ps : List StorePart) : (s.addStore k ps).cur = s.cur := by
  simp [State.addStore]
@[simp] theorem State.addStore_mem (s : State) (k : StoreKind) (ps : List StorePart) : (s.addStore k ps).mem = s.mem := by
  simp [State.addStore]
@[simp] theorem State.signLocs_cur (s : State) (ls : List Loc) : (s.signLocs ls).cur = s.cur := by simp [State.signLocs]
@[simp] theorem State.signLocs_mem (s : State) (ls : List Loc) : (s.signLocs ls).mem = s.mem := by simp [State.signLocs]
@[simp] theorem State.marker_cur (s : State) : s.marker.cur = s.cur := by simp [State.marker]
@[simp] theorem State.addFlags_cur (s : State) (f : Flags) : (s.addFlags f).cur = s.cur := by simp [State.addFlags]
@[simp] theorem State.pushRes_cur (s : State) (f : (Port → Port) → ResPorts → ResPorts) (l : Nat) (v : Value) :
    (s.pushRes f l v).cur = s.cur := by simp [State.pushRes]
@[simp] theorem State.pushVxr_cur (s : State) (l : Nat) (v : Vec) : (s.pushVxr l v).cur = s.cur := by simp [State.pushVxr]
@[simp] theorem State.pushVxm_cur (s : State) (l : Nat) (w : Word) : (s.pushVxm l w).cur = s.cur := by simp [State.pushVxm]
@[simp] theorem State.pushVxs_cur (s : State) (l : Nat) (w : Word) : (s.pushVxs l w).cur = s.cur := by simp [State.pushVxs]

end Sys2Proof.Machine
end

