-- ==== Sys2Proof/Laws/Exec.lean ====
section
/-! SUPPORT. The arm of each slot instruction, and of each other step: what `exec` answers, by its meaning. -/
namespace Sys2Proof.Machine

@[simp] theorem exec_move (g : BitVec 7) (d : BitVec 11) (src : BitVec 12) (state : State) : exec (.move g d src) state = runSlot (semMove g d src) state := rfl
@[simp] theorem exec_wideImmediateMove (d : BitVec 11) (imm : BitVec 19) (state : State) : exec (.wideImmediateMove d imm) state = runSlot (semWideImmediateMove d imm) state := rfl
@[simp] theorem exec_header (nm : BitVec 1) (e1 : BitVec 1) (e2 : BitVec 1) (e3 : BitVec 1) (x1 : BitVec 8) (x2 : BitVec 8) (x3 : BitVec 8) (state : State) : exec (.header nm e1 e2 e3 x1 x2 x3) state = runSlot (semHeader nm e1 e2 e3 x1 x2 x3) state := rfl
@[simp] theorem exec_lqPop (g : BitVec 7) (d : BitVec 11) (state : State) : exec (.lqPop g d) state = runSlot (semLqPop g d) state := rfl
@[simp] theorem exec_cxPop (g : BitVec 7) (d : BitVec 11) (state : State) : exec (.cxPop g d) state = runSlot (semCxPop g d) state := rfl
@[simp] theorem exec_cqPop (g : BitVec 7) (d : BitVec 11) (state : State) : exec (.cqPop g d) state = runSlot (semCqPop g d) state := rfl
@[simp] theorem exec_cqPush (g : BitVec 7) (src : BitVec 12) (state : State) : exec (.cqPush g src) state = runSlot (semCqPush g src) state := rfl
@[simp] theorem exec_iaAdd (g : BitVec 7) (u : BitVec 1) (src : BitVec 12) (state : State) : exec (.iaAdd g u src) state = runSlot (semIaAdd g u src) state := rfl
@[simp] theorem exec_iaSub (g : BitVec 7) (u : BitVec 1) (src : BitVec 12) (state : State) : exec (.iaSub g u src) state = runSlot (semIaSub g u src) state := rfl
@[simp] theorem exec_iaAnd (g : BitVec 7) (u : BitVec 1) (src : BitVec 12) (state : State) : exec (.iaAnd g u src) state = runSlot (semIaAnd g u src) state := rfl
@[simp] theorem exec_iaOr (g : BitVec 7) (u : BitVec 1) (src : BitVec 12) (state : State) : exec (.iaOr g u src) state = runSlot (semIaOr g u src) state := rfl
@[simp] theorem exec_iaXor (g : BitVec 7) (u : BitVec 1) (src : BitVec 12) (state : State) : exec (.iaXor g u src) state = runSlot (semIaXor g u src) state := rfl
@[simp] theorem exec_iaAndn (g : BitVec 7) (u : BitVec 1) (src : BitVec 12) (state : State) : exec (.iaAndn g u src) state = runSlot (semIaAndn g u src) state := rfl
@[simp] theorem exec_iaShl (g : BitVec 7) (u : BitVec 1) (src : BitVec 12) (state : State) : exec (.iaShl g u src) state = runSlot (semIaShl g u src) state := rfl
@[simp] theorem exec_iaShr (g : BitVec 7) (u : BitVec 1) (src : BitVec 12) (state : State) : exec (.iaShr g u src) state = runSlot (semIaShr g u src) state := rfl
@[simp] theorem exec_iaSar (g : BitVec 7) (u : BitVec 1) (src : BitVec 12) (state : State) : exec (.iaSar g u src) state = runSlot (semIaSar g u src) state := rfl
@[simp] theorem exec_iaRotr (g : BitVec 7) (u : BitVec 1) (src : BitVec 12) (state : State) : exec (.iaRotr g u src) state = runSlot (semIaRotr g u src) state := rfl
@[simp] theorem exec_iaMin (g : BitVec 7) (u : BitVec 1) (src : BitVec 12) (state : State) : exec (.iaMin g u src) state = runSlot (semIaMin g u src) state := rfl
@[simp] theorem exec_iaMax (g : BitVec 7) (u : BitVec 1) (src : BitVec 12) (state : State) : exec (.iaMax g u src) state = runSlot (semIaMax g u src) state := rfl
@[simp] theorem exec_iaMinn (g : BitVec 7) (u : BitVec 1) (src : BitVec 12) (state : State) : exec (.iaMinn g u src) state = runSlot (semIaMinn g u src) state := rfl
@[simp] theorem exec_iaMaxn (g : BitVec 7) (u : BitVec 1) (src : BitVec 12) (state : State) : exec (.iaMaxn g u src) state = runSlot (semIaMaxn g u src) state := rfl
@[simp] theorem exec_iaCmpeq (g : BitVec 7) (u : BitVec 1) (src : BitVec 12) (state : State) : exec (.iaCmpeq g u src) state = runSlot (semIaCmpeq g u src) state := rfl
@[simp] theorem exec_iaCmpne (g : BitVec 7) (u : BitVec 1) (src : BitVec 12) (state : State) : exec (.iaCmpne g u src) state = runSlot (semIaCmpne g u src) state := rfl
@[simp] theorem exec_iaCmplt (g : BitVec 7) (u : BitVec 1) (src : BitVec 12) (state : State) : exec (.iaCmplt g u src) state = runSlot (semIaCmplt g u src) state := rfl
@[simp] theorem exec_iaCmple (g : BitVec 7) (u : BitVec 1) (src : BitVec 12) (state : State) : exec (.iaCmple g u src) state = runSlot (semIaCmple g u src) state := rfl
@[simp] theorem exec_iaCmpltn (g : BitVec 7) (u : BitVec 1) (src : BitVec 12) (state : State) : exec (.iaCmpltn g u src) state = runSlot (semIaCmpltn g u src) state := rfl
@[simp] theorem exec_iaCmplen (g : BitVec 7) (u : BitVec 1) (src : BitVec 12) (state : State) : exec (.iaCmplen g u src) state = runSlot (semIaCmplen g u src) state := rfl
@[simp] theorem exec_iaClz (g : BitVec 7) (u : BitVec 1) (src : BitVec 12) (state : State) : exec (.iaClz g u src) state = runSlot (semIaClz g u src) state := rfl
@[simp] theorem exec_iaCtz (g : BitVec 7) (u : BitVec 1) (src : BitVec 12) (state : State) : exec (.iaCtz g u src) state = runSlot (semIaCtz g u src) state := rfl
@[simp] theorem exec_iaPopc (g : BitVec 7) (u : BitVec 1) (src : BitVec 12) (state : State) : exec (.iaPopc g u src) state = runSlot (semIaPopc g u src) state := rfl
@[simp] theorem exec_iaSext (g : BitVec 7) (u : BitVec 1) (src : BitVec 12) (state : State) : exec (.iaSext g u src) state = runSlot (semIaSext g u src) state := rfl
@[simp] theorem exec_iaZext (g : BitVec 7) (u : BitVec 1) (src : BitVec 12) (state : State) : exec (.iaZext g u src) state = runSlot (semIaZext g u src) state := rfl
@[simp] theorem exec_imMul (g : BitVec 7) (src : BitVec 12) (state : State) : exec (.imMul g src) state = runSlot (semImMul g src) state := rfl
@[simp] theorem exec_imMulhi (g : BitVec 7) (src : BitVec 12) (state : State) : exec (.imMulhi g src) state = runSlot (semImMulhi g src) state := rfl
@[simp] theorem exec_imMulhn (g : BitVec 7) (src : BitVec 12) (state : State) : exec (.imMulhn g src) state = runSlot (semImMulhn g src) state := rfl
@[simp] theorem exec_imDiv (g : BitVec 7) (src : BitVec 12) (state : State) : exec (.imDiv g src) state = runSlot (semImDiv g src) state := rfl
@[simp] theorem exec_imDivn (g : BitVec 7) (src : BitVec 12) (state : State) : exec (.imDivn g src) state = runSlot (semImDivn g src) state := rfl
@[simp] theorem exec_imRem (g : BitVec 7) (src : BitVec 12) (state : State) : exec (.imRem g src) state = runSlot (semImRem g src) state := rfl
@[simp] theorem exec_imRemn (g : BitVec 7) (src : BitVec 12) (state : State) : exec (.imRemn g src) state = runSlot (semImRemn g src) state := rfl
@[simp] theorem exec_imMad (g : BitVec 7) (src : BitVec 12) (state : State) : exec (.imMad g src) state = runSlot (semImMad g src) state := rfl
@[simp] theorem exec_plPand (g : BitVec 7) (src : BitVec 12) (state : State) : exec (.plPand g src) state = runSlot (semPlPand g src) state := rfl
@[simp] theorem exec_plPor (g : BitVec 7) (src : BitVec 12) (state : State) : exec (.plPor g src) state = runSlot (semPlPor g src) state := rfl
@[simp] theorem exec_plPxor (g : BitVec 7) (src : BitVec 12) (state : State) : exec (.plPxor g src) state = runSlot (semPlPxor g src) state := rfl
@[simp] theorem exec_plPandn (g : BitVec 7) (src : BitVec 12) (state : State) : exec (.plPandn g src) state = runSlot (semPlPandn g src) state := rfl
@[simp] theorem exec_plPnot (g : BitVec 7) (src : BitVec 12) (state : State) : exec (.plPnot g src) state = runSlot (semPlPnot g src) state := rfl
@[simp] theorem exec_plPall (g : BitVec 7) (src : BitVec 12) (state : State) : exec (.plPall g src) state = runSlot (semPlPall g src) state := rfl
@[simp] theorem exec_plPany (g : BitVec 7) (src : BitVec 12) (state : State) : exec (.plPany g src) state = runSlot (semPlPany g src) state := rfl
@[simp] theorem exec_plPcnt (g : BitVec 7) (src : BitVec 12) (state : State) : exec (.plPcnt g src) state = runSlot (semPlPcnt g src) state := rfl
@[simp] theorem exec_plPfirst (g : BitVec 7) (src : BitVec 12) (state : State) : exec (.plPfirst g src) state = runSlot (semPlPfirst g src) state := rfl
@[simp] theorem exec_plPlt (g : BitVec 7) (src : BitVec 12) (state : State) : exec (.plPlt g src) state = runSlot (semPlPlt g src) state := rfl
@[simp] theorem exec_lqLdb (g : BitVec 7) (src : BitVec 12) (state : State) : exec (.lqLdb g src) state = runSlot (semLqLdb g src) state := rfl
@[simp] theorem exec_lqLdbs (g : BitVec 7) (src : BitVec 12) (state : State) : exec (.lqLdbs g src) state = runSlot (semLqLdbs g src) state := rfl
@[simp] theorem exec_lqLdh (g : BitVec 7) (src : BitVec 12) (state : State) : exec (.lqLdh g src) state = runSlot (semLqLdh g src) state := rfl
@[simp] theorem exec_lqLdhs (g : BitVec 7) (src : BitVec 12) (state : State) : exec (.lqLdhs g src) state = runSlot (semLqLdhs g src) state := rfl
@[simp] theorem exec_lqLdw (g : BitVec 7) (src : BitVec 12) (state : State) : exec (.lqLdw g src) state = runSlot (semLqLdw g src) state := rfl
@[simp] theorem exec_lqLdws (g : BitVec 7) (src : BitVec 12) (state : State) : exec (.lqLdws g src) state = runSlot (semLqLdws g src) state := rfl
@[simp] theorem exec_lqLdd (g : BitVec 7) (src : BitVec 12) (state : State) : exec (.lqLdd g src) state = runSlot (semLqLdd g src) state := rfl
@[simp] theorem exec_lqVld (g : BitVec 7) (src : BitVec 12) (state : State) : exec (.lqVld g src) state = runSlot (semLqVld g src) state := rfl
@[simp] theorem exec_lqVldbf (g : BitVec 7) (src : BitVec 12) (state : State) : exec (.lqVldbf g src) state = runSlot (semLqVldbf g src) state := rfl
@[simp] theorem exec_lqVldhf (g : BitVec 7) (src : BitVec 12) (state : State) : exec (.lqVldhf g src) state = runSlot (semLqVldhf g src) state := rfl
@[simp] theorem exec_lqVldb (g : BitVec 7) (src : BitVec 12) (state : State) : exec (.lqVldb g src) state = runSlot (semLqVldb g src) state := rfl
@[simp] theorem exec_lqGth (g : BitVec 7) (src : BitVec 12) (state : State) : exec (.lqGth g src) state = runSlot (semLqGth g src) state := rfl
@[simp] theorem exec_sqStb (g : BitVec 7) (src : BitVec 12) (state : State) : exec (.sqStb g src) state = runSlot (semSqStb g src) state := rfl
@[simp] theorem exec_sqSth (g : BitVec 7) (src : BitVec 12) (state : State) : exec (.sqSth g src) state = runSlot (semSqSth g src) state := rfl
@[simp] theorem exec_sqStw (g : BitVec 7) (src : BitVec 12) (state : State) : exec (.sqStw g src) state = runSlot (semSqStw g src) state := rfl
@[simp] theorem exec_sqStd (g : BitVec 7) (src : BitVec 12) (state : State) : exec (.sqStd g src) state = runSlot (semSqStd g src) state := rfl
@[simp] theorem exec_sqVst (g : BitVec 7) (src : BitVec 12) (state : State) : exec (.sqVst g src) state = runSlot (semSqVst g src) state := rfl
@[simp] theorem exec_sqVstbf (g : BitVec 7) (src : BitVec 12) (state : State) : exec (.sqVstbf g src) state = runSlot (semSqVstbf g src) state := rfl
@[simp] theorem exec_sqVsthf (g : BitVec 7) (src : BitVec 12) (state : State) : exec (.sqVsthf g src) state = runSlot (semSqVsthf g src) state := rfl
@[simp] theorem exec_sqSct (g : BitVec 7) (src : BitVec 12) (state : State) : exec (.sqSct g src) state = runSlot (semSqSct g src) state := rfl
@[simp] theorem exec_lqMark (g : BitVec 7) (src : BitVec 12) (state : State) : exec (.lqMark g src) state = runSlot (semLqMark g src) state := rfl
@[simp] theorem exec_agSld (g : BitVec 7) (src : BitVec 12) (state : State) : exec (.agSld g src) state = runSlot (semAgSld g src) state := rfl
@[simp] theorem exec_agSst (g : BitVec 7) (src : BitVec 12) (state : State) : exec (.agSst g src) state = runSlot (semAgSst g src) state := rfl
@[simp] theorem exec_agSrld (g : BitVec 7) (src : BitVec 12) (state : State) : exec (.agSrld g src) state = runSlot (semAgSrld g src) state := rfl
@[simp] theorem exec_agSset (g : BitVec 7) (src : BitVec 12) (state : State) : exec (.agSset g src) state = runSlot (semAgSset g src) state := rfl
@[simp] theorem exec_agSadv (g : BitVec 7) (src : BitVec 12) (state : State) : exec (.agSadv g src) state = runSlot (semAgSadv g src) state := rfl
@[simp] theorem exec_agRfence (g : BitVec 7) (src : BitVec 12) (state : State) : exec (.agRfence g src) state = runSlot (semAgRfence g src) state := rfl
@[simp] theorem exec_vxVadd (g : BitVec 7) (src : BitVec 12) (state : State) : exec (.vxVadd g src) state = runSlot (semVxVadd g src) state := rfl
@[simp] theorem exec_vxVsub (g : BitVec 7) (src : BitVec 12) (state : State) : exec (.vxVsub g src) state = runSlot (semVxVsub g src) state := rfl
@[simp] theorem exec_vxVmul (g : BitVec 7) (src : BitVec 12) (state : State) : exec (.vxVmul g src) state = runSlot (semVxVmul g src) state := rfl
@[simp] theorem exec_vxVmulhi (g : BitVec 7) (src : BitVec 12) (state : State) : exec (.vxVmulhi g src) state = runSlot (semVxVmulhi g src) state := rfl
@[simp] theorem exec_vxVmulhn (g : BitVec 7) (src : BitVec 12) (state : State) : exec (.vxVmulhn g src) state = runSlot (semVxVmulhn g src) state := rfl
@[simp] theorem exec_vxVmin (g : BitVec 7) (src : BitVec 12) (state : State) : exec (.vxVmin g src) state = runSlot (semVxVmin g src) state := rfl
@[simp] theorem exec_vxVmax (g : BitVec 7) (src : BitVec 12) (state : State) : exec (.vxVmax g src) state = runSlot (semVxVmax g src) state := rfl
@[simp] theorem exec_vxVminn (g : BitVec 7) (src : BitVec 12) (state : State) : exec (.vxVminn g src) state = runSlot (semVxVminn g src) state := rfl
@[simp] theorem exec_vxVmaxn (g : BitVec 7) (src : BitVec 12) (state : State) : exec (.vxVmaxn g src) state = runSlot (semVxVmaxn g src) state := rfl
@[simp] theorem exec_vxVand (g : BitVec 7) (src : BitVec 12) (state : State) : exec (.vxVand g src) state = runSlot (semVxVand g src) state := rfl
@[simp] theorem exec_vxVor (g : BitVec 7) (src : BitVec 12) (state : State) : exec (.vxVor g src) state = runSlot (semVxVor g src) state := rfl
@[simp] theorem exec_vxVxor (g : BitVec 7) (src : BitVec 12) (state : State) : exec (.vxVxor g src) state = runSlot (semVxVxor g src) state := rfl
@[simp] theorem exec_vxVandn (g : BitVec 7) (src : BitVec 12) (state : State) : exec (.vxVandn g src) state = runSlot (semVxVandn g src) state := rfl
@[simp] theorem exec_vxVshl (g : BitVec 7) (src : BitVec 12) (state : State) : exec (.vxVshl g src) state = runSlot (semVxVshl g src) state := rfl
@[simp] theorem exec_vxVshr (g : BitVec 7) (src : BitVec 12) (state : State) : exec (.vxVshr g src) state = runSlot (semVxVshr g src) state := rfl
@[simp] theorem exec_vxVsar (g : BitVec 7) (src : BitVec 12) (state : State) : exec (.vxVsar g src) state = runSlot (semVxVsar g src) state := rfl
@[simp] theorem exec_vxVabs (g : BitVec 7) (src : BitVec 12) (state : State) : exec (.vxVabs g src) state = runSlot (semVxVabs g src) state := rfl
@[simp] theorem exec_vxVneg (g : BitVec 7) (src : BitVec 12) (state : State) : exec (.vxVneg g src) state = runSlot (semVxVneg g src) state := rfl
@[simp] theorem exec_vxVclz (g : BitVec 7) (src : BitVec 12) (state : State) : exec (.vxVclz g src) state = runSlot (semVxVclz g src) state := rfl
@[simp] theorem exec_vxVpopc (g : BitVec 7) (src : BitVec 12) (state : State) : exec (.vxVpopc g src) state = runSlot (semVxVpopc g src) state := rfl
@[simp] theorem exec_vxVcmpeq (g : BitVec 7) (src : BitVec 12) (state : State) : exec (.vxVcmpeq g src) state = runSlot (semVxVcmpeq g src) state := rfl
@[simp] theorem exec_vxVcmpne (g : BitVec 7) (src : BitVec 12) (state : State) : exec (.vxVcmpne g src) state = runSlot (semVxVcmpne g src) state := rfl
@[simp] theorem exec_vxVcmplt (g : BitVec 7) (src : BitVec 12) (state : State) : exec (.vxVcmplt g src) state = runSlot (semVxVcmplt g src) state := rfl
@[simp] theorem exec_vxVcmple (g : BitVec 7) (src : BitVec 12) (state : State) : exec (.vxVcmple g src) state = runSlot (semVxVcmple g src) state := rfl
@[simp] theorem exec_vxVcmpltn (g : BitVec 7) (src : BitVec 12) (state : State) : exec (.vxVcmpltn g src) state = runSlot (semVxVcmpltn g src) state := rfl
@[simp] theorem exec_vxVcmplen (g : BitVec 7) (src : BitVec 12) (state : State) : exec (.vxVcmplen g src) state = runSlot (semVxVcmplen g src) state := rfl
@[simp] theorem exec_vxVfadd (g : BitVec 7) (src : BitVec 12) (state : State) : exec (.vxVfadd g src) state = runSlot (semVxVfadd g src) state := rfl
@[simp] theorem exec_vxVfsub (g : BitVec 7) (src : BitVec 12) (state : State) : exec (.vxVfsub g src) state = runSlot (semVxVfsub g src) state := rfl
@[simp] theorem exec_vxVfmul (g : BitVec 7) (src : BitVec 12) (state : State) : exec (.vxVfmul g src) state = runSlot (semVxVfmul g src) state := rfl
@[simp] theorem exec_vxVfma (g : BitVec 7) (src : BitVec 12) (state : State) : exec (.vxVfma g src) state = runSlot (semVxVfma g src) state := rfl
@[simp] theorem exec_vxVfmin (g : BitVec 7) (src : BitVec 12) (state : State) : exec (.vxVfmin g src) state = runSlot (semVxVfmin g src) state := rfl
@[simp] theorem exec_vxVfmax (g : BitVec 7) (src : BitVec 12) (state : State) : exec (.vxVfmax g src) state = runSlot (semVxVfmax g src) state := rfl
@[simp] theorem exec_vxVfabs (g : BitVec 7) (src : BitVec 12) (state : State) : exec (.vxVfabs g src) state = runSlot (semVxVfabs g src) state := rfl
@[simp] theorem exec_vxVfneg (g : BitVec 7) (src : BitVec 12) (state : State) : exec (.vxVfneg g src) state = runSlot (semVxVfneg g src) state := rfl
@[simp] theorem exec_vxVfrcp (g : BitVec 7) (src : BitVec 12) (state : State) : exec (.vxVfrcp g src) state = runSlot (semVxVfrcp g src) state := rfl
@[simp] theorem exec_vxVfrsqrt (g : BitVec 7) (src : BitVec 12) (state : State) : exec (.vxVfrsqrt g src) state = runSlot (semVxVfrsqrt g src) state := rfl
@[simp] theorem exec_vxVfsqrt (g : BitVec 7) (src : BitVec 12) (state : State) : exec (.vxVfsqrt g src) state = runSlot (semVxVfsqrt g src) state := rfl
@[simp] theorem exec_vxVfexp2 (g : BitVec 7) (src : BitVec 12) (state : State) : exec (.vxVfexp2 g src) state = runSlot (semVxVfexp2 g src) state := rfl
@[simp] theorem exec_vxVflog2 (g : BitVec 7) (src : BitVec 12) (state : State) : exec (.vxVflog2 g src) state = runSlot (semVxVflog2 g src) state := rfl
@[simp] theorem exec_vxVfcmpeq (g : BitVec 7) (src : BitVec 12) (state : State) : exec (.vxVfcmpeq g src) state = runSlot (semVxVfcmpeq g src) state := rfl
@[simp] theorem exec_vxVfcmplt (g : BitVec 7) (src : BitVec 12) (state : State) : exec (.vxVfcmplt g src) state = runSlot (semVxVfcmplt g src) state := rfl
@[simp] theorem exec_vxVfcmple (g : BitVec 7) (src : BitVec 12) (state : State) : exec (.vxVfcmple g src) state = runSlot (semVxVfcmple g src) state := rfl
@[simp] theorem exec_vxVfcmpun (g : BitVec 7) (src : BitVec 12) (state : State) : exec (.vxVfcmpun g src) state = runSlot (semVxVfcmpun g src) state := rfl
@[simp] theorem exec_vxVcvtif (g : BitVec 7) (src : BitVec 12) (state : State) : exec (.vxVcvtif g src) state = runSlot (semVxVcvtif g src) state := rfl
@[simp] theorem exec_vxVcvtfi (g : BitVec 7) (src : BitVec 12) (state : State) : exec (.vxVcvtfi g src) state = runSlot (semVxVcvtfi g src) state := rfl
@[simp] theorem exec_vxVcvtfbf (g : BitVec 7) (src : BitVec 12) (state : State) : exec (.vxVcvtfbf g src) state = runSlot (semVxVcvtfbf g src) state := rfl
@[simp] theorem exec_vxVcvtbff (g : BitVec 7) (src : BitVec 12) (state : State) : exec (.vxVcvtbff g src) state = runSlot (semVxVcvtbff g src) state := rfl
@[simp] theorem exec_vxVcvtfh (g : BitVec 7) (src : BitVec 12) (state : State) : exec (.vxVcvtfh g src) state = runSlot (semVxVcvtfh g src) state := rfl
@[simp] theorem exec_vxVcvthf (g : BitVec 7) (src : BitVec 12) (state : State) : exec (.vxVcvthf g src) state = runSlot (semVxVcvthf g src) state := rfl
@[simp] theorem exec_vxVqnt2 (g : BitVec 7) (src : BitVec 12) (state : State) : exec (.vxVqnt2 g src) state = runSlot (semVxVqnt2 g src) state := rfl
@[simp] theorem exec_vxVqnt4 (g : BitVec 7) (src : BitVec 12) (state : State) : exec (.vxVqnt4 g src) state = runSlot (semVxVqnt4 g src) state := rfl
@[simp] theorem exec_vxVqnt7 (g : BitVec 7) (src : BitVec 12) (state : State) : exec (.vxVqnt7 g src) state = runSlot (semVxVqnt7 g src) state := rfl
@[simp] theorem exec_vxVdeq2 (g : BitVec 7) (src : BitVec 12) (state : State) : exec (.vxVdeq2 g src) state = runSlot (semVxVdeq2 g src) state := rfl
@[simp] theorem exec_vxVdeq4 (g : BitVec 7) (src : BitVec 12) (state : State) : exec (.vxVdeq4 g src) state = runSlot (semVxVdeq4 g src) state := rfl
@[simp] theorem exec_vxVdeq7 (g : BitVec 7) (src : BitVec 12) (state : State) : exec (.vxVdeq7 g src) state = runSlot (semVxVdeq7 g src) state := rfl
@[simp] theorem exec_vxVperm (g : BitVec 7) (src : BitVec 12) (state : State) : exec (.vxVperm g src) state = runSlot (semVxVperm g src) state := rfl
@[simp] theorem exec_vxVbcast (g : BitVec 7) (src : BitVec 12) (state : State) : exec (.vxVbcast g src) state = runSlot (semVxVbcast g src) state := rfl
@[simp] theorem exec_vxVslide (g : BitVec 7) (src : BitVec 12) (state : State) : exec (.vxVslide g src) state = runSlot (semVxVslide g src) state := rfl
@[simp] theorem exec_vxVget (g : BitVec 7) (src : BitVec 12) (state : State) : exec (.vxVget g src) state = runSlot (semVxVget g src) state := rfl
@[simp] theorem exec_vxVredadd (g : BitVec 7) (src : BitVec 12) (state : State) : exec (.vxVredadd g src) state = runSlot (semVxVredadd g src) state := rfl
@[simp] theorem exec_vxVredmin (g : BitVec 7) (src : BitVec 12) (state : State) : exec (.vxVredmin g src) state = runSlot (semVxVredmin g src) state := rfl
@[simp] theorem exec_vxVredmax (g : BitVec 7) (src : BitVec 12) (state : State) : exec (.vxVredmax g src) state = runSlot (semVxVredmax g src) state := rfl
@[simp] theorem exec_vxVfredadd (g : BitVec 7) (src : BitVec 12) (state : State) : exec (.vxVfredadd g src) state = runSlot (semVxVfredadd g src) state := rfl
@[simp] theorem exec_vxVfredmin (g : BitVec 7) (src : BitVec 12) (state : State) : exec (.vxVfredmin g src) state = runSlot (semVxVfredmin g src) state := rfl
@[simp] theorem exec_vxVfredmax (g : BitVec 7) (src : BitVec 12) (state : State) : exec (.vxVfredmax g src) state = runSlot (semVxVfredmax g src) state := rfl
@[simp] theorem exec_vxVscan (g : BitVec 7) (src : BitVec 12) (state : State) : exec (.vxVscan g src) state = runSlot (semVxVscan g src) state := rfl
@[simp] theorem exec_vxVfscan (g : BitVec 7) (src : BitVec 12) (state : State) : exec (.vxVfscan g src) state = runSlot (semVxVfscan g src) state := rfl
@[simp] theorem exec_vxVtopk (g : BitVec 7) (src : BitVec 12) (state : State) : exec (.vxVtopk g src) state = runSlot (semVxVtopk g src) state := rfl
@[simp] theorem exec_vxStopk (g : BitVec 7) (src : BitVec 12) (state : State) : exec (.vxStopk g src) state = runSlot (semVxStopk g src) state := rfl
@[simp] theorem exec_mxMma (g : BitVec 7) (src : BitVec 12) (state : State) : exec (.mxMma g src) state = runSlot (semMxMma g src) state := rfl
@[simp] theorem exec_mxMmas (g : BitVec 7) (src : BitVec 12) (state : State) : exec (.mxMmas g src) state = runSlot (semMxMmas g src) state := rfl
@[simp] theorem exec_mxMmag (g : BitVec 7) (src : BitVec 12) (state : State) : exec (.mxMmag g src) state = runSlot (semMxMmag g src) state := rfl
@[simp] theorem exec_mxMzero (g : BitVec 7) (src : BitVec 12) (state : State) : exec (.mxMzero g src) state = runSlot (semMxMzero g src) state := rfl
@[simp] theorem exec_mxMdrain (g : BitVec 7) (src : BitVec 12) (state : State) : exec (.mxMdrain g src) state = runSlot (semMxMdrain g src) state := rfl
@[simp] theorem exec_tfTld (g : BitVec 7) (src : BitVec 12) (state : State) : exec (.tfTld g src) state = runSlot (semTfTld g src) state := rfl
@[simp] theorem exec_tfTbind (g : BitVec 7) (src : BitVec 12) (state : State) : exec (.tfTbind g src) state = runSlot (semTfTbind g src) state := rfl
@[simp] theorem exec_tfTst (g : BitVec 7) (src : BitVec 12) (state : State) : exec (.tfTst g src) state = runSlot (semTfTst g src) state := rfl
@[simp] theorem exec_tfTrel (g : BitVec 7) (src : BitVec 12) (state : State) : exec (.tfTrel g src) state = runSlot (semTfTrel g src) state := rfl
@[simp] theorem exec_tfTcvt (g : BitVec 7) (src : BitVec 12) (state : State) : exec (.tfTcvt g src) state = runSlot (semTfTcvt g src) state := rfl
@[simp] theorem exec_dgDq (g : BitVec 7) (src : BitVec 12) (state : State) : exec (.dgDq g src) state = runSlot (semDgDq g src) state := rfl
@[simp] theorem exec_dgDqr (g : BitVec 7) (src : BitVec 12) (state : State) : exec (.dgDqr g src) state = runSlot (semDgDqr g src) state := rfl
@[simp] theorem exec_dgDqz (g : BitVec 7) (src : BitVec 12) (state : State) : exec (.dgDqz g src) state = runSlot (semDgDqz g src) state := rfl
@[simp] theorem exec_dgDfence (g : BitVec 7) (src : BitVec 12) (state : State) : exec (.dgDfence g src) state = runSlot (semDgDfence g src) state := rfl
@[simp] theorem exec_dgDrebuild (g : BitVec 7) (src : BitVec 12) (state : State) : exec (.dgDrebuild g src) state = runSlot (semDgDrebuild g src) state := rfl
@[simp] theorem exec_dgDregion (g : BitVec 7) (src : BitVec 12) (state : State) : exec (.dgDregion g src) state = runSlot (semDgDregion g src) state := rfl
@[simp] theorem exec_syAadd (g : BitVec 7) (src : BitVec 12) (state : State) : exec (.syAadd g src) state = runSlot (semSyAadd g src) state := rfl
@[simp] theorem exec_syAmin (g : BitVec 7) (src : BitVec 12) (state : State) : exec (.syAmin g src) state = runSlot (semSyAmin g src) state := rfl
@[simp] theorem exec_syAmax (g : BitVec 7) (src : BitVec 12) (state : State) : exec (.syAmax g src) state = runSlot (semSyAmax g src) state := rfl
@[simp] theorem exec_syAminn (g : BitVec 7) (src : BitVec 12) (state : State) : exec (.syAminn g src) state = runSlot (semSyAminn g src) state := rfl
@[simp] theorem exec_syAmaxn (g : BitVec 7) (src : BitVec 12) (state : State) : exec (.syAmaxn g src) state = runSlot (semSyAmaxn g src) state := rfl
@[simp] theorem exec_syAand (g : BitVec 7) (src : BitVec 12) (state : State) : exec (.syAand g src) state = runSlot (semSyAand g src) state := rfl
@[simp] theorem exec_syAor (g : BitVec 7) (src : BitVec 12) (state : State) : exec (.syAor g src) state = runSlot (semSyAor g src) state := rfl
@[simp] theorem exec_syAxor (g : BitVec 7) (src : BitVec 12) (state : State) : exec (.syAxor g src) state = runSlot (semSyAxor g src) state := rfl
@[simp] theorem exec_syAswp (g : BitVec 7) (src : BitVec 12) (state : State) : exec (.syAswp g src) state = runSlot (semSyAswp g src) state := rfl
@[simp] theorem exec_syAcas (g : BitVec 7) (src : BitVec 12) (state : State) : exec (.syAcas g src) state = runSlot (semSyAcas g src) state := rfl
@[simp] theorem exec_syAincb (g : BitVec 7) (src : BitVec 12) (state : State) : exec (.syAincb g src) state = runSlot (semSyAincb g src) state := rfl
@[simp] theorem exec_syRel (g : BitVec 7) (src : BitVec 12) (state : State) : exec (.syRel g src) state = runSlot (semSyRel g src) state := rfl
@[simp] theorem exec_syAcq (g : BitVec 7) (src : BitVec 12) (state : State) : exec (.syAcq g src) state = runSlot (semSyAcq g src) state := rfl
@[simp] theorem exec_syBget (g : BitVec 7) (src : BitVec 12) (state : State) : exec (.syBget g src) state = runSlot (semSyBget g src) state := rfl
@[simp] theorem exec_syBarv (g : BitVec 7) (src : BitVec 12) (state : State) : exec (.syBarv g src) state = runSlot (semSyBarv g src) state := rfl
@[simp] theorem exec_syBwait (g : BitVec 7) (src : BitVec 12) (state : State) : exec (.syBwait g src) state = runSlot (semSyBwait g src) state := rfl
@[simp] theorem exec_syBfree (g : BitVec 7) (src : BitVec 12) (state : State) : exec (.syBfree g src) state = runSlot (semSyBfree g src) state := rfl
@[simp] theorem exec_sySstep (g : BitVec 7) (src : BitVec 12) (state : State) : exec (.sySstep g src) state = runSlot (semSySstep g src) state := rfl
@[simp] theorem exec_sySpawn (g : BitVec 7) (src : BitVec 12) (state : State) : exec (.sySpawn g src) state = runSlot (semSySpawn g src) state := rfl
@[simp] theorem exec_cxSend (g : BitVec 7) (src : BitVec 12) (state : State) : exec (.cxSend g src) state = runSlot (semCxSend g src) state := rfl
@[simp] theorem exec_cxMcst (g : BitVec 7) (src : BitVec 12) (state : State) : exec (.cxMcst g src) state = runSlot (semCxMcst g src) state := rfl
@[simp] theorem exec_kvFork (g : BitVec 7) (src : BitVec 12) (state : State) : exec (.kvFork g src) state = runSlot (semKvFork g src) state := rfl
@[simp] theorem exec_kvFree (g : BitVec 7) (src : BitVec 12) (state : State) : exec (.kvFree g src) state = runSlot (semKvFree g src) state := rfl
@[simp] theorem exec_kvPerm (g : BitVec 7) (src : BitVec 12) (state : State) : exec (.kvPerm g src) state = runSlot (semKvPerm g src) state := rfl
@[simp] theorem exec_kvApp (g : BitVec 7) (src : BitVec 12) (state : State) : exec (.kvApp g src) state = runSlot (semKvApp g src) state := rfl
@[simp] theorem exec_kvMap (g : BitVec 7) (src : BitVec 12) (state : State) : exec (.kvMap g src) state = runSlot (semKvMap g src) state := rfl
@[simp] theorem exec_epHist (g : BitVec 7) (src : BitVec 12) (state : State) : exec (.epHist g src) state = runSlot (semEpHist g src) state := rfl
@[simp] theorem exec_epRep (g : BitVec 7) (src : BitVec 12) (state : State) : exec (.epRep g src) state = runSlot (semEpRep g src) state := rfl
@[simp] theorem exec_epDone (g : BitVec 7) (src : BitVec 12) (state : State) : exec (.epDone g src) state = runSlot (semEpDone g src) state := rfl
@[simp] theorem exec_epGrad (g : BitVec 7) (src : BitVec 12) (state : State) : exec (.epGrad g src) state = runSlot (semEpGrad g src) state := rfl
@[simp] theorem exec_xkKick (g : BitVec 7) (src : BitVec 12) (state : State) : exec (.xkKick g src) state = runSlot (semXkKick g src) state := rfl
@[simp] theorem exec_crRd (g : BitVec 7) (src : BitVec 12) (state : State) : exec (.crRd g src) state = runSlot (semCrRd g src) state := rfl
@[simp] theorem exec_crWr (g : BitVec 7) (src : BitVec 12) (state : State) : exec (.crWr g src) state = runSlot (semCrWr g src) state := rfl
@[simp] theorem exec_crTlbinv (g : BitVec 7) (src : BitVec 12) (state : State) : exec (.crTlbinv g src) state = runSlot (semCrTlbinv g src) state := rfl
@[simp] theorem exec_crCinv (g : BitVec 7) (src : BitVec 12) (state : State) : exec (.crCinv g src) state = runSlot (semCrCinv g src) state := rfl
@[simp] theorem exec_crTrace (g : BitVec 7) (src : BitVec 12) (state : State) : exec (.crTrace g src) state = runSlot (semCrTrace g src) state := rfl
theorem exec_remwaysWrite (die : Nat) (v : BitVec 64) (state : State) : exec (.remwaysWrite die v) state = execRemwaysWrite die v state := rfl
theorem exec_digbaseWrite (v : BitVec 64) (state : State) : exec (.digbaseWrite v) state = execDigbaseWrite v state := rfl
@[simp] theorem exec_nop (cond : BitVec 6) (inv : BitVec 1) (rest : BitVec 18) (state : State) : exec (.nop cond inv rest) state = runSlot (semNop cond inv rest) state := rfl
@[simp] theorem exec_br (cond : BitVec 6) (inv : BitVec 1) (pop : BitVec 1) (off : BitVec 17) (state : State) : exec (.br cond inv pop off) state = runSlot (semBr cond inv pop off) state := rfl
@[simp] theorem exec_brx (cond : BitVec 6) (inv : BitVec 1) (pop : BitVec 1) (reg : BitVec 6) (state : State) : exec (.brx cond inv pop reg) state = runSlot (semBrx cond inv pop reg) state := rfl
@[simp] theorem exec_call (cond : BitVec 6) (inv : BitVec 1) (off : BitVec 18) (state : State) : exec (.call cond inv off) state = runSlot (semCall cond inv off) state := rfl
@[simp] theorem exec_ret (cond : BitVec 6) (inv : BitVec 1) (state : State) : exec (.ret cond inv) state = runSlot (semRet cond inv) state := rfl
@[simp] theorem exec_loop (reg : BitVec 6) (fin : BitVec 12) (state : State) : exec (.loop reg fin) state = runSlot (semLoop reg fin) state := rfl
@[simp] theorem exec_loopq (fin : BitVec 12) (state : State) : exec (.loopq fin) state = runSlot (semLoopq fin) state := rfl
@[simp] theorem exec_halt (cond : BitVec 6) (inv : BitVec 1) (state : State) : exec (.halt cond inv) state = runSlot (semHalt cond inv) state := rfl
@[simp] theorem exec_trap (cond : BitVec 6) (inv : BitVec 1) (code : BitVec 16) (state : State) : exec (.trap cond inv code) state = runSlot (semTrap cond inv code) state := rfl
@[simp] theorem exec_rft (state : State) : exec (.rft) state = runSlot (semRft) state := rfl
@[simp] theorem exec_wake (cond : BitVec 6) (inv : BitVec 1) (off : BitVec 18) (state : State) : exec (.wake cond inv off) state = runSlot (semWake cond inv off) state := rfl
@[simp] theorem exec_cede (mask : BitVec 7) (state : State) : exec (.cede mask) state = runSlot (semCede mask) state := rfl
@[simp] theorem exec_wait (ld : BitVec 1) (st : BitVec 1) (tiles : BitVec 16) (state : State) : exec (.wait ld st tiles) state = runSlot (semWait ld st tiles) state := rfl
@[simp] theorem exec_brk (cond : BitVec 6) (inv : BitVec 1) (code : BitVec 16) (state : State) : exec (.brk cond inv code) state = runSlot (semBrk cond inv code) state := rfl
theorem exec_bundleIssue (core : Nat) (q : Nat) (state : State) : exec (.bundleIssue core q) state = execBundleIssue core q state := rfl
theorem exec_fixedLatencyResult (core : Nat) (q : Nat) (port : ResPort) (state : State) : exec (.fixedLatencyResult core q port) state = execFixedLatencyResult core q port state := rfl
theorem exec_loadPerformed (core : Nat) (q : Nat) (state : State) : exec (.loadPerformed core q) state = execLoadPerformed core q state := rfl
theorem exec_loadDataArrival (core : Nat) (q : Nat) (idx : Nat) (state : State) : exec (.loadDataArrival core q idx) state = execLoadDataArrival core q idx state := rfl
theorem exec_freezeEnd (core : Nat) (q : Nat) (state : State) : exec (.freezeEnd core q) state = execFreezeEnd core q state := rfl
theorem exec_flagWaitEnd (core : Nat) (q : Nat) (state : State) : exec (.flagWaitEnd core q) state = execFlagWaitEnd core q state := rfl
theorem exec_tlbWalk (core : Nat) (q : Nat) (state : State) : exec (.tlbWalk core q) state = execTlbWalk core q state := rfl
theorem exec_merge (core : Nat) (q : Nat) (state : State) : exec (.merge core q) state = execMerge core q state := rfl
theorem exec_recordRead (core : Nat) (q : Nat) (state : State) : exec (.recordRead core q) state = execRecordRead core q state := rfl
theorem exec_recordCacheEmpty (core : Nat) (q : Nat) (state : State) : exec (.recordCacheEmpty core q) state = execRecordCacheEmpty core q state := rfl
theorem exec_tileOpComplete (core : Nat) (tf : Bool) (state : State) : exec (.tileOpComplete core tf) state = execTileOpComplete core tf state := rfl
theorem exec_tbindPinned (core : Nat) (q : Nat) (state : State) : exec (.tbindPinned core q) state = execTbindPinned core q state := rfl
theorem exec_stopkComplete (core : Nat) (state : State) : exec (.stopkComplete core) state = execStopkComplete core state := rfl
theorem exec_mdrainRow (core : Nat) (state : State) : exec (.mdrainRow core) state = execMdrainRow core state := rfl
theorem exec_releasePerform (core : Nat) (q : Nat) (state : State) : exec (.releasePerform core q) state = execReleasePerform core q state := rfl
theorem exec_acquirePerform (core : Nat) (q : Nat) (state : State) : exec (.acquirePerform core q) state = execAcquirePerform core q state := rfl
theorem exec_atomicApply (core : Nat) (q : Nat) (state : State) : exec (.atomicApply core q) state = execAtomicApply core q state := rfl
theorem exec_remoteAtomicBatch (core : Nat) (state : State) : exec (.remoteAtomicBatch core) state = execRemoteAtomicBatch core state := rfl
theorem exec_barrierArrival (core : Nat) (q : Nat) (state : State) : exec (.barrierArrival core q) state = execBarrierArrival core q state := rfl
theorem exec_bwaitLimitExpiry (core : Nat) (q : Nat) (state : State) : exec (.bwaitLimitExpiry core q) state = execBwaitLimitExpiry core q state := rfl
theorem exec_communicationStepBegin (launch : Nat) (state : State) : exec (.communicationStepBegin launch) state = execCommunicationStepBegin launch state := rfl
theorem exec_computationStepBegin (launch : Nat) (state : State) : exec (.computationStepBegin launch) state = execComputationStepBegin launch state := rfl
theorem exec_cxSendDepart (core : Nat) (state : State) : exec (.cxSendDepart core) state = execCxSendDepart core state := rfl
theorem exec_cxVectorArrive (core : Nat) (state : State) : exec (.cxVectorArrive core) state = execCxVectorArrive core state := rfl
theorem exec_cxMcstLand (core : Nat) (state : State) : exec (.cxMcstLand core) state = execCxMcstLand core state := rfl
theorem exec_circuitQueueEnlarge (launch : Nat) (state : State) : exec (.circuitQueueEnlarge launch) state = execCircuitQueueEnlarge launch state := rfl
theorem exec_trapEntry (core : Nat) (q : Nat) (cause : BitVec 6) (slot : Nat) (faddr : BitVec 64) (state : State) : exec (.trapEntry core q cause slot faddr) state = execTrapEntry core q cause slot faddr state := rfl
theorem exec_deferredTrap (core : Nat) (q : Nat) (state : State) : exec (.deferredTrap core q) state = execDeferredTrap core q state := rfl
theorem exec_cancel (level : Level) (id : Nat) (state : State) : exec (.cancel level id) state = execCancel level id state := rfl
theorem exec_handlerBudgetExpiry (core : Nat) (q : Nat) (state : State) : exec (.handlerBudgetExpiry core q) state = execHandlerBudgetExpiry core q state := rfl
theorem exec_unitComplete (core : Nat) (q : Nat) (state : State) : exec (.unitComplete core q) state = execUnitComplete core q state := rfl
theorem exec_phaseRecordPost (phase : Nat) (state : State) : exec (.phaseRecordPost phase) state = execPhaseRecordPost phase state := rfl
theorem exec_startVector (v : BitVec 512) (state : State) : exec (.startVector v) state = execStartVector v state := rfl
theorem exec_childLaunchAccept (core : Nat) (q : Nat) (state : State) : exec (.childLaunchAccept core q) state = execChildLaunchAccept core q state := rfl
theorem exec_schedulerSelect (die : Nat) (state : State) : exec (.schedulerSelect die) state = execSchedulerSelect die state := rfl
theorem exec_tokenAccrual (die : Nat) (state : State) : exec (.tokenAccrual die) state = execTokenAccrual die state := rfl
theorem exec_drainRedecision (launch : Nat) (state : State) : exec (.drainRedecision launch) state = execDrainRedecision launch state := rfl
theorem exec_safePointStop (core : Nat) (q : Nat) (state : State) : exec (.safePointStop core q) state = execSafePointStop core q state := rfl
theorem exec_checkpointWithdraw (launch : Nat) (state : State) : exec (.checkpointWithdraw launch) state = execCheckpointWithdraw launch state := rfl
theorem exec_checkpointSave (launch : Nat) (state : State) : exec (.checkpointSave launch) state = execCheckpointSave launch state := rfl
theorem exec_launchRestore (launch : Nat) (state : State) : exec (.launchRestore launch) state = execLaunchRestore launch state := rfl
theorem exec_xformRequest (asid : Nat) (ring : Nat) (state : State) : exec (.xformRequest asid ring) state = execXformRequest asid ring state := rfl
theorem exec_xformCompletion (asid : Nat) (ring : Nat) (state : State) : exec (.xformCompletion asid ring) state = execXformCompletion asid ring state := rfl
theorem exec_histCountArrive (state : State) : exec (.histCountArrive) state = execHistCountArrive state := rfl
theorem exec_trestleWindowEnd (state : State) : exec (.trestleWindowEnd) state = execTrestleWindowEnd state := rfl
theorem exec_trestlePublish (state : State) : exec (.trestlePublish) state = execTrestlePublish state := rfl
theorem exec_epRepServe (core : Nat) (q : Nat) (state : State) : exec (.epRepServe core q) state = execEpRepServe core q state := rfl
theorem exec_slotRetire (pair : Nat) (slot : Nat) (state : State) : exec (.slotRetire pair slot) state = execSlotRetire pair slot state := rfl
theorem exec_epGradMerge (core : Nat) (q : Nat) (state : State) : exec (.epGradMerge core q) state = execEpGradMerge core q state := rfl
theorem exec_drebuildPerform (core : Nat) (q : Nat) (state : State) : exec (.drebuildPerform core q) state = execDrebuildPerform core q state := rfl
theorem exec_linkRowReceive (link : Nat) (row : Nat) (crcOk : Bool) (state : State) : exec (.linkRowReceive link row crcOk) state = execLinkRowReceive link row crcOk state := rfl
theorem exec_linkDown (link : Nat) (state : State) : exec (.linkDown link) state = execLinkDown link state := rfl
theorem exec_routerDrain (state : State) : exec (.routerDrain) state = execRouterDrain state := rfl
theorem exec_throttleStepDown (die : Nat) (state : State) : exec (.throttleStepDown die) state = execThrottleStepDown die state := rfl
theorem exec_throttleStepUp (die : Nat) (state : State) : exec (.throttleStepUp die) state = execThrottleStepUp die state := rfl
theorem exec_thermalStop (die : Nat) (state : State) : exec (.thermalStop die) state = execThermalStop die state := rfl
theorem exec_coldReset (verified : Bool) (offer : BitVec 256) (state : State) : exec (.coldReset verified offer) state = execColdReset verified offer state := rfl
theorem exec_warmReset (verified : Bool) (offer : BitVec 256) (state : State) : exec (.warmReset verified offer) state = execWarmReset verified offer state := rfl
theorem exec_attestationRequest (nonce : BitVec 128) (state : State) : exec (.attestationRequest nonce) state = execAttestationRequest nonce state := rfl
theorem exec_feataccWrite (v : BitVec 256) (state : State) : exec (.feataccWrite v) state = execFeataccWrite v state := rfl
theorem exec_imageLoad (handle : Nat) (asid : Nat) (va : BitVec 64) (bytes : List Byte) (state : State) : exec (.imageLoad handle asid va bytes) state = execImageLoad handle asid va bytes state := rfl
theorem exec_imageUnload (handle : Nat) (state : State) : exec (.imageUnload handle) state = execImageUnload handle state := rfl
theorem exec_hostWrite (asid : Nat) (va : BitVec 64) (acc : HostAccess) (state : State) : exec (.hostWrite asid va acc) state = execHostWrite asid va acc state := rfl
theorem exec_hostRelease (asid : Nat) (va : BitVec 64) (v : BitVec 64) (state : State) : exec (.hostRelease asid va v) state = execHostRelease asid va v state := rfl
theorem exec_hostTlbInvalidate (asid : Nat) (all : Bool) (va : BitVec 64) (state : State) : exec (.hostTlbInvalidate asid all va) state = execHostTlbInvalidate asid all va state := rfl
theorem exec_tcfgWrite (v : BitVec 64) (state : State) : exec (.tcfgWrite v) state = execTcfgWrite v state := rfl
theorem exec_tresWrite (v : BitVec 64) (state : State) : exec (.tresWrite v) state = execTresWrite v state := rfl
theorem exec_hostRegisterWrite (reg : HostReg) (v : BitVec 64) (state : State) : exec (.hostRegisterWrite reg v) state = execHostRegisterWrite reg v state := rfl
theorem exec_scratchpadStorePerformed (core : Nat) (q : Nat) (state : State) : exec (.scratchpadStorePerformed core q) state = execScratchpadStorePerformed core q state := rfl
theorem exec_barrierEntryFree (core : Nat) (q : Nat) (state : State) : exec (.barrierEntryFree core q) state = execBarrierEntryFree core q state := rfl
theorem exec_softError (site : ErrSite) (correctable : Bool) (state : State) : exec (.softError site correctable) state = execSoftError site correctable state := rfl

end Sys2Proof.Machine
end

