-- ==== Sys2Proof/Laws/Order.lean ====
section
/-! SUPPORT. What a link of R212 and a walk of R203 can do to memory: nothing. -/
namespace Sys2Proof.Machine

/-! ### Copies -/

theorem State.readLine_mem (s : State) (d line : Nat) : (s.readLine d line).2.mem = s.mem := by
  unfold State.readLine
  split
  · exact State.homeUse_mem s _
  · dsimp only
    split
    · rfl
    · split <;> exact State.homeUse_mem s _

theorem State.dropNamed_mem (s : State) (c scope : Nat) (g : BitVec 1024) : (s.dropNamed c scope g).mem = s.mem := by
  unfold State.dropNamed
  dsimp only
  repeat' split
  all_goals rfl

/-- Dropping what a load would read too old leaves memory as it is. -/
theorem State.freshLine_mem (s : State) (c line : Nat) (runs : List (Nat × Nat)) (g : Past) :
    (s.freshLine c line runs g).mem = s.mem := by
  unfold State.freshLine
  dsimp only
  repeat' split
  all_goals rfl

theorem State.linkAtomic_mem (s : State) (c q : Nat) (e : LoadEntry) (l : Loc) : (s.linkAtomic c q e l).mem = s.mem := rfl

theorem State.noteStore_mem (s : State) (c q order pa : Nat) (bs : List (Option Byte)) :
    (s.noteStore c q order pa bs).mem = s.mem := by
  unfold State.noteStore
  dsimp only
  split <;> rfl

theorem State.noteStore_seq (s : State) (c q order pa : Nat) (bs : List (Option Byte)) (k u : Nat) :
    (s.noteStore c q order pa bs).seq k u = s.seq k u := by
  unfold State.noteStore
  dsimp only
  split
  · rfl
  · by_cases h : k = c
    · subst h
      simp [State.seq, State.core, State.modCore, State.setCore, State.addOwn, Core.seq]
    · simp [State.seq, State.core, State.modCore, State.setCore, State.addOwn, mapGet_insert_ne _ _ _ h]

/-! ### Joining (R212) -/

theorem mapMax_nil (n : Nat) (a : NMap (List Nat)) : mapMax n a [] = a := by
  cases n <;> cases a <;> simp [mapMax]

theorem nil_mapMax (n : Nat) (a : NMap (List Nat)) : mapMax n [] a = a := by
  cases n <;> simp [mapMax]

@[simp] theorem Past.join_empty (a : Past) : a.join {} = a := by
  simp [Past.join, mapMax_nil]

@[simp] theorem Past.empty_join (a : Past) : ({} : Past).join a = a := by
  simp [Past.join, nil_mapMax]

/-! ### Releases (R213) -/

theorem Release.meets_outside (scope n : Nat) (g : Past) (b : Nat × Nat) :
    (Release.mk none n g).meets b scope = decide (5 ≤ scope) := rfl

/-- A release that an acquire does not meet hands on nothing. -/
theorem chainOf_skip (r : Release) (rs : List Release) (b : Nat × Nat) (scope : Nat) (h : r.meets b scope = false) :
    chainOf (r :: rs) b scope = chainOf rs b scope := by
  simp [chainOf, h]

/-- One that it meets hands on its chain. -/
theorem chainOf_one (r : Release) (b : Nat × Nat) (scope : Nat) (h : r.meets b scope = true) : chainOf [r] b scope = r.chain := by
  simp [chainOf, h]

/-! ### Walks (R203) -/

theorem State.tlbFill_mem (s : State) (c q : Nat) (p : Page) (x : Seq) : (s.tlbFill c q p x).mem = s.mem := by
  unfold State.tlbFill
  split <;> rfl

theorem State.answer_mem (s : State) (w : Walker) (found : Option Page) (u : Nat × Nat) : (s.answer w found u).mem = s.mem := by
  unfold State.answer
  dsimp only
  split
  · exact State.tlbFill_mem _ _ _ _ _
  · rfl

theorem State.walkStep_mem (s : State) (d : Nat) (w : Walker) : (s.walkStep d w).mem = s.mem := by
  have h : ∀ found, (s.endWalk d w found).mem = s.mem := fun found => by
    unfold State.endWalk
    exact foldl_same (·.mem) _ (fun s u => State.answer_mem s w found u) _ _
  unfold State.walkStep
  split
  · exact h none
  · exact h _
  · rfl

end Sys2Proof.Machine
end

