-- ==== Sys2Proof/Laws/PerInstr.lean ====
section
/-! SUPPORT. Every instruction by itself: the word it encodes to decodes to it (R44 to R51, R59, R84). -/
namespace Sys2Proof.Laws.RoundTrip
open Sys2Proof

/-- A word of a format other than 11 decodes to its instruction in any slot, one of format 11 in slot 0 or in slot 3. -/
def Statement (i : Instr) : Prop :=
  i.wf = true → ∀ w, encode i = some w →
    (fieldOf w 30 2 ≠ 3 → ∀ k, decodeSlot k w = .ok i) ∧ (fieldOf w 30 2 = 3 → decodeSlot 0 w = .ok i ∨ decodeSlot 3 w = .ok i)

/-! ### Fields of a word put together -/

/-- The high part of two joined words, and the low part. -/
theorem extract_high {m n k : Nat} (x : BitVec m) (y : BitVec n) (lo : Nat) (h : n ≤ lo) :
    (x ++ y).extractLsb' lo k = x.extractLsb' (lo - n) k := by
  apply BitVec.eq_of_getLsbD_eq
  intro i hi
  have : ¬ lo + i < n := by omega
  have e : lo + i - n = lo - n + i := by omega
  simp [BitVec.getLsbD_append, hi, this, e]

theorem extract_low {m n k : Nat} (x : BitVec m) (y : BitVec n) (lo : Nat) (h : lo + k ≤ n) :
    (x ++ y).extractLsb' lo k = y.extractLsb' lo k := by
  apply BitVec.eq_of_getLsbD_eq
  intro i hi
  have : lo + i < n := by omega
  simp [BitVec.getLsbD_append, hi, this]

theorem extract_plus {m n k : Nat} (x : BitVec m) (y : BitVec n) (lo : Nat) :
    (x ++ y).extractLsb' (lo + n) k = x.extractLsb' lo k := by
  rw [extract_high x y (lo + n) (by omega), Nat.add_sub_cancel]

theorem extract_top {m n k : Nat} (x : BitVec m) (y : BitVec n) : (x ++ y).extractLsb' n k = x.extractLsb' 0 k := by
  rw [extract_high x y n (by omega), Nat.sub_self]

theorem extract_all {n : Nat} (x : BitVec n) : x.extractLsb' 0 n = x := by
  apply BitVec.eq_of_getLsbD_eq
  intro i hi
  simp [hi]

theorem extract_last {m n : Nat} (x : BitVec m) (y : BitVec n) : (x ++ y).extractLsb' 0 n = y := by
  rw [extract_low x y 0 (by omega), extract_all]

theorem parts2 {a b : Nat} (w : BitVec a) (x : BitVec b) : (w ++ x).extractLsb' b a = w ∧ (w ++ x).extractLsb' 0 b = x := by
  simp only [extract_top, extract_all, extract_last, and_self]

theorem parts3 {a b c : Nat} (w : BitVec a) (x : BitVec b) (y : BitVec c) :
    (w ++ x ++ y).extractLsb' (b + c) a = w ∧ (w ++ x ++ y).extractLsb' c b = x ∧ (w ++ x ++ y).extractLsb' 0 c = y := by
  simp only [extract_plus, extract_top, extract_all, extract_last, and_self]

theorem parts4 {a b c d : Nat} (w : BitVec a) (x : BitVec b) (y : BitVec c) (z : BitVec d) :
    (w ++ x ++ y ++ z).extractLsb' (b + c + d) a = w ∧ (w ++ x ++ y ++ z).extractLsb' (c + d) b = x ∧
    (w ++ x ++ y ++ z).extractLsb' d c = y ∧ (w ++ x ++ y ++ z).extractLsb' 0 d = z := by
  simp only [extract_plus, extract_top, extract_all, extract_last, and_self]

theorem parts5 {a b c d e : Nat} (v : BitVec a) (w : BitVec b) (x : BitVec c) (y : BitVec d) (z : BitVec e) :
    (v ++ w ++ x ++ y ++ z).extractLsb' (b + c + d + e) a = v ∧ (v ++ w ++ x ++ y ++ z).extractLsb' (c + d + e) b = w ∧
    (v ++ w ++ x ++ y ++ z).extractLsb' (d + e) c = x ∧ (v ++ w ++ x ++ y ++ z).extractLsb' e d = y := by
  simp only [extract_plus, extract_top, extract_all, extract_last, and_self]

theorem parts9 {a b c d e f g h k : Nat} (p : BitVec a) (q : BitVec b) (r : BitVec c) (s : BitVec d) (t : BitVec e) (u : BitVec f)
    (v : BitVec g) (w : BitVec h) (x : BitVec k) :
    let z := p ++ q ++ r ++ s ++ t ++ u ++ v ++ w ++ x
    z.extractLsb' (b + c + d + e + f + g + h + k) a = p ∧ z.extractLsb' (c + d + e + f + g + h + k) b = q ∧
    z.extractLsb' (d + e + f + g + h + k) c = r ∧ z.extractLsb' (e + f + g + h + k) d = s ∧ z.extractLsb' (f + g + h + k) e = t ∧
    z.extractLsb' (g + h + k) f = u ∧ z.extractLsb' (h + k) g = v ∧ z.extractLsb' k h = w ∧ z.extractLsb' 0 k = x := by
  simp only [extract_plus, extract_top, extract_all, extract_last, and_self]

theorem move_fields (g : BitVec 7) (d : BitVec 11) (s : BitVec 12) : fieldOf (moveWord g d s) 30 2 = 0 ∧
    fieldOf (moveWord g d s) 23 7 = g ∧ fieldOf (moveWord g d s) 12 11 = d ∧ fieldOf (moveWord g d s) 0 12 = s :=
  parts4 0#2 g d s

theorem control_fields (op : BitVec 5) (c : BitVec 6) (i : BitVec 1) (x : BitVec 18) : fieldOf (controlWord op c i x) 30 2 = 3 ∧
    fieldOf (controlWord op c i x) 25 5 = op ∧ fieldOf (controlWord op c i x) 19 6 = c ∧ fieldOf (controlWord op c i x) 18 1 = i :=
  parts5 3#2 op c i x

/-- A field of the operand of a control word. -/
theorem control_operand {n : Nat} (op : BitVec 5) (c : BitVec 6) (i : BitVec 1) (x : BitVec 18) (lo : Nat) (h : lo + n ≤ 18) :
    (fieldOf (controlWord op c i x) lo n : BitVec n) = x.extractLsb' lo n := by
  exact extract_low (3#2 ++ op ++ c ++ i) x lo h

/-! ### Each kind of word -/

theorem of_none {i : Instr} (h : encode i = none) : Statement i := by
  intro _ w hw
  simp [h] at hw

theorem decodeSlot_move (k : Nat) (g : BitVec 7) (d : BitVec 11) (s : BitVec 12) : decodeSlot k (moveWord g d s) = .ok (moveOf g d s) := by
  simp [decodeSlot, decodeMove, move_fields]

theorem of_move {i : Instr} {g : BitVec 7} {d : BitVec 11} {s : BitVec 12} (h : encode i = some (moveWord g d s))
    (hd : i.wf = true → moveOf g d s = i) : Statement i := by
  intro hw w he
  obtain rfl : moveWord g d s = w := by simpa [h] using he
  exact ⟨fun _ k => by rw [decodeSlot_move, hd hw], fun hf => by simp [move_fields] at hf⟩

theorem of_wide (d : BitVec 11) (imm : BitVec 19) : Statement (.wideImmediateMove d imm) := by
  intro _ w he
  obtain rfl : 1#2 ++ d ++ imm = w := by simpa [encode] using he
  have hf : fieldOf (1#2 ++ d ++ imm) 30 2 = 1 ∧ fieldOf (1#2 ++ d ++ imm) 19 11 = d ∧ fieldOf (1#2 ++ d ++ imm) 0 19 = imm :=
    parts3 1#2 d imm
  exact ⟨fun _ k => by simp [decodeSlot, decodeWide, hf], fun h => by simp [hf] at h⟩

theorem of_header (nm e1 e2 e3 : BitVec 1) (x1 x2 x3 : BitVec 8) : Statement (.header nm e1 e2 e3 x1 x2 x3) := by
  intro _ w he
  obtain rfl : 3#2 ++ nm ++ e1 ++ e2 ++ e3 ++ 0#2 ++ x1 ++ x2 ++ x3 = w := by simpa [encode] using he
  have hf := parts9 3#2 nm e1 e2 e3 0#2 x1 x2 x3
  refine ⟨fun h => absurd hf.1 h, fun _ => .inl ?_⟩
  have h2 : ∀ w : BitVec 32, fieldOf w 30 2 = 3 → decodeSlot 0 w = decodeHeader w := fun w h => by simp [decodeSlot, h]
  rw [h2 _ hf.1, decodeHeader]
  obtain ⟨_, h29, h28, h27, h26, h24, h16, h8, h0⟩ := hf
  rw [if_pos (show fieldOf _ 24 2 = 0 from h24)]
  exact congrArg _ (by rw [show fieldOf _ 29 1 = nm from h29, show fieldOf _ 28 1 = e1 from h28, show fieldOf _ 27 1 = e2 from h27,
    show fieldOf _ 26 1 = e3 from h26, show fieldOf _ 16 8 = x1 from h16, show fieldOf _ 8 8 = x2 from h8, show fieldOf _ 0 8 = x3 from h0])

theorem of_control {i : Instr} {op : BitVec 5} {c : BitVec 6} {n : BitVec 1} {x : BitVec 18} (h : encode i = some (controlWord op c n x))
    (hd : decodeControl (controlWord op c n x) = .ok i) : Statement i := by
  intro _ w he
  obtain rfl : controlWord op c n x = w := by simpa [h] using he
  exact ⟨fun hf => absurd (control_fields op c n x).1 hf, fun _ => .inr (by simp [decodeSlot, control_fields, hd])⟩

/-! ### Moves that start no unit -/

theorem bit_cases (u : BitVec 1) : u = 0 ∨ u = 1 := by
  revert u
  decide

theorem trigger_of_some {g : BitVec 7} {d : Nat} {s : BitVec 12} (h : (triggerOf g d s).isSome = true) : isTrigger d = true := by
  unfold triggerOf at h
  split at h
  all_goals first
    | (unfold iaOf at h
       split at h <;> first
         | (simp only [isTrigger, Bool.or_eq_true, Bool.and_eq_true, decide_eq_true_eq]; omega)
         | simp at h)
    | (first
        | unfold triggers180 at h
        | unfold triggers1A0 at h
        | unfold triggers1C0 at h
        | unfold triggers200 at h
        | unfold triggers220 at h
        | unfold triggers240 at h
        | unfold triggers300 at h
        | unfold triggers340 at h
        | unfold triggers360 at h
        | unfold triggers3A0 at h
        | unfold triggers3C0 at h
       split at h <;> first
         | rfl
         | simp at h)
    | simp at h

theorem trigger_none {g : BitVec 7} {d : BitVec 11} {s : BitVec 12} (h : plainDest d = true) : triggerOf g d.toNat s = none := by
  cases ht : triggerOf g d.toNat s with
  | none => rfl
  | some i =>
    have := trigger_of_some (g := g) (d := d.toNat) (s := s) (by simp [ht])
    simp [plainDest, this] at h

theorem not_push {d : BitVec 11} (h : plainDest d = true) : d ≠ 0x0B4 := by
  rintro rfl
  exact absurd h (by decide)

theorem moveOf_plain {g : BitVec 7} {d : BitVec 11} {s : BitVec 12} (h : (plainDest d && !isPop s) = true) :
    moveOf g d s = .move g d s := by
  simp only [Bool.and_eq_true, Bool.not_eq_true', isPop, Bool.or_eq_false_iff, beq_eq_false_iff_ne, ne_eq] at h
  simp only [moveOf, trigger_none h.1, not_push h.1, h.2.1.1, h.2.1.2, h.2.2, if_false]

theorem moveOf_lqPop {g : BitVec 7} {d : BitVec 11} (h : plainDest d = true) : moveOf g d 0x0A9 = .lqPop g d := by
  simp only [moveOf, trigger_none h, not_push h, if_false, if_true]

theorem moveOf_cxPop {g : BitVec 7} {d : BitVec 11} (h : plainDest d = true) : moveOf g d 0x0AA = .cxPop g d := by
  simp only [moveOf, trigger_none h, not_push h, if_false, if_true]
  rfl

theorem moveOf_cqPop {g : BitVec 7} {d : BitVec 11} (h : plainDest d = true) : moveOf g d 0x0AC = .cqPop g d := by
  simp only [moveOf, trigger_none h, not_push h, if_false, if_true]
  rfl

/-! ### The instructions -/

theorem move (g : BitVec 7) (d : BitVec 11) (s : BitVec 12) : Statement (.move g d s) := of_move rfl moveOf_plain
theorem wideImmediateMove (d : BitVec 11) (imm : BitVec 19) : Statement (.wideImmediateMove d imm) := of_wide d imm
theorem header (nm : BitVec 1) (e1 : BitVec 1) (e2 : BitVec 1) (e3 : BitVec 1) (x1 : BitVec 8) (x2 : BitVec 8) (x3 : BitVec 8) : Statement (.header nm e1 e2 e3 x1 x2 x3) := of_header nm e1 e2 e3 x1 x2 x3
theorem lqPop (g : BitVec 7) (d : BitVec 11) : Statement (.lqPop g d) := of_move rfl fun h => moveOf_lqPop h
theorem cxPop (g : BitVec 7) (d : BitVec 11) : Statement (.cxPop g d) := of_move rfl fun h => moveOf_cxPop h
theorem cqPop (g : BitVec 7) (d : BitVec 11) : Statement (.cqPop g d) := of_move rfl fun h => moveOf_cqPop h
theorem cqPush (g : BitVec 7) (s : BitVec 12) : Statement (.cqPush g s) := of_move rfl fun _ => rfl
theorem iaAdd (g : BitVec 7) (u : BitVec 1) (s : BitVec 12) : Statement (.iaAdd g u s) := of_move rfl fun _ => by rcases bit_cases u with rfl | rfl <;> rfl
theorem iaSub (g : BitVec 7) (u : BitVec 1) (s : BitVec 12) : Statement (.iaSub g u s) := of_move rfl fun _ => by rcases bit_cases u with rfl | rfl <;> rfl
theorem iaAnd (g : BitVec 7) (u : BitVec 1) (s : BitVec 12) : Statement (.iaAnd g u s) := of_move rfl fun _ => by rcases bit_cases u with rfl | rfl <;> rfl
theorem iaOr (g : BitVec 7) (u : BitVec 1) (s : BitVec 12) : Statement (.iaOr g u s) := of_move rfl fun _ => by rcases bit_cases u with rfl | rfl <;> rfl
theorem iaXor (g : BitVec 7) (u : BitVec 1) (s : BitVec 12) : Statement (.iaXor g u s) := of_move rfl fun _ => by rcases bit_cases u with rfl | rfl <;> rfl
theorem iaAndn (g : BitVec 7) (u : BitVec 1) (s : BitVec 12) : Statement (.iaAndn g u s) := of_move rfl fun _ => by rcases bit_cases u with rfl | rfl <;> rfl
theorem iaShl (g : BitVec 7) (u : BitVec 1) (s : BitVec 12) : Statement (.iaShl g u s) := of_move rfl fun _ => by rcases bit_cases u with rfl | rfl <;> rfl
theorem iaShr (g : BitVec 7) (u : BitVec 1) (s : BitVec 12) : Statement (.iaShr g u s) := of_move rfl fun _ => by rcases bit_cases u with rfl | rfl <;> rfl
theorem iaSar (g : BitVec 7) (u : BitVec 1) (s : BitVec 12) : Statement (.iaSar g u s) := of_move rfl fun _ => by rcases bit_cases u with rfl | rfl <;> rfl
theorem iaRotr (g : BitVec 7) (u : BitVec 1) (s : BitVec 12) : Statement (.iaRotr g u s) := of_move rfl fun _ => by rcases bit_cases u with rfl | rfl <;> rfl
theorem iaMin (g : BitVec 7) (u : BitVec 1) (s : BitVec 12) : Statement (.iaMin g u s) := of_move rfl fun _ => by rcases bit_cases u with rfl | rfl <;> rfl
theorem iaMax (g : BitVec 7) (u : BitVec 1) (s : BitVec 12) : Statement (.iaMax g u s) := of_move rfl fun _ => by rcases bit_cases u with rfl | rfl <;> rfl
theorem iaMinn (g : BitVec 7) (u : BitVec 1) (s : BitVec 12) : Statement (.iaMinn g u s) := of_move rfl fun _ => by rcases bit_cases u with rfl | rfl <;> rfl
theorem iaMaxn (g : BitVec 7) (u : BitVec 1) (s : BitVec 12) : Statement (.iaMaxn g u s) := of_move rfl fun _ => by rcases bit_cases u with rfl | rfl <;> rfl
theorem iaCmpeq (g : BitVec 7) (u : BitVec 1) (s : BitVec 12) : Statement (.iaCmpeq g u s) := of_move rfl fun _ => by rcases bit_cases u with rfl | rfl <;> rfl
theorem iaCmpne (g : BitVec 7) (u : BitVec 1) (s : BitVec 12) : Statement (.iaCmpne g u s) := of_move rfl fun _ => by rcases bit_cases u with rfl | rfl <;> rfl
theorem iaCmplt (g : BitVec 7) (u : BitVec 1) (s : BitVec 12) : Statement (.iaCmplt g u s) := of_move rfl fun _ => by rcases bit_cases u with rfl | rfl <;> rfl
theorem iaCmple (g : BitVec 7) (u : BitVec 1) (s : BitVec 12) : Statement (.iaCmple g u s) := of_move rfl fun _ => by rcases bit_cases u with rfl | rfl <;> rfl
theorem iaCmpltn (g : BitVec 7) (u : BitVec 1) (s : BitVec 12) : Statement (.iaCmpltn g u s) := of_move rfl fun _ => by rcases bit_cases u with rfl | rfl <;> rfl
theorem iaCmplen (g : BitVec 7) (u : BitVec 1) (s : BitVec 12) : Statement (.iaCmplen g u s) := of_move rfl fun _ => by rcases bit_cases u with rfl | rfl <;> rfl
theorem iaClz (g : BitVec 7) (u : BitVec 1) (s : BitVec 12) : Statement (.iaClz g u s) := of_move rfl fun _ => by rcases bit_cases u with rfl | rfl <;> rfl
theorem iaCtz (g : BitVec 7) (u : BitVec 1) (s : BitVec 12) : Statement (.iaCtz g u s) := of_move rfl fun _ => by rcases bit_cases u with rfl | rfl <;> rfl
theorem iaPopc (g : BitVec 7) (u : BitVec 1) (s : BitVec 12) : Statement (.iaPopc g u s) := of_move rfl fun _ => by rcases bit_cases u with rfl | rfl <;> rfl
theorem iaSext (g : BitVec 7) (u : BitVec 1) (s : BitVec 12) : Statement (.iaSext g u s) := of_move rfl fun _ => by rcases bit_cases u with rfl | rfl <;> rfl
theorem iaZext (g : BitVec 7) (u : BitVec 1) (s : BitVec 12) : Statement (.iaZext g u s) := of_move rfl fun _ => by rcases bit_cases u with rfl | rfl <;> rfl
theorem imMul (g : BitVec 7) (s : BitVec 12) : Statement (.imMul g s) := of_move rfl fun _ => rfl
theorem imMulhi (g : BitVec 7) (s : BitVec 12) : Statement (.imMulhi g s) := of_move rfl fun _ => rfl
theorem imMulhn (g : BitVec 7) (s : BitVec 12) : Statement (.imMulhn g s) := of_move rfl fun _ => rfl
theorem imDiv (g : BitVec 7) (s : BitVec 12) : Statement (.imDiv g s) := of_move rfl fun _ => rfl
theorem imDivn (g : BitVec 7) (s : BitVec 12) : Statement (.imDivn g s) := of_move rfl fun _ => rfl
theorem imRem (g : BitVec 7) (s : BitVec 12) : Statement (.imRem g s) := of_move rfl fun _ => rfl
theorem imRemn (g : BitVec 7) (s : BitVec 12) : Statement (.imRemn g s) := of_move rfl fun _ => rfl
theorem imMad (g : BitVec 7) (s : BitVec 12) : Statement (.imMad g s) := of_move rfl fun _ => rfl
theorem plPand (g : BitVec 7) (s : BitVec 12) : Statement (.plPand g s) := of_move rfl fun _ => rfl
theorem plPor (g : BitVec 7) (s : BitVec 12) : Statement (.plPor g s) := of_move rfl fun _ => rfl
theorem plPxor (g : BitVec 7) (s : BitVec 12) : Statement (.plPxor g s) := of_move rfl fun _ => rfl
theorem plPandn (g : BitVec 7) (s : BitVec 12) : Statement (.plPandn g s) := of_move rfl fun _ => rfl
theorem plPnot (g : BitVec 7) (s : BitVec 12) : Statement (.plPnot g s) := of_move rfl fun _ => rfl
theorem plPall (g : BitVec 7) (s : BitVec 12) : Statement (.plPall g s) := of_move rfl fun _ => rfl
theorem plPany (g : BitVec 7) (s : BitVec 12) : Statement (.plPany g s) := of_move rfl fun _ => rfl
theorem plPcnt (g : BitVec 7) (s : BitVec 12) : Statement (.plPcnt g s) := of_move rfl fun _ => rfl
theorem plPfirst (g : BitVec 7) (s : BitVec 12) : Statement (.plPfirst g s) := of_move rfl fun _ => rfl
theorem plPlt (g : BitVec 7) (s : BitVec 12) : Statement (.plPlt g s) := of_move rfl fun _ => rfl
theorem lqLdb (g : BitVec 7) (s : BitVec 12) : Statement (.lqLdb g s) := of_move rfl fun _ => rfl
theorem lqLdbs (g : BitVec 7) (s : BitVec 12) : Statement (.lqLdbs g s) := of_move rfl fun _ => rfl
theorem lqLdh (g : BitVec 7) (s : BitVec 12) : Statement (.lqLdh g s) := of_move rfl fun _ => rfl
theorem lqLdhs (g : BitVec 7) (s : BitVec 12) : Statement (.lqLdhs g s) := of_move rfl fun _ => rfl
theorem lqLdw (g : BitVec 7) (s : BitVec 12) : Statement (.lqLdw g s) := of_move rfl fun _ => rfl
theorem lqLdws (g : BitVec 7) (s : BitVec 12) : Statement (.lqLdws g s) := of_move rfl fun _ => rfl
theorem lqLdd (g : BitVec 7) (s : BitVec 12) : Statement (.lqLdd g s) := of_move rfl fun _ => rfl
theorem lqVld (g : BitVec 7) (s : BitVec 12) : Statement (.lqVld g s) := of_move rfl fun _ => rfl
theorem lqVldbf (g : BitVec 7) (s : BitVec 12) : Statement (.lqVldbf g s) := of_move rfl fun _ => rfl
theorem lqVldhf (g : BitVec 7) (s : BitVec 12) : Statement (.lqVldhf g s) := of_move rfl fun _ => rfl
theorem lqVldb (g : BitVec 7) (s : BitVec 12) : Statement (.lqVldb g s) := of_move rfl fun _ => rfl
theorem lqGth (g : BitVec 7) (s : BitVec 12) : Statement (.lqGth g s) := of_move rfl fun _ => rfl
theorem sqStb (g : BitVec 7) (s : BitVec 12) : Statement (.sqStb g s) := of_move rfl fun _ => rfl
theorem sqSth (g : BitVec 7) (s : BitVec 12) : Statement (.sqSth g s) := of_move rfl fun _ => rfl
theorem sqStw (g : BitVec 7) (s : BitVec 12) : Statement (.sqStw g s) := of_move rfl fun _ => rfl
theorem sqStd (g : BitVec 7) (s : BitVec 12) : Statement (.sqStd g s) := of_move rfl fun _ => rfl
theorem sqVst (g : BitVec 7) (s : BitVec 12) : Statement (.sqVst g s) := of_move rfl fun _ => rfl
theorem sqVstbf (g : BitVec 7) (s : BitVec 12) : Statement (.sqVstbf g s) := of_move rfl fun _ => rfl
theorem sqVsthf (g : BitVec 7) (s : BitVec 12) : Statement (.sqVsthf g s) := of_move rfl fun _ => rfl
theorem sqSct (g : BitVec 7) (s : BitVec 12) : Statement (.sqSct g s) := of_move rfl fun _ => rfl
theorem lqMark (g : BitVec 7) (s : BitVec 12) : Statement (.lqMark g s) := of_move rfl fun _ => rfl
theorem agSld (g : BitVec 7) (s : BitVec 12) : Statement (.agSld g s) := of_move rfl fun _ => rfl
theorem agSst (g : BitVec 7) (s : BitVec 12) : Statement (.agSst g s) := of_move rfl fun _ => rfl
theorem agSrld (g : BitVec 7) (s : BitVec 12) : Statement (.agSrld g s) := of_move rfl fun _ => rfl
theorem agSset (g : BitVec 7) (s : BitVec 12) : Statement (.agSset g s) := of_move rfl fun _ => rfl
theorem agSadv (g : BitVec 7) (s : BitVec 12) : Statement (.agSadv g s) := of_move rfl fun _ => rfl
theorem agRfence (g : BitVec 7) (s : BitVec 12) : Statement (.agRfence g s) := of_move rfl fun _ => rfl
theorem vxVadd (g : BitVec 7) (s : BitVec 12) : Statement (.vxVadd g s) := of_move rfl fun _ => rfl
theorem vxVsub (g : BitVec 7) (s : BitVec 12) : Statement (.vxVsub g s) := of_move rfl fun _ => rfl
theorem vxVmul (g : BitVec 7) (s : BitVec 12) : Statement (.vxVmul g s) := of_move rfl fun _ => rfl
theorem vxVmulhi (g : BitVec 7) (s : BitVec 12) : Statement (.vxVmulhi g s) := of_move rfl fun _ => rfl
theorem vxVmulhn (g : BitVec 7) (s : BitVec 12) : Statement (.vxVmulhn g s) := of_move rfl fun _ => rfl
theorem vxVmin (g : BitVec 7) (s : BitVec 12) : Statement (.vxVmin g s) := of_move rfl fun _ => rfl
theorem vxVmax (g : BitVec 7) (s : BitVec 12) : Statement (.vxVmax g s) := of_move rfl fun _ => rfl
theorem vxVminn (g : BitVec 7) (s : BitVec 12) : Statement (.vxVminn g s) := of_move rfl fun _ => rfl
theorem vxVmaxn (g : BitVec 7) (s : BitVec 12) : Statement (.vxVmaxn g s) := of_move rfl fun _ => rfl
theorem vxVand (g : BitVec 7) (s : BitVec 12) : Statement (.vxVand g s) := of_move rfl fun _ => rfl
theorem vxVor (g : BitVec 7) (s : BitVec 12) : Statement (.vxVor g s) := of_move rfl fun _ => rfl
theorem vxVxor (g : BitVec 7) (s : BitVec 12) : Statement (.vxVxor g s) := of_move rfl fun _ => rfl
theorem vxVandn (g : BitVec 7) (s : BitVec 12) : Statement (.vxVandn g s) := of_move rfl fun _ => rfl
theorem vxVshl (g : BitVec 7) (s : BitVec 12) : Statement (.vxVshl g s) := of_move rfl fun _ => rfl
theorem vxVshr (g : BitVec 7) (s : BitVec 12) : Statement (.vxVshr g s) := of_move rfl fun _ => rfl
theorem vxVsar (g : BitVec 7) (s : BitVec 12) : Statement (.vxVsar g s) := of_move rfl fun _ => rfl
theorem vxVabs (g : BitVec 7) (s : BitVec 12) : Statement (.vxVabs g s) := of_move rfl fun _ => rfl
theorem vxVneg (g : BitVec 7) (s : BitVec 12) : Statement (.vxVneg g s) := of_move rfl fun _ => rfl
theorem vxVclz (g : BitVec 7) (s : BitVec 12) : Statement (.vxVclz g s) := of_move rfl fun _ => rfl
theorem vxVpopc (g : BitVec 7) (s : BitVec 12) : Statement (.vxVpopc g s) := of_move rfl fun _ => rfl
theorem vxVcmpeq (g : BitVec 7) (s : BitVec 12) : Statement (.vxVcmpeq g s) := of_move rfl fun _ => rfl
theorem vxVcmpne (g : BitVec 7) (s : BitVec 12) : Statement (.vxVcmpne g s) := of_move rfl fun _ => rfl
theorem vxVcmplt (g : BitVec 7) (s : BitVec 12) : Statement (.vxVcmplt g s) := of_move rfl fun _ => rfl
theorem vxVcmple (g : BitVec 7) (s : BitVec 12) : Statement (.vxVcmple g s) := of_move rfl fun _ => rfl
theorem vxVcmpltn (g : BitVec 7) (s : BitVec 12) : Statement (.vxVcmpltn g s) := of_move rfl fun _ => rfl
theorem vxVcmplen (g : BitVec 7) (s : BitVec 12) : Statement (.vxVcmplen g s) := of_move rfl fun _ => rfl
theorem vxVfadd (g : BitVec 7) (s : BitVec 12) : Statement (.vxVfadd g s) := of_move rfl fun _ => rfl
theorem vxVfsub (g : BitVec 7) (s : BitVec 12) : Statement (.vxVfsub g s) := of_move rfl fun _ => rfl
theorem vxVfmul (g : BitVec 7) (s : BitVec 12) : Statement (.vxVfmul g s) := of_move rfl fun _ => rfl
theorem vxVfma (g : BitVec 7) (s : BitVec 12) : Statement (.vxVfma g s) := of_move rfl fun _ => rfl
theorem vxVfmin (g : BitVec 7) (s : BitVec 12) : Statement (.vxVfmin g s) := of_move rfl fun _ => rfl
theorem vxVfmax (g : BitVec 7) (s : BitVec 12) : Statement (.vxVfmax g s) := of_move rfl fun _ => rfl
theorem vxVfabs (g : BitVec 7) (s : BitVec 12) : Statement (.vxVfabs g s) := of_move rfl fun _ => rfl
theorem vxVfneg (g : BitVec 7) (s : BitVec 12) : Statement (.vxVfneg g s) := of_move rfl fun _ => rfl
theorem vxVfrcp (g : BitVec 7) (s : BitVec 12) : Statement (.vxVfrcp g s) := of_move rfl fun _ => rfl
theorem vxVfrsqrt (g : BitVec 7) (s : BitVec 12) : Statement (.vxVfrsqrt g s) := of_move rfl fun _ => rfl
theorem vxVfsqrt (g : BitVec 7) (s : BitVec 12) : Statement (.vxVfsqrt g s) := of_move rfl fun _ => rfl
theorem vxVfexp2 (g : BitVec 7) (s : BitVec 12) : Statement (.vxVfexp2 g s) := of_move rfl fun _ => rfl
theorem vxVflog2 (g : BitVec 7) (s : BitVec 12) : Statement (.vxVflog2 g s) := of_move rfl fun _ => rfl
theorem vxVfcmpeq (g : BitVec 7) (s : BitVec 12) : Statement (.vxVfcmpeq g s) := of_move rfl fun _ => rfl
theorem vxVfcmplt (g : BitVec 7) (s : BitVec 12) : Statement (.vxVfcmplt g s) := of_move rfl fun _ => rfl
theorem vxVfcmple (g : BitVec 7) (s : BitVec 12) : Statement (.vxVfcmple g s) := of_move rfl fun _ => rfl
theorem vxVfcmpun (g : BitVec 7) (s : BitVec 12) : Statement (.vxVfcmpun g s) := of_move rfl fun _ => rfl
theorem vxVcvtif (g : BitVec 7) (s : BitVec 12) : Statement (.vxVcvtif g s) := of_move rfl fun _ => rfl
theorem vxVcvtfi (g : BitVec 7) (s : BitVec 12) : Statement (.vxVcvtfi g s) := of_move rfl fun _ => rfl
theorem vxVcvtfbf (g : BitVec 7) (s : BitVec 12) : Statement (.vxVcvtfbf g s) := of_move rfl fun _ => rfl
theorem vxVcvtbff (g : BitVec 7) (s : BitVec 12) : Statement (.vxVcvtbff g s) := of_move rfl fun _ => rfl
theorem vxVcvtfh (g : BitVec 7) (s : BitVec 12) : Statement (.vxVcvtfh g s) := of_move rfl fun _ => rfl
theorem vxVcvthf (g : BitVec 7) (s : BitVec 12) : Statement (.vxVcvthf g s) := of_move rfl fun _ => rfl
theorem vxVqnt2 (g : BitVec 7) (s : BitVec 12) : Statement (.vxVqnt2 g s) := of_move rfl fun _ => rfl
theorem vxVqnt4 (g : BitVec 7) (s : BitVec 12) : Statement (.vxVqnt4 g s) := of_move rfl fun _ => rfl
theorem vxVqnt7 (g : BitVec 7) (s : BitVec 12) : Statement (.vxVqnt7 g s) := of_move rfl fun _ => rfl
theorem vxVdeq2 (g : BitVec 7) (s : BitVec 12) : Statement (.vxVdeq2 g s) := of_move rfl fun _ => rfl
theorem vxVdeq4 (g : BitVec 7) (s : BitVec 12) : Statement (.vxVdeq4 g s) := of_move rfl fun _ => rfl
theorem vxVdeq7 (g : BitVec 7) (s : BitVec 12) : Statement (.vxVdeq7 g s) := of_move rfl fun _ => rfl
theorem vxVperm (g : BitVec 7) (s : BitVec 12) : Statement (.vxVperm g s) := of_move rfl fun _ => rfl
theorem vxVbcast (g : BitVec 7) (s : BitVec 12) : Statement (.vxVbcast g s) := of_move rfl fun _ => rfl
theorem vxVslide (g : BitVec 7) (s : BitVec 12) : Statement (.vxVslide g s) := of_move rfl fun _ => rfl
theorem vxVget (g : BitVec 7) (s : BitVec 12) : Statement (.vxVget g s) := of_move rfl fun _ => rfl
theorem vxVredadd (g : BitVec 7) (s : BitVec 12) : Statement (.vxVredadd g s) := of_move rfl fun _ => rfl
theorem vxVredmin (g : BitVec 7) (s : BitVec 12) : Statement (.vxVredmin g s) := of_move rfl fun _ => rfl
theorem vxVredmax (g : BitVec 7) (s : BitVec 12) : Statement (.vxVredmax g s) := of_move rfl fun _ => rfl
theorem vxVfredadd (g : BitVec 7) (s : BitVec 12) : Statement (.vxVfredadd g s) := of_move rfl fun _ => rfl
theorem vxVfredmin (g : BitVec 7) (s : BitVec 12) : Statement (.vxVfredmin g s) := of_move rfl fun _ => rfl
theorem vxVfredmax (g : BitVec 7) (s : BitVec 12) : Statement (.vxVfredmax g s) := of_move rfl fun _ => rfl
theorem vxVscan (g : BitVec 7) (s : BitVec 12) : Statement (.vxVscan g s) := of_move rfl fun _ => rfl
theorem vxVfscan (g : BitVec 7) (s : BitVec 12) : Statement (.vxVfscan g s) := of_move rfl fun _ => rfl
theorem vxVtopk (g : BitVec 7) (s : BitVec 12) : Statement (.vxVtopk g s) := of_move rfl fun _ => rfl
theorem vxStopk (g : BitVec 7) (s : BitVec 12) : Statement (.vxStopk g s) := of_move rfl fun _ => rfl
theorem mxMma (g : BitVec 7) (s : BitVec 12) : Statement (.mxMma g s) := of_move rfl fun _ => rfl
theorem mxMmas (g : BitVec 7) (s : BitVec 12) : Statement (.mxMmas g s) := of_move rfl fun _ => rfl
theorem mxMmag (g : BitVec 7) (s : BitVec 12) : Statement (.mxMmag g s) := of_move rfl fun _ => rfl
theorem mxMzero (g : BitVec 7) (s : BitVec 12) : Statement (.mxMzero g s) := of_move rfl fun _ => rfl
theorem mxMdrain (g : BitVec 7) (s : BitVec 12) : Statement (.mxMdrain g s) := of_move rfl fun _ => rfl
theorem tfTld (g : BitVec 7) (s : BitVec 12) : Statement (.tfTld g s) := of_move rfl fun _ => rfl
theorem tfTbind (g : BitVec 7) (s : BitVec 12) : Statement (.tfTbind g s) := of_move rfl fun _ => rfl
theorem tfTst (g : BitVec 7) (s : BitVec 12) : Statement (.tfTst g s) := of_move rfl fun _ => rfl
theorem tfTrel (g : BitVec 7) (s : BitVec 12) : Statement (.tfTrel g s) := of_move rfl fun _ => rfl
theorem tfTcvt (g : BitVec 7) (s : BitVec 12) : Statement (.tfTcvt g s) := of_move rfl fun _ => rfl
theorem dgDq (g : BitVec 7) (s : BitVec 12) : Statement (.dgDq g s) := of_move rfl fun _ => rfl
theorem dgDqr (g : BitVec 7) (s : BitVec 12) : Statement (.dgDqr g s) := of_move rfl fun _ => rfl
theorem dgDqz (g : BitVec 7) (s : BitVec 12) : Statement (.dgDqz g s) := of_move rfl fun _ => rfl
theorem dgDfence (g : BitVec 7) (s : BitVec 12) : Statement (.dgDfence g s) := of_move rfl fun _ => rfl
theorem dgDrebuild (g : BitVec 7) (s : BitVec 12) : Statement (.dgDrebuild g s) := of_move rfl fun _ => rfl
theorem dgDregion (g : BitVec 7) (s : BitVec 12) : Statement (.dgDregion g s) := of_move rfl fun _ => rfl
theorem syAadd (g : BitVec 7) (s : BitVec 12) : Statement (.syAadd g s) := of_move rfl fun _ => rfl
theorem syAmin (g : BitVec 7) (s : BitVec 12) : Statement (.syAmin g s) := of_move rfl fun _ => rfl
theorem syAmax (g : BitVec 7) (s : BitVec 12) : Statement (.syAmax g s) := of_move rfl fun _ => rfl
theorem syAminn (g : BitVec 7) (s : BitVec 12) : Statement (.syAminn g s) := of_move rfl fun _ => rfl
theorem syAmaxn (g : BitVec 7) (s : BitVec 12) : Statement (.syAmaxn g s) := of_move rfl fun _ => rfl
theorem syAand (g : BitVec 7) (s : BitVec 12) : Statement (.syAand g s) := of_move rfl fun _ => rfl
theorem syAor (g : BitVec 7) (s : BitVec 12) : Statement (.syAor g s) := of_move rfl fun _ => rfl
theorem syAxor (g : BitVec 7) (s : BitVec 12) : Statement (.syAxor g s) := of_move rfl fun _ => rfl
theorem syAswp (g : BitVec 7) (s : BitVec 12) : Statement (.syAswp g s) := of_move rfl fun _ => rfl
theorem syAcas (g : BitVec 7) (s : BitVec 12) : Statement (.syAcas g s) := of_move rfl fun _ => rfl
theorem syAincb (g : BitVec 7) (s : BitVec 12) : Statement (.syAincb g s) := of_move rfl fun _ => rfl
theorem syRel (g : BitVec 7) (s : BitVec 12) : Statement (.syRel g s) := of_move rfl fun _ => rfl
theorem syAcq (g : BitVec 7) (s : BitVec 12) : Statement (.syAcq g s) := of_move rfl fun _ => rfl
theorem syBget (g : BitVec 7) (s : BitVec 12) : Statement (.syBget g s) := of_move rfl fun _ => rfl
theorem syBarv (g : BitVec 7) (s : BitVec 12) : Statement (.syBarv g s) := of_move rfl fun _ => rfl
theorem syBwait (g : BitVec 7) (s : BitVec 12) : Statement (.syBwait g s) := of_move rfl fun _ => rfl
theorem syBfree (g : BitVec 7) (s : BitVec 12) : Statement (.syBfree g s) := of_move rfl fun _ => rfl
theorem sySstep (g : BitVec 7) (s : BitVec 12) : Statement (.sySstep g s) := of_move rfl fun _ => rfl
theorem sySpawn (g : BitVec 7) (s : BitVec 12) : Statement (.sySpawn g s) := of_move rfl fun _ => rfl
theorem cxSend (g : BitVec 7) (s : BitVec 12) : Statement (.cxSend g s) := of_move rfl fun _ => rfl
theorem cxMcst (g : BitVec 7) (s : BitVec 12) : Statement (.cxMcst g s) := of_move rfl fun _ => rfl
theorem kvFork (g : BitVec 7) (s : BitVec 12) : Statement (.kvFork g s) := of_move rfl fun _ => rfl
theorem kvFree (g : BitVec 7) (s : BitVec 12) : Statement (.kvFree g s) := of_move rfl fun _ => rfl
theorem kvPerm (g : BitVec 7) (s : BitVec 12) : Statement (.kvPerm g s) := of_move rfl fun _ => rfl
theorem kvApp (g : BitVec 7) (s : BitVec 12) : Statement (.kvApp g s) := of_move rfl fun _ => rfl
theorem kvMap (g : BitVec 7) (s : BitVec 12) : Statement (.kvMap g s) := of_move rfl fun _ => rfl
theorem epHist (g : BitVec 7) (s : BitVec 12) : Statement (.epHist g s) := of_move rfl fun _ => rfl
theorem epRep (g : BitVec 7) (s : BitVec 12) : Statement (.epRep g s) := of_move rfl fun _ => rfl
theorem epDone (g : BitVec 7) (s : BitVec 12) : Statement (.epDone g s) := of_move rfl fun _ => rfl
theorem epGrad (g : BitVec 7) (s : BitVec 12) : Statement (.epGrad g s) := of_move rfl fun _ => rfl
theorem xkKick (g : BitVec 7) (s : BitVec 12) : Statement (.xkKick g s) := of_move rfl fun _ => rfl
theorem crRd (g : BitVec 7) (s : BitVec 12) : Statement (.crRd g s) := of_move rfl fun _ => rfl
theorem crWr (g : BitVec 7) (s : BitVec 12) : Statement (.crWr g s) := of_move rfl fun _ => rfl
theorem crTlbinv (g : BitVec 7) (s : BitVec 12) : Statement (.crTlbinv g s) := of_move rfl fun _ => rfl
theorem crCinv (g : BitVec 7) (s : BitVec 12) : Statement (.crCinv g s) := of_move rfl fun _ => rfl
theorem crTrace (g : BitVec 7) (s : BitVec 12) : Statement (.crTrace g s) := of_move rfl fun _ => rfl
theorem remwaysWrite (die : Nat) (v : BitVec 64) : Statement (.remwaysWrite die v) := of_none rfl
theorem digbaseWrite (v : BitVec 64) : Statement (.digbaseWrite v) := of_none rfl
theorem nop (cond : BitVec 6) (inv : BitVec 1) (rest : BitVec 18) : Statement (.nop cond inv rest) := of_control rfl (by
  simp [decodeControl, control_fields, control_operand, extract_all])
theorem br (cond : BitVec 6) (inv : BitVec 1) (pop : BitVec 1) (off : BitVec 17) : Statement (.br cond inv pop off) := of_control rfl (by
  simp [decodeControl, control_fields, control_operand, parts2 pop off])
theorem brx (cond : BitVec 6) (inv : BitVec 1) (pop : BitVec 1) (reg : BitVec 6) : Statement (.brx cond inv pop reg) := of_control rfl (by
  simp [decodeControl, control_fields, control_operand, parts3 pop 0#11 reg])
theorem call (cond : BitVec 6) (inv : BitVec 1) (off : BitVec 18) : Statement (.call cond inv off) := of_control rfl (by
  simp [decodeControl, control_fields, control_operand, extract_all])
theorem ret (cond : BitVec 6) (inv : BitVec 1) : Statement (.ret cond inv) := of_control rfl (by
  simp [decodeControl, control_fields])
theorem loop (reg : BitVec 6) (fin : BitVec 12) : Statement (.loop reg fin) := of_control rfl (by
  simp [decodeControl, control_fields, control_operand, parts2 reg fin])
theorem loopq (fin : BitVec 12) : Statement (.loopq fin) := of_control rfl (by
  simp [decodeControl, control_fields, control_operand, parts2 0#6 fin])
theorem halt (cond : BitVec 6) (inv : BitVec 1) : Statement (.halt cond inv) := of_control rfl (by
  simp [decodeControl, control_fields])
theorem trap (cond : BitVec 6) (inv : BitVec 1) (code : BitVec 16) : Statement (.trap cond inv code) := of_control rfl (by
  simp [decodeControl, control_fields, control_operand, parts2 0#2 code])
theorem rft : Statement .rft := of_control rfl (by
  simp [decodeControl, control_fields])
theorem wake (cond : BitVec 6) (inv : BitVec 1) (off : BitVec 18) : Statement (.wake cond inv off) := of_control rfl (by
  simp [decodeControl, control_fields, control_operand, extract_all])
theorem cede (mask : BitVec 7) : Statement (.cede mask) := of_control rfl (by
  simp [decodeControl, control_fields, control_operand, parts2 0#11 mask])
theorem wait (ld : BitVec 1) (st : BitVec 1) (tiles : BitVec 16) : Statement (.wait ld st tiles) := of_control rfl (by
  simp [decodeControl, control_fields, control_operand, parts3 ld st tiles])
theorem brk (cond : BitVec 6) (inv : BitVec 1) (code : BitVec 16) : Statement (.brk cond inv code) := of_control rfl (by
  simp [decodeControl, control_fields, control_operand, parts2 0#2 code])
theorem bundleIssue (core : Nat) (q : Nat) : Statement (.bundleIssue core q) := of_none rfl
theorem fixedLatencyResult (core : Nat) (q : Nat) (port : ResPort) : Statement (.fixedLatencyResult core q port) := of_none rfl
theorem loadPerformed (core : Nat) (q : Nat) : Statement (.loadPerformed core q) := of_none rfl
theorem loadDataArrival (core : Nat) (q : Nat) (idx : Nat) : Statement (.loadDataArrival core q idx) := of_none rfl
theorem freezeEnd (core : Nat) (q : Nat) : Statement (.freezeEnd core q) := of_none rfl
theorem flagWaitEnd (core : Nat) (q : Nat) : Statement (.flagWaitEnd core q) := of_none rfl
theorem tlbWalk (core : Nat) (q : Nat) : Statement (.tlbWalk core q) := of_none rfl
theorem merge (core : Nat) (q : Nat) : Statement (.merge core q) := of_none rfl
theorem recordRead (core : Nat) (q : Nat) : Statement (.recordRead core q) := of_none rfl
theorem recordCacheEmpty (core : Nat) (q : Nat) : Statement (.recordCacheEmpty core q) := of_none rfl
theorem tileOpComplete (core : Nat) (tf : Bool) : Statement (.tileOpComplete core tf) := of_none rfl
theorem tbindPinned (core : Nat) (q : Nat) : Statement (.tbindPinned core q) := of_none rfl
theorem stopkComplete (core : Nat) : Statement (.stopkComplete core) := of_none rfl
theorem mdrainRow (core : Nat) : Statement (.mdrainRow core) := of_none rfl
theorem releasePerform (core : Nat) (q : Nat) : Statement (.releasePerform core q) := of_none rfl
theorem acquirePerform (core : Nat) (q : Nat) : Statement (.acquirePerform core q) := of_none rfl
theorem atomicApply (core : Nat) (q : Nat) : Statement (.atomicApply core q) := of_none rfl
theorem remoteAtomicBatch (core : Nat) : Statement (.remoteAtomicBatch core) := of_none rfl
theorem barrierArrival (core : Nat) (q : Nat) : Statement (.barrierArrival core q) := of_none rfl
theorem bwaitLimitExpiry (core : Nat) (q : Nat) : Statement (.bwaitLimitExpiry core q) := of_none rfl
theorem communicationStepBegin (launch : Nat) : Statement (.communicationStepBegin launch) := of_none rfl
theorem computationStepBegin (launch : Nat) : Statement (.computationStepBegin launch) := of_none rfl
theorem cxSendDepart (core : Nat) : Statement (.cxSendDepart core) := of_none rfl
theorem cxVectorArrive (core : Nat) : Statement (.cxVectorArrive core) := of_none rfl
theorem cxMcstLand (core : Nat) : Statement (.cxMcstLand core) := of_none rfl
theorem circuitQueueEnlarge (launch : Nat) : Statement (.circuitQueueEnlarge launch) := of_none rfl
theorem trapEntry (core : Nat) (q : Nat) (cause : BitVec 6) (slot : Nat) (faddr : BitVec 64) : Statement (.trapEntry core q cause slot faddr) := of_none rfl
theorem deferredTrap (core : Nat) (q : Nat) : Statement (.deferredTrap core q) := of_none rfl
theorem cancel (level : Level) (id : Nat) : Statement (.cancel level id) := of_none rfl
theorem handlerBudgetExpiry (core : Nat) (q : Nat) : Statement (.handlerBudgetExpiry core q) := of_none rfl
theorem unitComplete (core : Nat) (q : Nat) : Statement (.unitComplete core q) := of_none rfl
theorem phaseRecordPost (phase : Nat) : Statement (.phaseRecordPost phase) := of_none rfl
theorem startVector (v : BitVec 512) : Statement (.startVector v) := of_none rfl
theorem childLaunchAccept (core : Nat) (q : Nat) : Statement (.childLaunchAccept core q) := of_none rfl
theorem schedulerSelect (die : Nat) : Statement (.schedulerSelect die) := of_none rfl
theorem tokenAccrual (die : Nat) : Statement (.tokenAccrual die) := of_none rfl
theorem drainRedecision (launch : Nat) : Statement (.drainRedecision launch) := of_none rfl
theorem safePointStop (core : Nat) (q : Nat) : Statement (.safePointStop core q) := of_none rfl
theorem checkpointWithdraw (launch : Nat) : Statement (.checkpointWithdraw launch) := of_none rfl
theorem checkpointSave (launch : Nat) : Statement (.checkpointSave launch) := of_none rfl
theorem launchRestore (launch : Nat) : Statement (.launchRestore launch) := of_none rfl
theorem xformRequest (asid : Nat) (ring : Nat) : Statement (.xformRequest asid ring) := of_none rfl
theorem xformCompletion (asid : Nat) (ring : Nat) : Statement (.xformCompletion asid ring) := of_none rfl
theorem histCountArrive : Statement .histCountArrive := of_none rfl
theorem trestleWindowEnd : Statement .trestleWindowEnd := of_none rfl
theorem trestlePublish : Statement .trestlePublish := of_none rfl
theorem epRepServe (core : Nat) (q : Nat) : Statement (.epRepServe core q) := of_none rfl
theorem slotRetire (pair : Nat) (slot : Nat) : Statement (.slotRetire pair slot) := of_none rfl
theorem epGradMerge (core : Nat) (q : Nat) : Statement (.epGradMerge core q) := of_none rfl
theorem drebuildPerform (core : Nat) (q : Nat) : Statement (.drebuildPerform core q) := of_none rfl
theorem linkRowReceive (link : Nat) (row : Nat) (crcOk : Bool) : Statement (.linkRowReceive link row crcOk) := of_none rfl
theorem linkDown (link : Nat) : Statement (.linkDown link) := of_none rfl
theorem routerDrain : Statement .routerDrain := of_none rfl
theorem throttleStepDown (die : Nat) : Statement (.throttleStepDown die) := of_none rfl
theorem throttleStepUp (die : Nat) : Statement (.throttleStepUp die) := of_none rfl
theorem thermalStop (die : Nat) : Statement (.thermalStop die) := of_none rfl
theorem coldReset (verified : Bool) (offer : BitVec 256) : Statement (.coldReset verified offer) := of_none rfl
theorem warmReset (verified : Bool) (offer : BitVec 256) : Statement (.warmReset verified offer) := of_none rfl
theorem attestationRequest (nonce : BitVec 128) : Statement (.attestationRequest nonce) := of_none rfl
theorem feataccWrite (v : BitVec 256) : Statement (.feataccWrite v) := of_none rfl
theorem imageLoad (handle : Nat) (asid : Nat) (va : BitVec 64) (bytes : List Byte) : Statement (.imageLoad handle asid va bytes) := of_none rfl
theorem imageUnload (handle : Nat) : Statement (.imageUnload handle) := of_none rfl
theorem hostWrite (asid : Nat) (va : BitVec 64) (acc : HostAccess) : Statement (.hostWrite asid va acc) := of_none rfl
theorem hostRelease (asid : Nat) (va : BitVec 64) (v : BitVec 64) : Statement (.hostRelease asid va v) := of_none rfl
theorem hostTlbInvalidate (asid : Nat) (all : Bool) (va : BitVec 64) : Statement (.hostTlbInvalidate asid all va) := of_none rfl
theorem tcfgWrite (v : BitVec 64) : Statement (.tcfgWrite v) := of_none rfl
theorem tresWrite (v : BitVec 64) : Statement (.tresWrite v) := of_none rfl
theorem hostRegisterWrite (reg : HostReg) (v : BitVec 64) : Statement (.hostRegisterWrite reg v) := of_none rfl
theorem scratchpadStorePerformed (core : Nat) (q : Nat) : Statement (.scratchpadStorePerformed core q) := of_none rfl
theorem barrierEntryFree (core : Nat) (q : Nat) : Statement (.barrierEntryFree core q) := of_none rfl
theorem softError (site : ErrSite) (correctable : Bool) : Statement (.softError site correctable) := of_none rfl

end Sys2Proof.Laws.RoundTrip
end

