-- ==== Sys2Proof/Tests/Slice0.lean ====
section
/-! SUPPORT. Tests: the checks of well-formedness, words written from the spec's encodings, small runs of one step with
results worked out from the spec, and for every statement with hypotheses a state and operands that meet them. -/
namespace Sys2Proof.Tests
open Sys2Proof Sys2Proof.Machine Sys2Proof.Claims

/-! ### A small machine: q0 of core 0 issues, holds every unit, and has one page mapped onto itself -/

def page0 : Page := { asid := 0, va := 0x10000, size := 65536, pa := 0x10000, w := true, x := true }
def seq0 : Seq := { Seq.init with run := .running, pc := 0x10000, tlb := [page0], sregs := [(0, 0x10000)] }
def core0 : Core := { Core.init with seqs := [(0, seq0)], claim := 0x7F, held := 0x7F, scratchBanks := 4 }
def issue0 : Issue := { Issue.init with addr := 0x10000, ext := [none, none, none, none], live := true }
def base : State := { State.reset with cores := [(0, core0)], cur := issue0 }

/-- The machine with its sequencer, or its core, changed. -/
def onSeq (f : Seq → Seq) : State := { base with cores := [(0, { core0 with seqs := [(0, f seq0)] })] }
def onCore (f : Core → Core) : State := { base with cores := [(0, f core0)] }
/-- The machine with a handler running. -/
def handling : State := onSeq fun x => { x with handler := true }

/-- What a step leaves, where it answers a next state. -/
def after (o : Out) (f : State → Bool) : Bool := match o with | .next t => f t | _ => false

/-- The moved value of s0, and of v0. -/
theorem reads_s0 (f : Seq → Seq) (h : (f seq0).sregs = seq0.sregs) : readSrc 0 .s (onSeq f) = .val (.s 0x10000) (onSeq f) := by
  have : (onSeq f).me.sreg 0 = 0x10000 := by
    show mapGet 0 (f seq0).sregs 0 = 0x10000
    rw [h]
    rfl
  simp [readSrc, this]

/-! ### Well-formedness -/

theorem test_wf_trigger_as_move : (Instr.move 0 0x100 0).wf = false := by decide
theorem test_wf_push_as_move : (Instr.move 0 0x0B4 0).wf = false := by decide
theorem test_wf_pop_as_move : (Instr.move 0 0 0x0A9).wf = false ∧ (Instr.move 0 0 0x0AA).wf = false ∧ (Instr.move 0 0 0x0AC).wf = false := by decide
theorem test_wf_pop_into_trigger : (Instr.lqPop 0 0x1C0).wf = false ∧ (Instr.cxPop 0 0x200).wf = false ∧ (Instr.cqPop 0 0x0B4).wf = false := by decide
theorem test_wf_core : (Instr.bundleIssue 512 0).wf = false ∧ (Instr.bundleIssue 511 1).wf = true := by decide
theorem test_wf_sequencer : (Instr.merge 0 2).wf = false := by decide
theorem test_wf_slot : (Instr.trapEntry 0 0 0 4 0).wf = false := by decide
theorem test_wf_die : (Instr.schedulerSelect 4).wf = false := by decide
theorem test_wf_ring : (Instr.xformRequest 0 16).wf = false ∧ (Instr.xformRequest 65536 0).wf = false := by decide
theorem test_wf_asid : (Instr.imageLoad 0 65536 0 []).wf = false ∧ (Instr.hostWrite 65537 0 (.load 1)).wf = false := by decide

/-! ### Words written from the spec's encodings (R44 to R51, R59, R84) -/

theorem test_word_move : decodeSlot 1 0b00000000000000001100000010100000#32 = .ok (.move 0 12 0x0A0) := rfl
theorem test_word_wide : decodeSlot 3 0b01000000001010000000000000000001#32 = .ok (.wideImmediateMove 5 1) := rfl
theorem test_word_header : decodeSlot 0 0b11110100000000010000000000000011#32 = .ok (.header 1 1 0 1 1 0 3) := rfl
theorem test_word_pop : decodeSlot 0 0b00000000000000000001000010101001#32 = .ok (.lqPop 0 1) := rfl
theorem test_word_im : decodeSlot 0 0b00000000000110000011000000000010#32 = .ok (.imDiv 0 2) := rfl
theorem test_word_pl : decodeSlot 0 0b00000000000110101000000001100001#32 = .ok (.plPfirst 0 0x061) := rfl
theorem test_word_lq : decodeSlot 0 0b00000000000111000110000000000011#32 = .ok (.lqLdd 0 3) := rfl
theorem test_word_sq : decodeSlot 2 0b00000000000111010011000001000001#32 = .ok (.sqSct 0 0x041) := rfl
theorem test_word_ag : decodeSlot 0 0b00000000000111010101100000001001#32 = .ok (.agSld 0 0x809) := rfl
/-- The words of the vector chapter's encoding table; the guarded `vx.vfadd` from the fields that its row gives (log
entry 88). -/
theorem test_word_vx : decodeSlot 0 0x00200042#32 = .ok (.vxVadd 0 0x042) ∧ decodeSlot 0 0x02A1A042#32 = .ok (.vxVfadd 5 0x042) ∧
    decodeSlot 0 0x2323E041#32 = .ok (.vxVfredadd 0x46 0x041) ∧ decodeSlot 0 0x000660A6#32 = .ok (.move 0 0x066 0x0A6) := ⟨rfl, rfl, rfl, rfl⟩
theorem test_word_mx : decodeSlot 0 0b00000000001100000000000000000000#32 = .ok (.mxMma 0 0) := rfl
theorem test_word_tf : decodeSlot 0 0b00000000001100001001000000000000#32 = .ok (.tfTcvt 0 0) := rfl
theorem test_word_dg : decodeSlot 0 0b00000000001101000101000000000000#32 = .ok (.dgDregion 0 0) := rfl
theorem test_word_sy : decodeSlot 1 0x0036E005#32 = .ok (.syBarv 0 5) := rfl
theorem test_word_cx : decodeSlot 0 0b00000000001101110100000001000000#32 = .ok (.cxMcst 0 0x040) := rfl
theorem test_word_kv : decodeSlot 0 0b00000000001110100011000000000000#32 = .ok (.kvApp 0 0) := rfl
theorem test_word_ep : decodeSlot 0 0b00000000001110100110000000000000#32 = .ok (.epRep 0 0) := rfl
theorem test_word_xk : decodeSlot 0 0b00000000001110101001000000000000#32 = .ok (.xkKick 0 0) := rfl
theorem test_word_cr : decodeSlot 0 0b00000000001111000001000000000000#32 = .ok (.crWr 0 0) := rfl
theorem test_word_halt : decodeSlot 3 0xCE000000#32 = .ok (.halt 0 0) := rfl
theorem test_word_halt_as_header : decodeSlot 0 0xCE000000#32 = .error .headerBits := rfl
theorem test_word_reserved_trigger : decodeSlot 0 0b00000000000100011001000000000000#32 = .ok (.move 0 0x119 0) := rfl
/-- The words of the table of control words (R51, R84). -/
theorem test_word_control : decodeSlot 3 0xC221FFFD#32 = .ok (.br 4 0 0 0x1FFFD) ∧ decodeSlot 3 0xC2260005#32 = .ok (.br 4 1 1 5) ∧
    decodeSlot 3 0xC8000000#32 = .ok (.ret 0 0) ∧ decodeSlot 3 0xCA009000#32 = .ok (.loop 9 0) ∧ decodeSlot 3 0xCC000003#32 = .ok (.loopq 3) ∧
    decodeSlot 3 0xD4000002#32 = .ok (.wake 0 0 2) ∧ decodeSlot 3 0xD6000001#32 = .ok (.cede 1) := ⟨rfl, rfl, rfl, rfl, rfl, rfl, rfl⟩

/-! ### States that meet the hypotheses of the statements

`witness_<Name>` is about the statement `Obligations.<Name>`, clause by clause where the clauses have hypotheses of
their own. -/

/-- The moved value is s0. -/
theorem triggers_base : Triggers base 0 0 (.s 0x10000) base := ⟨rfl, rfl, rfl⟩
/-- The moved value is the immediate 1. -/
theorem triggers_one : Triggers base 0 0x801 (.s 1) base := ⟨rfl, rfl, rfl⟩
theorem vxReads_base : VxReads base 0 0x040 (.v zeroVec) base := ⟨rfl, rfl, by decide, rfl⟩
theorem leased_base (u : UnitId) : Leased u base 0 0 (.s 0x10000) base := ⟨by cases u <;> rfl, triggers_base⟩

theorem witness_IntegerAluResults : base.cur.live = true ∧ (base.guardMask 0).getLsbD 0 = true ∧ readSrc 0 .s base = .val (.s 0x10000) base :=
  ⟨rfl, rfl, rfl⟩
theorem witness_IntegerAluResults_addresses : iaRules[0]?.isSome = true ∧ iaRules[24]?.isSome = true := ⟨rfl, rfl⟩
theorem witness_MultiplierResults : base.cur.live = true ∧ (base.guardMask 0).getLsbD 0 = true ∧ readSrc 0 .s base = .val (.s 0x10000) base :=
  witness_IntegerAluResults
/-- A source that is read whatever the guard, and a pop of the count queue whose guard bit is set. -/
theorem witness_PredicateUnitResults : SourceRead base 1 0x060 .p (.p Word.ones) base ∧ (base.guardMask 0).getLsbD 0 = true :=
  ⟨⟨rfl, by decide, rfl⟩, rfl⟩
theorem witness_PredicateUnitResults_addresses : plRules[0]?.isSome = true ∧ plRules[9]?.isSome = true := ⟨rfl, rfl⟩
theorem witness_VectorIntegerResults : VxReads base 0 0x040 (.v zeroVec) base ∧ laneRules[0]?.isSome = true ∧ laneRules[19]?.isSome = true :=
  ⟨vxReads_base, rfl, rfl⟩
theorem witness_VectorCompareResults : VxReads base 0 0x040 (.v zeroVec) base ∧ compareRules[0]?.isSome = true ∧ compareRules[9]?.isSome = true :=
  ⟨vxReads_base, rfl, rfl⟩
theorem witness_VectorFloatResults : VxReads base 0 0x040 (.v zeroVec) base := vxReads_base
theorem witness_VectorQuantiseResults : VxReads base 0 0x040 (.v zeroVec) base := vxReads_base
theorem witness_VectorPermuteResults : VxReads base 0 0x040 (.v zeroVec) base ∧ permuteRules[0]?.isSome = true ∧ permuteRules[2]?.isSome = true :=
  ⟨vxReads_base, rfl, rfl⟩
theorem witness_VectorReductions : VxReads base 0 0x040 (.v zeroVec) base := vxReads_base
theorem witness_VectorScanResults : VxReads base 0 0x040 (.v zeroVec) base := vxReads_base
theorem witness_VectorTopkResult : VxReads base 0 0x040 (.v zeroVec) base := vxReads_base

/-- A descriptor of `stopk`: f32 keys of one byte's type 0, lane by lane. -/
def topkVec (n k tag : Nat) : Vec := mkVec fun i => if i = 1 then BitVec.ofNat 32 n else if i = 2 then BitVec.ofNat 32 k
  else if i = 5 then BitVec.ofNat 32 tag else 0
def topkState (n k tag : Nat) : State := onSeq fun x => { x with vregs := [(0, topkVec n k tag)] }
theorem witness_StopkStarts_least : let s := topkState 1 1 0
    VxReads s 0 0x040 (.v (topkVec 1 1 0)) s ∧ keyBytes 0 * 1 ≤ s.myCore.spadBytes ∧ 8 * 1 ≤ s.myCore.spadBytes ∧
      s.myCore.stopk = none ∧ s.myCore.ready 0 = true := by
  refine ⟨⟨rfl, rfl, by decide, rfl⟩, ?_, ?_, rfl, rfl⟩ <;> decide
theorem witness_StopkStarts_most : let s := topkState 4096 4096 15
    VxReads s 0 0x040 (.v (topkVec 4096 4096 15)) s ∧ keyBytes 0 * 4096 ≤ s.myCore.spadBytes ∧ 8 * 4096 ≤ s.myCore.spadBytes ∧
      s.myCore.stopk = none ∧ s.myCore.ready 15 = true := by
  refine ⟨⟨rfl, rfl, by decide, rfl⟩, ?_, ?_, rfl, rfl⟩ <;> decide

theorem resolves_base : base.resolve 0 0 .load 0x10000 = .at (.mem 0x10000) ∧ base.resolve 0 0 .store 0x10000 = .at (.mem 0x10000) ∧
    base.resolve 0 0 .atomic 0x10000 = .at (.mem 0x10000) := ⟨rfl, rfl, rfl⟩
theorem room_base : LoadRoom base := by
  unfold LoadRoom
  decide
theorem witness_LoadsEnterQueue : Triggers base 0 0 (.s 0x10000) base ∧ LoadRoom base ∧ 0x10000 % 256 = 0 ∧
    base.resolve 0 0 .load 0x10000 = .at (.mem 0x10000) ∧ base.me.ports.lqb.getLsbD 16 = false :=
  ⟨triggers_base, room_base, rfl, rfl, rfl⟩
/-- The base of a gather: the lanes of v0 add nothing. -/
def gathering : State := onSeq fun x => { x with ports := { x.ports with lqb := 0x10000, sqo := 0x10000 } }
theorem reads_gathering : readSrc 0x040 .v gathering = .val (.v zeroVec) gathering := rfl
theorem getD_zeros (n i : Nat) : (List.replicate n (0 : Lane)).getD i 0 = 0 := by
  rw [List.getD_eq_getElem?_getD, List.getElem?_replicate]
  split <;> rfl
theorem laneAt_zero (i : Nat) : laneAt 0x10000 zeroVec i = 0x10000 := by
  have : lane zeroVec i = 0 := getD_zeros 64 i
  simp [laneAt, this]
theorem witness_LoadsEnterQueue_gather : readSrc 0x040 .v gathering = .val (.v zeroVec) gathering ∧ LoadRoom gathering ∧
    ∀ i < 64, (gathering.guardMask 0).getLsbD i = true → laneAt gathering.me.ports.lqb zeroVec i % 4 = 0 ∧
      ∃ l, gathering.resolve gathering.cur.core gathering.cur.q .load (laneAt gathering.me.ports.lqb zeroVec i) = .at l := by
  refine ⟨reads_gathering, room_base, fun i _ _ => ?_⟩
  have : laneAt gathering.me.ports.lqb zeroVec i = 0x10000 := laneAt_zero i
  rw [this]
  exact ⟨rfl, .mem 0x10000, rfl⟩
/-- Alignment holds of every size here, and of none but one byte for a moved value of 1. -/
theorem witness_AccessChecks_misaligned : Triggers base 0 0x801 (.s 1) base ∧ LoadRoom base ∧ 1 % 2 ≠ 0 := ⟨triggers_one, room_base, by decide⟩
/-- No lane of v0 adds anything, so the first lane is the first that fails. -/
theorem witness_AccessChecks_lanes : let s := onSeq fun x => { x with ports := { x.ports with lqb := 0x10001, sqo := 0x10001 } }
    TriggersV s 0 0x040 (.v zeroVec) s ∧ LoadRoom s ∧ FirstMisaligned s s 0 .load s.me.ports.lqb zeroVec 64 0 ∧ s.me.stores.length < 64 ∧
      FirstMisaligned s s 0 .store s.me.ports.sqo zeroVec 32 0 := by
  have h : ∀ i, ¬ laneAt 0x10001 zeroVec i % 4 = 0 := fun i => by
    have : lane zeroVec i = 0 := getD_zeros 64 i
    simp [laneAt, this]
  refine ⟨⟨rfl, by decide, rfl⟩, ?_, ⟨?_, rfl, h 0, fun j _ _ e => absurd e (h j), ?_⟩, ?_, ⟨?_, rfl, h 0, fun j _ _ e => absurd e (h j), ?_⟩⟩
  · unfold LoadRoom
    decide
  all_goals first | decide | (intro j hj; omega)
theorem witness_AccessChecks_vector_store : let s := onSeq fun x => { x with ports := { x.ports with sqo := 0x10004 } }
    TriggersV s 0 0x040 (.v zeroVec) s ∧ s.me.stores.length < 64 ∧ s.me.ports.sqo.toNat % (64 * 2) ≠ 0 := by
  refine ⟨⟨rfl, by decide, rfl⟩, ?_, ?_⟩ <;> decide
theorem witness_AccessChecks_unread : base.cur.popped = none ∧ readSrc 0 .s base = .val (.s 0x10000) base := ⟨rfl, rfl⟩
theorem witness_AccessChecks_store : let s := onSeq fun x => { x with ports := { x.ports with sqo := 0x10001 } }
    Triggers s 0 0 (.s 0x10000) s ∧ s.me.stores.length < 64 ∧ s.me.ports.sqo.toNat % 2 ≠ 0 := by
  refine ⟨⟨rfl, rfl, rfl⟩, ?_, ?_⟩ <;> decide

def anyLoad : LoadEntry :=
  { order := 0, epoch := 0, landing := 0, kind := .scalar 8 false, cls := .s, check := none, fence := 0, parts := [.bytes (.mem 0x10000) 8],
    got := [], poisoned := false, performed := false, arrived := false, value := .s 0, mark := none, markAddr := 0, stampOk := true,
    silent := false }
def anyStore : StoreEntry := { order := 0, epoch := 0, kind := .plain, parts := [{ loc := .mem 0x10000, bytes := [some 7] }] }
/-- Queues with `n` entries: the last with room, and the first without. -/
def loaded (n : Nat) : State := onSeq fun x => { x with loads := List.replicate n anyLoad }
def stored (n : Nat) : State := onSeq fun x => { x with stores := List.replicate n anyStore }
theorem witness_AccessChecks_full : Triggers (loaded 64) 0 0 (.s 0x10000) (loaded 64) ∧ ¬ LoadRoom (loaded 64) ∧ LoadRoom (loaded 63) := by
  refine ⟨⟨rfl, rfl, rfl⟩, ?_, ?_⟩ <;> (unfold LoadRoom; decide)
theorem witness_AccessChecks_freeze : Triggers (stored 64) 0 0 (.s 0x10000) (stored 64) ∧ 64 ≤ (stored 64).me.stores.length :=
  ⟨⟨rfl, rfl, rfl⟩, by decide⟩
theorem witness_ScalarStoresEnterQueue : Triggers gathering 0 0 (.s 0x10000) gathering ∧ gathering.me.stores.length < 64 ∧
    gathering.me.ports.sqo.toNat % 8 = 0 ∧
    gathering.resolve gathering.cur.core gathering.cur.q .store gathering.me.ports.sqo.toNat = .at (.mem 0x10000) :=
  ⟨⟨rfl, rfl, rfl⟩, by decide, by decide, rfl⟩
theorem witness_VectorStoresEnterQueue : readSrc 0x040 .v gathering = .val (.v zeroVec) gathering ∧ gathering.cur.live = true ∧
    gathering.me.stores.length < 64 ∧ gathering.me.ports.sqo.toNat % 256 = 0 ∧
    gathering.resolve gathering.cur.core gathering.cur.q .store gathering.me.ports.sqo.toNat = .at (.mem 0x10000) :=
  ⟨reads_gathering, rfl, by decide, by decide, rfl⟩
theorem witness_VectorStoresEnterQueue_scatter : ∀ i < 32, (gathering.guardMask 0).getLsbD i = true →
    laneAt gathering.me.ports.sqo zeroVec i % 4 = 0 ∧
      gathering.resolve gathering.cur.core gathering.cur.q .store (laneAt gathering.me.ports.sqo zeroVec i) = .at (.mem 0x10000) := by
  intro i _ _
  have : laneAt gathering.me.ports.sqo zeroVec i = 0x10000 := laneAt_zero i
  rw [this]
  exact ⟨rfl, rfl⟩
theorem witness_MarkersEnterQueues : Triggers base 0 0 (.s 0x10000) base := triggers_base

theorem witness_MoveResults : Moves base 0 0x000 0x801 (.s 1) base ∧ Moves base 0 0x060 0x060 (.p Word.ones) base ∧
    Moves base 0 0x0B3 0x801 (.s 1) base := by
  refine ⟨⟨rfl, ?_, rfl, fun _ => rfl, rfl⟩, ⟨rfl, ?_, rfl, fun _ => rfl, rfl⟩, ⟨rfl, ?_, rfl, fun _ => rfl, rfl⟩⟩ <;> decide
theorem witness_MoveResults_trigger : (triggerOf 0 0x100 (wideSource 1)).isSome = true ∧ base.cur.slot < 4 := ⟨rfl, by decide⟩
theorem witness_RegisterWrites : (0x000 : Nat) < 0xA0 ∧ 0x60 < 0x9F := by decide

def landed : LoadEntry := { anyLoad with performed := true, value := .s 5 }
/-- Issued after that entry had been placed. -/
def popping (e : LoadEntry) : State := { (onSeq fun x => { x with loads := [e] }) with cur := { issue0 with order := 1 } }
theorem witness_QueuePops_none : (0 : BitVec 11).toNat < 0xB4 ∧ base.mayReach (destUnit 0) = true ∧ (base.guardMask 0).getLsbD 0 = true ∧
    popFirst base.me.loadQueue = none := ⟨by decide, rfl, rfl, rfl⟩
/-- The five ways of `lq.pop` at an entry: placed by this bundle, too early, its data not there, marked, and delivered. -/
theorem witness_QueuePops_entry :
    (popping { landed with order := 1 }).cur.order ≤ 1 ∧ ¬ (popping landed).cur.order ≤ landed.order ∧
    (popFirst (popping { landed with landing := 2 }).me.loadQueue).isSome = true ∧
    (popping { landed with landing := 2 }).me.handler = false ∧ (popping { landed with landing := 2 }).me.cycle < 2 ∧
    ((popFirst (popping landed).me.loadQueue).map fun e => e.1.arrived) = some false ∧
    ((popFirst (popping { landed with arrived := true, mark := some .eccUncorrectable }).me.loadQueue).map fun e => e.1.mark) = some (some .eccUncorrectable) ∧
    ((popFirst (popping { landed with arrived := true }).me.loadQueue).map fun e => e.1.mark) = some none ∧
    (popping landed).cur.live = true := by
  refine ⟨?_, ?_, rfl, rfl, ?_, rfl, rfl, rfl, rfl⟩ <;> decide
def counted (n : Nat) : State := onSeq fun x => { x with countQueue := List.replicate n 3 }
theorem witness_QueuePops_count : Triggers (counted 31) 0 0 (.s 0x10000) (counted 31) ∧ (counted 31).me.countQueue.length < 32 ∧
    Triggers (counted 32) 0 0 (.s 0x10000) (counted 32) ∧ ¬ (counted 32).me.countQueue.length < 32 :=
  ⟨⟨rfl, rfl, rfl⟩, by decide, ⟨rfl, rfl, rfl⟩, by decide⟩
theorem witness_QueuePops_circuit : base.mayReach (some .cx) = true ∧ base.noteCircuit.myCore.circuit = [] ∧
    (onCore fun k => { k with circuit := [{ src := 1, val := zeroVec, poisoned := false }] }).noteCircuit.myCore.circuit ≠ [] ∧
    ((onCore fun k => { k with circuit := [{ src := 1, val := zeroVec, poisoned := true }] }).noteCircuit.myCore.circuit.map (·.poisoned)) = [true] :=
  ⟨rfl, rfl, by decide, rfl⟩

theorem witness_StreamRegisterResults : Triggers base 0 0x801 (.s 1) base ∧ 1 / 16 % 16 ≤ 8 := ⟨triggers_one, by decide⟩
/-- The codes 8 and 9, where the fields end. -/
theorem witness_StreamRegisterResults_codes : ((base.me.stream 0).setField base 8 0).isSome = true ∧ ((base.me.stream 0).setField base 9 0).isSome = false :=
  ⟨rfl, rfl⟩
/-- A shape record: one row of `cols` elements of format `fmt` at 0x10000. -/
def record (fmt cols : Nat) : List Byte := natBytes 64 (0x10000 + fmt * 2 ^ 64 + 1 * 2 ^ 80 + cols * 2 ^ 96 + 256 * 2 ^ 128)
theorem witness_StreamRegisterResults_record : let s := onSeq fun x => { x with recordBuf := some (some (record 7 64)) }
    Triggers s 0 0x801 (.s 1) s ∧ s.me.recordBuf = some (some (record 7 64)) ∧ recordValid (record 7 64) = true ∧
      recordValid (record 0 64) = false := ⟨⟨rfl, rfl, rfl⟩, rfl, rfl, rfl⟩

def stream0 : Stream := { Stream.init with base := 0x10000, fmt := 7, rows := 1, cols := 64, rstride := 256 }
def streaming : State := onSeq fun x => { x with streams := [(0, stream0)] }
theorem witness_StreamRowResults : let s := streaming
    let d := s.me.stream 0
    let runs := ((rowRuns 7 64 0x10000 0).map cutRun).flatten
    Triggers s 0 0 (.s 0x10000) s ∧ d.mode = 0 ∧ d.valid = true ∧ d.pos.toNat < d.rows.toNat ∧ s.me.ports.lqb.getLsbD 16 = false ∧
      (∀ p ∈ runs, resolveStream s d .load p.1 = .at (.mem p.1)) ∧ ∀ p ∈ runs, resolveStream s d .store p.1 = .at (.mem p.1) := by
  refine ⟨⟨rfl, rfl, rfl⟩, rfl, rfl, ?_, rfl, ?_, ?_⟩ <;> decide

/-- The control register whose code is in s1, read by `s1 -> cr.rd`. -/
def naming (c : Word) (asid : Nat) (o : Word) : State :=
  onSeq fun x => { x with sregs := [(1, c)], asid := asid, ports := { x.ports with cro := o } }
theorem witness_ControlRegisterResults : Triggers (naming 0x101 0 0) 0 1 (.s 0x101) (naming 0x101 0 0) ∧ (naming 0x101 0 0).me.asid = 0 ∧
    Triggers (naming 0x005 0 0) 0 1 (.s 0x005) (naming 0x005 0 0) ∧
    (5 : Nat) ∉ [0x000, 0x001, 0x002, 0x003, 0x004, 0x010, 0x020, 0x030, 0x040, 0x100, 0x101] ∧
    Triggers (naming 0x100 1 0) 0 1 (.s 0x100) (naming 0x100 1 0) ∧ (naming 0x100 1 0).me.asid ≠ 0 :=
  ⟨⟨rfl, rfl, rfl⟩, rfl, ⟨rfl, rfl, rfl⟩, by decide, ⟨rfl, rfl, rfl⟩, by decide⟩
theorem witness_ControlRegisterResults_operand : (naming 1 0 1).me.ports.cro.getLsbD 1 = false ∧ (naming 1 0 2).me.ports.cro.getLsbD 1 = true ∧
    (naming 1 0 0).me.ports.cro = 0 ∧ (naming 1 0 2).me.ports.cro ≠ 0 ∧ (naming 1 0 2).me.stores = [] ∧
    (naming 1 0 2).me.loads ++ (naming 1 0 2).me.handlerLoads = [] := ⟨rfl, rfl, rfl, by decide, rfl, rfl⟩

/-- A range whose piece has its translation, with its line cached, clean or dirty; and one whose piece misses. -/
def caching (dirty : Bool) : State :=
  onCore fun k => { k with
    seqs := [(0, { seq0 with stores := [{ anyStore with parts := [{ loc := .mem 0x10000, bytes := [some 7], dirty := dirty }], left := 1 }] })]
    cache := [{ bank := 4, frame := 0, line := 0x100, sectors := [some ([], false)], used := 0 }] }
theorem witness_ControlRegisterResults_lines : (∀ p ∈ cinvPieces 0x10000 8, ¬(base.me.tlbHit p.1 = none ∧ base.me.walkFailed base.me.asid p.1 = false)) ∧
    (∃ p ∈ cinvPieces 0x30000 8, base.me.tlbHit p.1 = none ∧ base.me.walkFailed base.me.asid p.1 = false) ∧
    (caching false).rangeLines 0 0 0x10000 8 = [0x100] ∧ (caching false).myCore.lineDirty 0x100 = false ∧
    (caching true).myCore.lineDirty 0x100 = true := by
  refine ⟨?_, ?_, ?_, ?_, ?_⟩ <;> decide
/-- p1 with bit 0 alone set: a mixed condition. -/
def mixed : State := { base with cur := { issue0 with preds := [(1, 1)] } }
theorem witness_ConditionDecides : base.cur.live = true ∧ conditionOf base 1 0 = 0 ∧ conditionOf mixed 1 0 ≠ 0 ∧
    conditionOf mixed 1 0 ≠ Word.ones := ⟨rfl, rfl, by decide, by decide⟩
theorem witness_BranchResults : base.cur.live = true ∧ conditionOf base 0 0 = Word.ones ∧ conditionOf base 1 1 = Word.ones ∧
    (base.me.sreg 0).toNat % 16 = 0 ∧ (base.me.sreg 63).toNat % 16 = 0 ∧
    ((onSeq fun x => { x with sregs := [(63, 1)] }).me.sreg 63).toNat % 16 ≠ 0 := by
  refine ⟨rfl, rfl, rfl, ?_, ?_, ?_⟩ <;> decide
/-- Six entries fill the loop stack. -/
def looping (n : Nat) : State :=
  onSeq fun x => { x with loops := List.replicate n { start := 0x10000, stop := 0x10010, remaining := 2, passes := 0 }, countQueue := [1] }
/-- `brx.pop` leaves the outer loops. -/
theorem witness_BranchResults_pop : (looping 2).me.loopStack.tail.length = 1 ∧ conditionOf (looping 2) 0 0 = Word.ones := ⟨rfl, rfl⟩
theorem witness_LoopResults : 6 ≤ (looping 6).me.loopStack.length ∧ ¬ 6 ≤ (looping 5).me.loopStack.length ∧ (looping 5).me.sreg 0 ≠ 0 ∧
    (looping 5).me.sreg 1 = 0 ∧ base.me.countQueue = [] ∧ (looping 0).me.countQueue ≠ [] := by
  refine ⟨?_, ?_, ?_, rfl, rfl, ?_⟩ <;> decide
/-- q1 idle, ending and running. -/
def other (r : Run) : State := { base with cores := [(0, { core0 with seqs := [(0, seq0), (1, { seq0 with run := r })] })] }
theorem witness_UnitControlResults : conditionOf base 0 0 = Word.ones ∧ ((other .idle).myCore.seq (1 - (other .idle).cur.q)).run = .idle ∧
    ((other .ending).myCore.seq (1 - (other .ending).cur.q)).run = .ending ∧
    ((other .running).myCore.seq (1 - (other .running).cur.q)).run = .running := ⟨rfl, rfl, rfl, rfl⟩
theorem witness_UnitControlResults_cede : (1 : BitVec 7) ≠ 0 ∧ handling.me.handler = true ∧
    (onCore fun k => { k with held := 0 }).myCore.holds 0 0 = false ∧ base.me.handler = false ∧
    (∀ b < 7, (0x7F : BitVec 7).getLsbD b = true → base.myCore.holds base.cur.q b = true) ∧ base.myCore.inFlight 0x7F = false := by
  refine ⟨?_, rfl, rfl, rfl, ?_, ?_⟩ <;> decide
/-- A result of vx in flight, and a `halt` with the other sequencer running, idle and ending. -/
theorem witness_UnitControlResults_flight : let s := onCore fun k => { k with vxr := { k.vxr with queue := [{ trig := 0, vis := 9, val := .v zeroVec }] } }
    s.myCore.inFlight 1 = true ∧ s.me.done = false ∧ (heldBits s.myCore s.cur.q).getLsbD 0 = true ∧
      ((other .running).myCore.seq 1).run = .running ∧ ((other .idle).myCore.seq 1).run ≠ .running ∧ conditionOf base 0 0 = Word.ones := by
  refine ⟨rfl, rfl, ?_, rfl, ?_, rfl⟩ <;> decide
theorem witness_UnitControlResults_wait : (∀ t < 16, (0xFFFF : BitVec 16).getLsbD t = true → mapGet false base.myCore.notReady t = false) ∧
    (base.myCore.seq base.cur.q).stores = [] ∧ (base.myCore.seq base.cur.q).loadQueue = [] ∧
    ((loaded 1).myCore.seq (loaded 1).cur.q).loadQueue ≠ [] ∧ anyLoad.arrived = false := by
  refine ⟨?_, rfl, rfl, ?_, rfl⟩ <;> decide

/-! ### Tiles: s2 holds the operand of the trigger, tiles 1 to 3 what it reads -/

def tileOf (fmt rows cols : Nat) (d : List Byte) : Tile := { Tile.init with state := .resident, fmt := fmt, rows := rows, cols := cols, data := d, granules := 1 }
def tiled (t : Word) (f : Core → Core) : State :=
  onCore fun k => f { k with
    seqs := [(0, { seq0 with sregs := [(2, t)] })]
    tiles := [(1, tileOf 2 1 4 [1, 2, 3, 4]), (2, tileOf 2 4 1 [5, 6, 7, 8]), (3, tileOf 2 8 1 (List.replicate 8 1)), (4, tileOf 1 1 1 [0x44])] }
theorem witness_MatrixProductStarts : let k := (tiled 0x210 id).myCore
    Leased .mx (tiled 0x210 id) 0 2 (.s 0x210) (tiled 0x210 id) ∧ TilesFree k [0] [1, 2] k.mxOps 4 ∧ ProductOperands k 1 2 1 2 1 ∧ ((List.range 1).map fun i => (k.tile (1 + i)).cols).sum ≤ 256 ∧
      ProductOutput k 0 1 1 6 false [1, 2] := by
  refine ⟨⟨rfl, rfl, rfl, rfl⟩, ?_, ?_, ?_, ?_⟩ <;> (first | unfold TilesFree | unfold ProductOperands | unfold ProductOutput | skip) <;> decide
theorem witness_SparseProductStarts : let k := (tiled 0x20310 id).myCore
    TilesFree k [0] [1, 3, 4] k.mxOps 4 ∧ ProductOperands k 1 3 1 2 2 ∧ (k.tile 4).state = .resident ∧ (k.tile 4).fmt = 1 ∧
      (k.tile 4).rows = (k.tile 1).rows ∧ (k.tile 4).cols = 8 / 8 ∧
      (∀ r < (k.tile 1).rows, ∀ j < 8 / 4,
        let nib := ((k.tile 4).data.getD (r * (k.tile 4).cols + j / 2) 0).toNat / 2 ^ (4 * (j % 2)) % 16
        nib % 4 < nib / 4) ∧
      ProductOutput k 0 1 1 6 false [1, 3, 4] := by
  refine ⟨?_, ?_, rfl, rfl, rfl, rfl, ?_, ?_⟩ <;> (first | unfold TilesFree | unfold ProductOperands | unfold ProductOutput | skip) <;> decide
/-- One group, of the one row of A: offsets 0 and 1. -/
theorem witness_GroupedProductStarts : let k := (tiled 0x8210 fun k => { k with mxo := 0x100 }).myCore
    TilesFree k [0] [1, 2] k.mxOps 4 ∧ (k.tile 1).state ≠ .empty ∧ (k.tile 2).state ≠ .empty ∧ (k.tile 2).fmt = (k.tile 1).fmt ∧
      (k.tile 2).rows = (k.tile 1).cols ∧ ProductOutput k 0 1 1 6 false [1, 2] ∧
      k.mxo.toNat / 2 ^ (8 * 0) % 256 ≤ k.mxo.toNat / 2 ^ (8 * 1) % 256 ∧ k.mxo.toNat / 2 ^ (8 * 1) % 256 ≤ (k.tile 1).rows := by
  refine ⟨?_, ?_, ?_, rfl, rfl, ?_, ?_, ?_⟩ <;> (first | unfold TilesFree | unfold ProductOutput | skip) <;> decide
theorem witness_ZeroAndDrainStart : let k := (tiled 1 id).myCore
    TilesFree k [1] [] k.mxOps 4 ∧ k.granulesBut 1 + granulesOf 7 1 1 ≤ 40 * k.operandBanks ∧ TilesFree k [] [1] k.mxOps 4 ∧
      (k.tile 1).state = .resident ∧ (k.tile 1).bad = [] ∧ (k.tile 0).state ≠ .resident := by
  refine ⟨?_, ?_, ?_, rfl, rfl, ?_⟩ <;> (first | unfold TilesFree | skip) <;> decide
/-- Tile 1 with a poisoned word, and no operand bank for what `mzero` writes. -/
theorem witness_ZeroAndDrainStart_poison :
    let k := (tiled 1 fun k => { k with tiles := [(1, { tileOf 2 1 4 [1, 2, 3, 4] with bad := [2] })], operandBanks := 0 }).myCore
    TilesFree k [] [1] k.mxOps 4 ∧ (k.tile 1).state = .resident ∧ (k.tile 1).bad ≠ [] ∧
      ¬ k.granulesBut 1 + granulesOf 7 1 1 ≤ 40 * k.operandBanks := by
  refine ⟨?_, rfl, ?_, ?_⟩ <;> (first | unfold TilesFree | skip) <;> decide
theorem witness_TileOperationsWait : let k := (tiled 1 fun k => { k with notReady := [(1, true)] }).myCore
    (∀ r, ¬ TilesFree k [1] r k.mxOps 4) ∧ (∀ r, ¬ TilesFree k [1] r k.tfOps 8) ∧ ¬ TilesFree k [] [1] k.mxOps 4 ∧ ¬ TilesFree k [] [1] k.tfOps 8 ∧
      (tiled 1 id).me.stores.length < 64 := by
  refine ⟨fun r h => absurd (h.2.1 1 (by simp)).1 ?_, fun r h => absurd (h.2.1 1 (by simp)).1 ?_, fun h => absurd (h.1 1 (by simp)) ?_,
    fun h => absurd (h.1 1 (by simp)) ?_, ?_⟩ <;> decide
/-- Tile 1 into tile 0, in its own format. -/
theorem witness_ConvertAndRelease : let k := (tiled 0x120 id).myCore
    TilesFree k [0] [1] k.tfOps 8 ∧ (k.tile 1).state = .resident ∧ (k.tile 1).fmt = 2 ∧ hxOf 2 = none ∧
      k.granulesBut 0 + granulesOf 2 1 4 ≤ 40 * k.operandBanks ∧ TilesFree k [0] [] k.tfOps 8 := by
  refine ⟨?_, rfl, rfl, rfl, ?_, ?_⟩ <;> (first | unfold TilesFree | skip) <;> decide
/-- A record of one row of four i8 at 0x10000, as tile 1 has them. -/
def transferring (t : Word) : State :=
  { tiled t id with cores := (tiled t id).cores.map fun e => (e.1, { e.2 with seqs := [(0, { seq0 with sregs := [(2, t)], recordBuf := some (some (record 2 4)) })] })
                    dies := [(0, { Die.init with remways := 1 })] }
theorem witness_TileTransfersStart : let s := transferring 1
    let d := parseShape (record 2 4)
    Leased .tf s 0 2 (.s 1) s ∧ s.me.recordBuf = some (some (record 2 4)) ∧ recordValid (record 2 4) = true ∧
      field (record 2 4) 40 1 / 4 = 0 ∧ field (record 2 4) 41 23 = 0 ∧ d.mode = 0 ∧ d.zpack = false ∧ d.rows = 1 ∧ d.fmt = 2 ∧
      d.tileDims = (1, 4) ∧ (s.myCore.tile 1).fmt = 2 ∧ s.me.stores.length < 64 ∧ s.me.ports.lqb.getLsbD 16 = false ∧
      (s.die (dieOf s.cur.core)).remways ≠ 0 := by
  refine ⟨⟨rfl, rfl, rfl, rfl⟩, rfl, rfl, rfl, rfl, rfl, rfl, rfl, rfl, rfl, rfl, ?_, rfl, ?_⟩ <;> decide
theorem witness_TileTransfersStart_places : let s := transferring 1
    let runs := (((parseShape (record 2 4)).runs [0x10000]).map cutRun).flatten
    (∀ p ∈ runs, resolveStream s Stream.init .load p.1 = .at (.mem p.1)) ∧ (∀ p ∈ runs, resolveStream s Stream.init .store p.1 = .at (.mem p.1)) ∧
      s.myCore.granulesBut 1 + granulesOf 2 1 4 ≤ 40 * s.myCore.operandBanks ∧
      s.myCore.pinnedBut 1 + ((bytesOf (runs.map fun p => (Loc.mem p.1, p.2))).map lineIndex).eraseDups.length ≤ 256 ∧
      TilesFree s.myCore [1] [] s.myCore.tfOps 8 ∧ TilesFree s.myCore [] [1] s.myCore.tfOps 8 := by
  refine ⟨?_, ?_, ?_, ?_, ?_, ?_⟩ <;> (first | unfold TilesFree | skip) <;> decide

/-! ### Memory with tables: each word below at its address, least significant byte first -/

def filled (l : List (Nat × Nat × Nat)) (s : State) : State := l.foldl (fun s e => s.writeMem e.1 ((natBytes e.2.1 e.2.2).map some)) s
/-- The context entry of ASID 0 and a page table that maps every address onto itself. -/
def contexts : List (Nat × Nat × Nat) := [(0x1B000, 8, 0x12000), (0x1B008, 8, 0x18000), (0x1B010, 8, 0x19000), (0x12000, 8, 0x14001), (0x14000, 8, 0xF)]
def tabled (l : List (Nat × Nat × Nat)) (s : State) : State := { filled (contexts ++ l) s with ctxbase := 0x1B000 }

/-- A region of one page, at line 0 of which the run starts, with `n` lines asked for. -/
def region0 : Region := { serial := 0, base := 0x10000, length := 65536, etype := 1, kind := 3, seed := 0, dbase := 0x1D000, pages := [0x10000] }
def digesting (n : BitVec 32) : State :=
  { onSeq (fun x => { x with ports := { x.ports with dgo := [0, 0, 0, n] } }) with
    digbase := 1, regions := [(0, some region0)], captured := [(1, some { region := 0, dbase := 0x1D000 })] }
theorem runs_digesting (s : State) (n : Nat) (hn : 1 ≤ n ∧ n ≤ 64) (hd : s.digbase.getLsbD 0 = true) (hr : s.region 0 = some region0)
    (h : ∀ j < 64, inAperture (0x10000 + 256 * j) = false ∧ s.resolve s.cur.core s.cur.q .load (0x10000 + 256 * j) = .at (.mem (0x10000 + 256 * j)) ∧
      (mapGet none s.captured ((0x10000 + 256 * j) / 65536)).map (·.region) = some 0) :
    RunInRegion s 0x10000 n (fun j => 0x10000 + 256 * j) 0 region0 := by
  refine ⟨hn.1, hn.2, hd, hr, fun j hj => ?_⟩
  obtain ⟨h1, h2, h3⟩ := h j (by omega)
  obtain ⟨c, hc, he⟩ := Option.map_eq_some_iff.mp h3
  exact ⟨h1, h2, c, hc, he⟩
theorem witness_DigestTriggers_least : Triggers (digesting 1) 0 0 (.s 0x10000) (digesting 1) ∧
    RunInRegion (digesting 1) 0x10000 1 (fun j => 0x10000 + 256 * j) 0 region0 :=
  ⟨⟨rfl, rfl, rfl⟩, runs_digesting _ 1 (by decide) rfl rfl (by decide)⟩
theorem witness_DigestTriggers_most : Triggers (digesting 64) 0 0 (.s 0x10000) (digesting 64) ∧
    (lane (digesting 64).me.ports.dgo 3).toNat % 128 = 64 ∧
    RunInRegion (digesting 64) 0x10000 64 (fun j => 0x10000 + 256 * j) 0 region0 :=
  ⟨⟨rfl, rfl, rfl⟩, rfl, runs_digesting _ 64 (by decide) rfl rfl (by decide)⟩
theorem witness_DigestTriggers_outside : (lane (digesting 65).me.ports.dgo 3).toNat % 128 = 65 ∧ (lane (digesting 0).me.ports.dgo 3).toNat % 128 = 0 ∧
    LoadRoom (digesting 65) ∧ (digesting 65).me.stores.length < 64 := by
  refine ⟨rfl, rfl, ?_, ?_⟩ <;> (first | unfold LoadRoom | skip) <;> decide

/-- A stamp check is asked for, and the line lies in the region. -/
theorem witness_LoadsEnterQueue_checked :
    let s := { digesting 1 with cores := [(0, { core0 with seqs := [(0, { seq0 with ports := { seq0.ports with lqb := 0x10000 } })] })] }
    Triggers s 0 0 (.s 0x10000) s ∧ s.me.ports.lqb.getLsbD 16 = true ∧ s.inRegion (.mem 0x10000) = true := ⟨⟨rfl, rfl, rfl⟩, rfl, by decide⟩
/-- The table of ASID 0, with an entry for the page at 0x10000, or with one that is not valid. -/
def registering (valid : Nat) (ready : Bool) : State :=
  let s := tabled [(0x1A000, 8, 0x1C001), (0x1C000, 8, 0x10000), (0x1C008, 8, 65536), (0x1C010, 4, 0x0301 + valid * 65536), (0x1C018, 8, 0x1D000)]
    (onSeq fun x => { x with done := ready })
  { s with digbase := 0x1A001 }
theorem witness_RegionRegistration : let s := registering 1 true
    let b := s.readMem 0x1C000 32
    Triggers s 0 1 (.s 0) s ∧ s.me.asid % 65536 = 0 ∧ s.me.done = true ∧ s.digbase.getLsbD 0 = true ∧ (s.read64 0x1A000).toNat = 0x1C001 ∧
      regionEntry b = some { region0 with pages := [] } ∧ (s.removeRegion 0).regionPages 0 { region0 with pages := [] } = some [0x10000] ∧
      mapGet none (s.removeRegion 0).captured 1 = none ∧ (s.removeRegion 0).overlaps 0 region0 = false := by
  refine ⟨⟨rfl, rfl, rfl⟩, rfl, rfl, rfl, ?_, ?_, ?_, ?_, ?_⟩ <;> decide
theorem witness_RegionRegistration_others : (registering 1 false).me.done = false ∧ field ((registering 0 true).readMem 0x1C000 32) 18 1 = 0 ∧
    field ((registering 2 true).readMem 0x1C000 32) 18 1 ≠ 0 ∧ regionEntry ((registering 2 true).readMem 0x1C000 32) = none ∧
    (onSeq fun x => { x with asid := 1 }).me.asid % 65536 ≠ 0 := by
  refine ⟨rfl, ?_, ?_, ?_, ?_⟩ <;> decide

theorem witness_SyncTriggersEnterQueues : Triggers base 0 0 (.s 0x10000) base ∧ base.me.stores.length < 64 ∧ LoadRoom base ∧ 0x10000 % 64 = 0 ∧
    inAperture 0x10000 = false ∧ base.resolve 0 0 .atomic 0x10000 = .at (.mem 0x10000) ∧
    base.resolve 0 0 .store 0x10000 = .at (.mem 0x10000) ∧ base.resolve 0 0 .load 0x10000 = .at (.mem 0x10000) :=
  ⟨triggers_base, by decide, room_base, by decide, by decide, rfl, rfl, rfl⟩
def apertureAt : State := onSeq fun x => { x with sregs := [(0, BitVec.ofNat 64 apertureBase)] }
theorem witness_SyncTriggersEnterQueues_aperture : Triggers apertureAt 0 0 (.s (BitVec.ofNat 64 apertureBase)) apertureAt ∧
    inAperture (BitVec.ofNat 64 apertureBase).toNat = true := ⟨⟨rfl, rfl, rfl⟩, by decide⟩
theorem witness_BarrierTriggers : Triggers base 0 0 (.s 0x10000) base ∧ LoadRoom base ∧ base.me.stores.length < 64 ∧ base.me.stepDone = false ∧
    (onSeq fun x => { x with stepDone := true }).me.stepDone = true := ⟨triggers_base, room_base, by decide, rfl, rfl⟩

/-! ### Launches -/

def header0 : Header :=
  { cores := 1, opbanks := 2, claim := 0x7F, scratch := 0, remtime := 0, killable := false, idempotent := false, unitPolicy := 2, launchPolicy := 0,
    entries := [0], reserved := false, entriesOk := true }
def vec0 : StartVec := startVecOf (natBytes 64 (2 ^ 56 + 2 ^ 128 + 2 ^ 176 + 2 ^ 288 + 2 ^ 320 + 2 ^ 336 + 2 ^ 352))
def launch0 : Launch := { newLaunch vec0 header0 0 0x10000 0 none {} with state := .running, cores := [0], counter := 1, bays := [0] }
/-- q0 of core 0 runs for launch 1. -/
def launched (l : Launch) (f : Seq → Seq) : State :=
  { onCore (fun k => { k with launch := some 1, seqs := [(0, f seq0)] }) with launches := [(1, some l)], nextLaunch := 2 }

def vectors (n : Nat) (o : Word) : State :=
  { launched launch0 id with cores := [(0, { core0 with launch := some 1, cxo := o, sends := List.replicate n { send := .vector 0 zeroVec 0, q := 0, order := 0 } })] }
/-- Room for seven and none for eight; a position that the launch has, and one past its last. -/
theorem witness_CircuitTriggers : (vectors 8 0).mayReach (some .cx) = true ∧ readSrc 0x040 .v (vectors 8 0) = .val (.v zeroVec) (vectors 8 0) ∧
    8 ≤ (vectors 8 0).myCore.sends.length ∧ (vectors 7 0).myCore.sends.length < 8 ∧ (vectors 7 0).members[0]? = some 0 ∧
    (vectors 7 1).members[1]? = none := by
  refine ⟨rfl, rfl, ?_, ?_, rfl, rfl⟩ <;> decide
/-- A multicast of no target, of a line that is not whole, past the launch, and one that goes. -/
theorem witness_CircuitTriggers_multicast : (vectors 0 0).myCore.cxo.toNat / 2 ^ 48 = 0 ∧
    (vectors 0 0x1000000000001).myCore.cxo.toNat % 2 ^ 19 % 256 ≠ 0 ∧ (vectors 0 0x2000000000000).members.length < 0 + 2 ∧
    ¬ ((vectors 0 0x1000000000000).myCore.spadBytes < 0 + 256 ∨ (vectors 0 0x1000000000000).members.length < 0 + 1) := by
  refine ⟨?_, ?_, ?_, ?_⟩ <;> decide

/-! ### Key-cache tables of two sequences, with page lists at 0x18300 and 0x18340, and of one frame -/

/-- LENGTH of both sequences, CAP, the frame of the first page of sequence 0, COUNT and the link of frame 0, and the free
head; the moved value is `t`. -/
def kvTables (ready : Bool) (t : Word) (l0 l1 cap frame count next free : Nat) : State :=
  tabled [(0x18000, 8, 0x18100), (0x18008, 4, 2), (0x18010, 8, 0x18200), (0x18018, 8, free), (0x18100, 4, l0), (0x18104, 2, cap),
      (0x18108, 8, 0x18300), (0x18110, 4, l1), (0x18114, 2, cap), (0x18118, 8, 0x18340), (0x18200, 2, count), (0x18204, 4, next), (0x18300, 4, frame)]
    { onSeq (fun x => { x with done := ready }) with
      cores := [(0, { core0 with kvo := 0x10000, seqs := [(0, { seq0 with done := ready, sregs := [(0, t)] })] })] }
def keyed (ready : Bool) : State := kvTables ready 0x10000 1 0 2 0 1 0 0xFFFFFFFF
def kvDesc0 : KvDesc := { seqtab := 0x18100, nseq := 2, frtab := 0x18200, free := 0x18018, faults := 0 }
theorem ok_eq {ε α : Type} [DecidableEq α] {r : Except ε α} {a : α} (h : (match r with
    | .ok b => decide (b = a)
    | .error _ => false) = true) : r = .ok a := by
  cases r with
  | error e => simp at h
  | ok b => simpa using h
theorem error_eq {ε α : Type} [DecidableEq ε] {r : Except ε α} {e : ε} (h : (match r with
    | .ok _ => false
    | .error d => decide (d = e)) = true) : r = .error e := by
  cases r with
  | error d => simpa using h
  | ok b => simp at h
/-- What the clauses of a fork, a free and an exchange ask: sequence 0 of one token in frame 0, sequence 1 empty. -/
theorem witness_KeyCacheTriggers : Leased .kv (keyed true) 0 0 (.s 0x10000) (keyed true) ∧ KvDue (keyed true) ∧ (keyed false).me.done = false ∧
    (keyed true).kvDesc 0 0 = .ok (some kvDesc0) ∧
    (keyed true).kvSeq 0 0 kvDesc0 0 = .ok { length := 1, cap := 2, plist := 0x18300 } ∧
    (keyed true).kvSeq 0 0 kvDesc0 1 = .ok { length := 0, cap := 2, plist := 0x18340 } :=
  ⟨⟨rfl, rfl, rfl, rfl⟩, ⟨rfl, rfl, rfl⟩, rfl, ok_eq (by decide +kernel), ok_eq (by decide +kernel), ok_eq (by decide +kernel)⟩
theorem witness_KeyCacheTriggers_pages : Pages (keyed true) { length := 1, cap := 2, plist := 0x18300 } [0] ∧
    Counts (keyed true) kvDesc0 [0] (fun _ => 1) ∧ (∀ p, ¬ tooOften (fun _ => 1) [0] p) ∧ (∀ p, ¬ tooSeldom (fun _ => 1) [0] p) := by
  have h : tabWord (keyed true) 0x18300 4 0 ∧ tabWord (keyed true) 0x18200 8 1 := ⟨ok_eq (by decide +kernel), ok_eq (by decide +kernel)⟩
  refine ⟨⟨rfl, fun p hp => ?_⟩, fun f hf => ?_, fun p hp => ?_, fun p hp => ?_⟩
  · obtain rfl : p = 0 := by simpa using hp
    exact h.1
  · obtain rfl : f = 0 := by simpa using hf
    exact ⟨1, h.2, rfl⟩
  all_goals
    obtain ⟨h1, h2⟩ := hp
    obtain rfl : p = 0 := by simpa using h1
    simp at h2
/-- COUNT at its ends, where the checks of a fork and of a free fail. -/
theorem witness_KeyCacheTriggers_counts : tooOften (fun _ => 65535) [0] 0 ∧ tooSeldom (fun _ => 0) [0] 0 ∧
    tabWord (kvTables true 0x10000 1 0 2 0 65535 0 0) 0x18200 8 65535 ∧ tabWord (kvTables true 0x10000 1 0 2 0 0 0 0) 0x18200 8 0 := by
  refine ⟨⟨?_, ?_⟩, ⟨?_, ?_⟩, ok_eq (by decide +kernel), ok_eq (by decide +kernel)⟩ <;> decide
/-- Past the last sequence, a DST that holds tokens, and one of no page. -/
theorem witness_KeyCacheTriggers_bounds : (2 : Nat) ≤ 0x20002 % 65536 ∧ (2 : Nat) ≤ 0x20001 / 65536 ∧
    (kvTables true 0x10000 1 5 2 0 1 0 0).kvSeq 0 0 kvDesc0 1 = .ok { length := 5, cap := 2, plist := 0x18340 } ∧
    (kvTables true 0x10000 1 0 0 0 1 0 0).kvSeq 0 0 kvDesc0 1 = .ok { length := 0, cap := 0, plist := 0x18340 } ∧
    (keyed true).me.kvLeft = none ∧ (onSeq fun x => { x with done := true, kvLeft := some [] }).me.kvLeft = some [] :=
  ⟨by decide, by decide, ok_eq (by decide +kernel), ok_eq (by decide +kernel), rfl, rfl⟩
/-- No descriptor of the address space, and one at an address that is not aligned. -/
theorem witness_KeyCacheTriggers_none : (onSeq id).kvDesc 0 0 = .ok none ∧
    (tabled [(0x1B008, 8, 0x18001)] (onSeq id)).kvDesc 0 0 = .error (.access .misaligned 0x18001) :=
  ⟨ok_eq (by decide +kernel), error_eq (by decide +kernel)⟩
/-- An append that takes frame 0 off the stack, one that finds none, and one that needs none. -/
theorem witness_KeyCacheTriggers_append : let s := kvTables true 0x10001 1 0 2 0 0 0xFFFFFFFF 0x300000000
    tabWord s kvDesc0.free 8 0x300000000 ∧ tabWord s (kvDesc0.frtab + 8 * 0) 8 0xFFFFFFFF00000000 ∧ 0x300000000 % 2 ^ 32 = 0 ∧
    0xFFFFFFFF00000000 / 2 ^ 32 % 2 ^ 32 = noFrame ∧ (0 + 1 + 15) / 16 ≤ 2 ∧ tabWord (keyed true) kvDesc0.free 8 noFrame ∧ (1 + 1 + 15) / 16 - (1 + 15) / 16 = 0 :=
  ⟨ok_eq (by decide +kernel), ok_eq (by decide +kernel), by decide, by decide, by decide, ok_eq (by decide +kernel), by decide⟩
/-- One sequence whose parent is itself; and lane 0 names one past the last. -/
theorem witness_KeyCacheTriggers_perm : readSrc 0x040 .v (keyed true) = .val (.v zeroVec) (keyed true) ∧ LoadRoom (keyed true) ∧
    (keyed true).myCore.kvo.toNat / 65536 % 128 = 1 ∧ (lane zeroVec 0).toNat < 1 ∧ ¬ (lane (List.replicate 64 1) 0).toNat < 1 := by
  refine ⟨rfl, ?_, ?_, ?_, ?_⟩ <;> (first | unfold LoadRoom | skip) <;> decide
/-- A place that takes a table word, and words that are raised, lowered and lowered to 0. -/
theorem witness_KeyCacheTriggers_writes : (keyed true).kvPlace 0 0 .store 0x18100 4 = .ok (.mem 0x18100) ∧ (keyed true).cut (dieOf 0) 0x18100 = false ∧
    (keyed true).kvGet 0 0 0x18200 8 = .ok 1 ∧ 1 % 65536 ≠ 0 ∧ 1 % 65536 = 1 ∧ (1 : Nat) / 65536 % 2 = 0 ∧ 2 % 65536 ≠ 1 :=
  ⟨ok_eq (by decide +kernel), by decide, ok_eq (by decide +kernel), by decide, by decide, by decide, by decide⟩

def experts (o : Word) : State := onCore fun k => { k with epo := o }
/-- `ep.done` with and without a tag, and `ep.grad` where Trestle's table is mapped. -/
theorem witness_ExpertAndKickTriggers : Leased .ep (experts 0) 0 0 (.s 0x10000) (experts 0) ∧ LoadRoom (experts 0) ∧ (experts 0).myCore.epo.toNat = 0 ∧
    Leased .ep (experts 0x10000) 0 1 (.s 0) (experts 0x10000) ∧ LoadRoom (experts 0x10000) ∧ (experts 0x10000).me.stores.length < 64 ∧
    (experts 0x10000).resolve 0 0 .atomic ((0x10000 + 8 * (0 / 2 ^ 32 / 64)) % 2 ^ 64) = .at (.mem 0x10000) ∧ 0x10000 % 256 = 0 ∧
    (experts 0x10001).myCore.epo.toNat % 8 ≠ 0 := by
  refine ⟨⟨rfl, rfl, rfl, rfl⟩, ?_, rfl, ⟨rfl, rfl, rfl, rfl⟩, ?_, ?_, rfl, ?_, ?_⟩ <;> (first | unfold LoadRoom | skip) <;> decide +kernel
/-- The master of pair 0 has one page at address 0: its gradient buffer is the page at 0x10000. -/
def graded (s : State) : State :=
  tabled [(0x1E000, 8, 0), (0x1E008, 8, 0x10000)] { s with trestle := { s.trestle with tbase := 0x1E000 } }
theorem witness_ExpertAndKickTriggers_grad : let s := graded (experts 0x10000)
    Leased .ep s 0 0x800 (.s 0) s ∧ s.slotBase 0 0 = 0 ∧ s.trestle.gradSlots 0 = [] ∧ s.gradBytes 0 / 256 = 256 ∧
      ∀ i < 256, s.resolve 0 0 .store (0 + 0x10000 + 256 * i) = .at (.mem (0x10000 + 256 * i)) := by
  refine ⟨⟨rfl, rfl, rfl, rfl⟩, ?_, rfl, ?_, ?_⟩ <;> decide +kernel
/-- Room for exactly one expert's count, and for none. -/
theorem witness_ExpertAndKickTriggers_hist : ¬ 32 < 31 + min (0x10000 / 65536 % 256) 32 ∧ 32 < 32 + min (0x10000 / 65536 % 256) 32 ∧
    (experts 0x10000).mayReach (some .ep) = true ∧ readSrc 0x040 .v (experts 0x10000) = .val (.v zeroVec) (experts 0x10000) :=
  ⟨by decide, by decide, rfl, rfl⟩
/-- A ring of one request at 0x19000, its descriptor good. -/
def ringed (head tail : Nat) (f : Seq → Seq) : State :=
  tabled [(0x19000, 8, 0x19100), (0x19008, 8, 0x19200), (0x19010, 4, 0x100), (0x19014, 4, tail), (0x19018, 4, head)] (onSeq f)
theorem witness_ExpertAndKickTriggers_kick : let s := ringed 0 0 fun x => { x with done := true }
    Leased .xk s 0 0 (.s 0x10000) s ∧ s.me.stores.length < 64 ∧ s.me.done = true ∧ base.me.done = false ∧ s.ringVa 0 0 = some 0x19000 ∧
      s.resolve 0 0 .load 0x19000 = .at (.mem 0x19000) ∧ (s.readHome 0 (.mem 0x19000) 32).2 = false ∧
      (ringDesc (s.readHome 0 (.mem 0x19000) 32).1).isSome = true ∧
      (({ s with poison := [(0x19000 / 32, true)] }).readHome 0 (.mem 0x19000) 32).2 = true := by
  refine ⟨⟨rfl, rfl, rfl, rfl⟩, ?_, rfl, rfl, ?_, ?_, ?_, ?_, ?_⟩ <;> decide

theorem witness_TriggerGates : base.cur.live = true ∧ (base.guardMask 1).getLsbD 0 = false ∧ (base.guardMask 0).getLsbD 0 = true ∧
    readSrc 0x0A9 .s base = .trap .queueEmpty 0 none base ∧ (∀ u, base.mayReach (some u) = true) ∧ handling.mayReach (some .vx) = false :=
  ⟨rfl, rfl, rfl, rfl, fun u => by cases u <;> rfl, rfl⟩
/-- A source that traps while the store queue is full, and while it has room. -/
theorem witness_TriggerGates_full : readSrc 0x0A9 .s (stored 64) = .trap .queueEmpty 0 none (stored 64) ∧ 64 ≤ (stored 64).me.stores.length ∧
    ¬ 64 ≤ (stored 63).me.stores.length ∧ readSrc 0x0A9 .s (stored 63) = .trap .queueEmpty 0 none (stored 63) :=
  ⟨rfl, by decide, by decide, rfl⟩

/-! ### Queues that perform -/

def gotten : State := onSeq fun x => { x with loads := [anyLoad] }
theorem nextLoad_one (x : Seq) (e : LoadEntry) (h : x.loads ++ x.handlerLoads = [e]) (hp : e.performed = false) (hs : x.stores = []) : NextLoad x e := by
  refine ⟨by simp [h, hp], ?_⟩
  simp [hs]
/-- The next load reads one part. -/
theorem witness_LoadsArePerformed : GoesNow gotten 0 0 anyLoad ∧ anyLoad.parts = [.bytes (.mem 0x10000) 8] ∧ anyLoad.ahead = [] ∧
    (gotten.core 0).tfOpOf 0 anyLoad.order = none ∧ anyLoad.mark = none ∧ anyLoad.check = none ∧
    Shaped anyLoad.kind (anyLoad.got ++ (gotten.readPart 0 false (.bytes (.mem 0x10000) 8)).1.1) :=
  ⟨⟨nextLoad_one _ _ rfl rfl rfl, rfl⟩, rfl, rfl, rfl, rfl, rfl, by decide, by decide⟩
def getting (e : LoadEntry) (s : State) : State := { s with cores := [(0, { s.core 0 with seqs := [(0, { seq0 with loads := [e] })] })] }
/-- Two lines, the first of them next. -/
def twoLines : LoadEntry := { anyLoad with kind := .vector .words, parts := [.bytes (.mem 0x10080) 128, .bytes (.mem 0x10100) 128] }
theorem witness_LoadsArePerformed_lines : GoesNow (getting twoLines base) 0 0 twoLines ∧
    (∀ y ∈ [Part.bytes (.mem 0x10100) 128], OtherLine (.bytes (.mem 0x10080) 128) y) ∧ ∃ b, Shaped twoLines.kind b := by
  refine ⟨⟨nextLoad_one _ _ rfl rfl rfl, rfl⟩, fun y hy a n b m h1 h2 => ?_, List.replicate 256 0, List.length_replicate⟩
  obtain rfl : y = .bytes (.mem 0x10100) 128 := by simpa using hy
  injection h1 with h1 _
  injection h2 with h2 _
  injection h1 with h1
  injection h2 with h2
  subst h1
  subst h2
  decide
/-- Two runs of one line. -/
def twoRuns : LoadEntry := { anyLoad with parts := [.bytes (.mem 0x10000) 4, .bytes (.mem 0x10020) 4] }
theorem witness_LoadsArePerformed_runs : GoesNow (getting twoRuns base) 0 0 twoRuns ∧
    twoRuns.parts = [(0x10000, 4), (0x10020, 4)].map (fun r => .bytes (.mem r.1) r.2) ∧
    (∀ r ∈ [(0x10000, 4), (0x10020, 4)], lineIndex r.1 = lineIndex 0x10000) ∧
    Shaped twoRuns.kind (twoRuns.got ++ (((getting twoRuns base).cachedRuns 0 (lineIndex 0x10000) [(0x10000, 4), (0x10020, 4)]).1.map (·.1)).flatten) := by
  refine ⟨⟨nextLoad_one _ _ rfl rfl rfl, rfl⟩, rfl, by decide, by decide, by decide⟩
/-- A checked load of a line of the region. -/
theorem witness_LoadsArePerformed_check : let e := { anyLoad with check := some { stamp := 0, pred := 1 } }
    GoesNow (getting e (digesting 1)) 0 0 e ∧ e.check.isSome = true ∧ e.ahead = [] ∧ e.mark = none :=
  ⟨⟨nextLoad_one _ _ rfl rfl rfl, rfl⟩, rfl, rfl, rfl⟩
def mapping (pos : Nat) : LoadEntry := { anyLoad with kind := .kvMap 0 pos 256 0x10000 0, parts := [] }
theorem witness_LoadsArePerformed_map : let s := getting (mapping 0) (keyed true)
    GoesNow s 0 0 (mapping 0) ∧ (s.core 0).mapWaits 0 (mapping 0) = false ∧ s.kvDesc 0 0 = .ok (some kvDesc0) ∧
      s.kvSeq 0 0 kvDesc0 0 = .ok { length := 1, cap := 2, plist := 0x18300 } ∧ (0 : Nat) < 1 ∧ 1 ≤ 1 ∧
      s.kvGet 0 0 (0x18300 + 4 * (0 / 16)) 4 = .ok 0 ∧ (s.core 0).tfOpOf 0 0 = none ∧ s.walkHeld (s.seq 0 0).asid = false :=
  ⟨⟨nextLoad_one _ _ rfl rfl rfl, rfl⟩, rfl, ok_eq (by decide +kernel), ok_eq (by decide +kernel), by decide, by decide, ok_eq (by decide +kernel), rfl, rfl⟩
theorem witness_LoadsArePerformed_arrival : let s := popping landed
    ((s.seq 0 0).loads ++ (s.seq 0 0).handlerLoads)[0]? = some landed ∧ landed.performed = true ∧ landed.arrived = false ∧
      landed.kind ≠ .tileLoad ∧ landed.kind ≠ .bind := ⟨rfl, rfl, rfl, by decide, by decide⟩
def recordEntry (fences : List (Nat × Nat)) : LoadEntry := { anyLoad with kind := .record fences, parts := [.bytes (.mem 0x10000) 64] }
/-- With no fence pending, or one that a later read has refilled the record after, the record is kept; with another of q1, whose
stores are done, it is read again. -/
theorem witness_LoadsArePerformed_record (fences : List (Nat × Nat)) (re : List (Nat × List (Nat × Nat))) (h : fences = [] ∨ fences = [(1, 3)]) :
    let s := onCore fun k => { k with
      seqs := [(0, { seq0 with loads := [recordEntry fences] })], records := [(0x10000, record 7 64)], rfences := fences, refills := re }
    GoesNow s 0 0 (recordEntry fences) ∧ (recordEntry fences).kind = .record fences ∧ (recordEntry fences).parts = [.bytes (.mem 0x10000) 64] ∧
      (s.core 0).records.lookup 0x10000 = some (record 7 64) ∧ ∀ f ∈ fences, ∀ y ∈ (s.seq 0 f.1).stores, f.2 < y.epoch := by
  refine ⟨⟨nextLoad_one _ _ rfl rfl rfl, rfl⟩, rfl, rfl, rfl, fun f hf y hy => ?_⟩
  rcases h with rfl | rfl
  · simp at hf
  · obtain rfl : f = (1, 3) := by simpa using hf
    exact absurd hy (show y ∉ [] from List.not_mem_nil)
theorem witness_LoadsArePerformed_record_stale : (((1, 3) : Nat × Nat) ∉ mapGet [] [(0x10000, [])] 0x10000) ∧ ((1, 3) : Nat × Nat) ∈ mapGet [] [(0x10000, [(1, 3)])] 0x10000 := by
  decide
theorem witness_LoadsArePerformed_fence : let s := onCore fun k => { k with rfences := [(0, 3)] }
    (0, 3) ∈ (s.core 0).rfences ∧ EpochOver (s.seq 0 0) 3 := by
  refine ⟨by decide, ?_⟩
  unfold EpochOver
  decide

def held (h : Hold) (f : Seq → Seq) : State := onSeq fun x => f { x with hold := some h }
/-- A walk of ASID 0 for the page at 0x20000, about to read its entry of level `level` in the table at `table`. -/
def walker0 (level table : Nat) : Walker := { asid := 0, granule := 2, level := level, table := table, barred := [] }
def walked (w : Walker) (f : Seq → Seq) : State :=
  { tabled [] (held (.walk 0 0x20000) f) with dies := [(0, { Die.init with walkers := [w] })] }
theorem witness_HoldsEnd_walk (w : Walker) (h : w = walker0 0 0 ∨ w = walker0 1 0x12000 ∨ w = walker0 2 0x12000) : let s := walked w id
    (s.seq 0 0).hold = some (.walk 0 0x20000) ∧ (s.seq 0 0).awaits 0 0x20000 = true ∧ s.walkerOf 0 0 = some w ∧
      (s.seq 0 0).tlb.length < 64 ∧ page0.covers 0 0x10000 = true ∧ page0 ∈ ((held (.walk 0 0x10000) id).seq 0 0).tlb := by
  rcases h with rfl | rfl | rfl <;> (refine ⟨rfl, ?_, ?_, ?_, ?_, ?_⟩ <;> decide)
/-- An entry that goes down, one that maps a page, and one that is not valid. -/
theorem witness_HoldsEnd_walk_next : (walked (walker0 0 0) id).walkerNext (walker0 0 0) = .down 0x12000 ∧
    (match (walked (walker0 2 0x14000) id).walkerNext (walker0 2 0x14000) with
      | .found p => p.covers 0 0x20000 && p.covers 0 0x10000
      | _ => false) = true ∧
    (walked (walker0 2 0x16000) id).walkerNext (walker0 2 0x16000) = .failed ∧
    Missing (walked (walker0 0 0) id) 0 (walker0 0 0) none (0, 0) := by
  refine ⟨?_, ?_, ?_, ⟨?_, ?_, ?_, ?_, (0, 0x20000), .inl ?_, ?_, .inl ?_⟩⟩ <;> decide +kernel
theorem witness_HoldsEnd_freezes : ((held .storeRoom id).seq 0 0).stores.length < 64 ∧ ((held .sendRoom id).core 0).sends.length < 8 ∧
    ((onCore fun k => { k with circuit := [{ src := 1, val := zeroVec, poisoned := false }] }).core 0).circuit ≠ [] ∧
    popFirst ((held .popData fun x => { x with loads := [{ landed with arrived := true }] }).seq 0 0).loadQueue = some ({ landed with arrived := true }, []) := by
  refine ⟨?_, ?_, ?_, rfl⟩ <;> decide
theorem witness_HoldsEnd_waits : TilesFree ((held (.tiles [0] [1] false) id).core 0) [0] [1] ((held (.tiles [0] [1] false) id).core 0).mxOps 4 ∧
    ((held .sstep fun x => { x with stepDone := true }).seq 0 0).stepDone = true ∧
    ((held .record fun x => { x with recordBuf := some none }).seq 0 0).recordBuf.isSome = true ∧
    ((held (.kv (.free 0)) id).seq 0 0).stores = [] ∧ ((held (.kv (.free 0)) id).seq 0 0).loads ++ ((held (.kv (.free 0)) id).seq 0 0).handlerLoads = [] ∧
    (base.core 0).kvBehind 0 (base.core 0).kvTurn = false ∧ ((base.core 0).seq 1).kvLeft.getD [] = [] := by
  refine ⟨?_, rfl, rfl, rfl, rfl, rfl, rfl⟩
  unfold TilesFree
  decide
theorem witness_HoldsEnd_others : ((held (.stopk 1) id).core 0).stopk = none ∧ ((held (.stopk 1) id).core 0).tileReady 1 = true ∧
    (∀ t < 16, (0x3FFFF : BitVec 18).getLsbD t = true → mapGet false ((held (.wait 0x3FFFF) id).core 0).notReady t = false) ∧
    ((held (.wait 0x3FFFF) id).seq 0 0).stores = [] ∧ (∀ e ∈ ((held (.wait 0x3FFFF) id).seq 0 0).loadQueue, e.arrived = true) ∧
    (((held .wake id).core 0).seq 1).run ≠ .ending ∧ ((held .rftDrain id).seq 0 0).handlerLoads = [] ∧
    ((held (.cinv [0x100]) id).seq 0 0).hold = some (.cinv [0x100]) ∧ (base.core 0).lineDirty 0x100 = false ∧
    ((held (.cede 1) id).seq 0 0).hold = some (.cede 1) ∧ ((held .region id).seq 0 0).hold = some .region := by
  refine ⟨rfl, rfl, ?_, rfl, ?_, ?_, rfl, rfl, rfl, rfl, rfl⟩ <;> decide
/-- Another sequencer that still holds what `cr.tlbinv` drops, and none left. -/
theorem witness_HoldsEnd_invalidate (left : List (Nat × Nat)) (_ : left = [] ∨ left = [(0, 1)]) :
    ((held (.invalidate true 0 left) id).seq 0 0).hold = some (.invalidate true 0 left) ∧ ((0, 1) : Nat × Nat) ≠ (0, 0) :=
  ⟨rfl, by decide⟩
/-- A full TLB. -/
theorem witness_HoldsEnd_full : let s := walked (walker0 2 0x14000) fun x => { x with tlb := List.replicate 64 page0 }
    (s.seq 0 0).hold = some (.walk 0 0x20000) ∧ 64 ≤ (s.seq 0 0).tlb.length ∧ s.walkerOf 0 0 = some (walker0 2 0x14000) := by
  refine ⟨?_, ?_, ?_⟩ <;> decide +kernel


theorem nextStore_one (x : Seq) (y : StoreEntry) (h : x.stores = [y]) (hl : x.loads ++ x.handlerLoads = []) : NextStore x y := by
  refine ⟨by simp [h], ?_⟩
  simp [hl]
/-- One entry in the load queue of q0, or in its store queue. -/
def loading (e : LoadEntry) : State := onSeq fun x => { x with loads := [e] }
def storing (y : StoreEntry) : State := onSeq fun x => { x with stores := [y] }
theorem nextLoad_loading (e : LoadEntry) (hp : e.performed = false) : NextLoad ((loading e).seq 0 0) e := nextLoad_one _ _ rfl hp rfl
theorem nextStore_storing (y : StoreEntry) : NextStore ((storing y).seq 0 0) y := nextStore_one _ _ rfl rfl

def acquiring : LoadEntry := { anyLoad with kind := .acquire 5 }
theorem witness_AcquiresAndAtomics_acquire : NextLoad ((loading acquiring).seq 0 0) acquiring ∧ acquiring.parts = [.bytes (.mem 0x10000) 8] ∧
    (loading acquiring).cut (dieOf 0) 0x10000 = false ∧ (loading acquiring).acquireWaits 0 acquiring = false := ⟨nextLoad_loading _ rfl, rfl, rfl, rfl⟩
def adding : LoadEntry := { anyLoad with kind := .atomic .aadd 1 0, epoch := 1 }
def addingStore : StoreEntry := { order := 1, epoch := 1, kind := .atomic, parts := [] }
theorem witness_AcquiresAndAtomics_atomic : let s := onSeq fun x => { x with loads := [adding], stores := [addingStore] }
    NextLoad (s.seq 0 0) adding ∧ (s.seq 0 0).stores = addingStore :: [] ∧ addingStore.order = adding.order + 1 ∧ s.cut (dieOf 0) 0x10000 = false ∧
      (s.core 0).lineDirty (lineIndex 0x10000) = false := by
  refine ⟨⟨rfl, ?_⟩, rfl, rfl, rfl, rfl⟩
  decide
/-- A release of q1 that the acquire meets, and one of another bay at the core's scope. -/
theorem witness_AcquiresAndAtomics_released : ({ party := some (0, 1), scope := 5, chain := { stores := [(storeKey 5 0x800, [1])] } } : Release).meets (0, 0) 5 = true ∧
    ({ party := some (64, 0), scope := 1, chain := { stores := [(storeKey 5 0x800, [1])] } } : Release).meets (0, 0) 5 = false ∧
    mapGet none ({ loading acquiring with released := [(0x10000, some { party := some (0, 1), scope := 5, chain := { stores := [(storeKey 5 0x800, [1])] } })] }).released 0x10000 =
      some { party := some (0, 1), scope := 5, chain := { stores := [(storeKey 5 0x800, [1])] } } := ⟨rfl, rfl, rfl⟩
/-- R211, R212: of a copy of line 0x100 that was read when three stores had merged, the byte that the fourth store wrote is
older, and the third's is not; nor is it older than a store of its own core, or than one to a sector that it does not hold; and
the byte beside it is not older (R211). -/
theorem test_copy_outdated : let l : CacheLine := { bank := 2, frame := 16, line := 0x100, sectors := [some (List.replicate 32 0, false)], used := 0, asOf := 3 }
    let g := fun core pa n => pastOf core n pa [some 7]
    (g 5 0x10001 4).outdatesBank 0 l [(0x10000, 2)] = true ∧ (g 5 0x10001 3).outdatesBank 0 l [(0x10000, 2)] = false ∧
      (g 0 0x10001 4).outdatesBank 0 l [(0x10000, 2)] = false ∧ (g 5 0x10021 4).outdatesBank 0 l [(0x10020, 2)] = false ∧
      (g 5 0x10001 4).outdatesBank 0 l [(0x10000, 1)] = false := by decide
/-- A table with a free entry first, and one whose entries are all taken. -/
theorem witness_AcquiresAndAtomics_bget : let e := { anyLoad with kind := .bget 1, epoch := 1, parts := [] }
    let s := onSeq fun x => { x with loads := [e], stores := [addingStore] }
    NextLoad (s.seq 0 0) e ∧ (s.seq 0 0).stores = addingStore :: [] ∧ addingStore.kind = .atomic ∧ addingStore.order = e.order + 1 ∧
      (s.barrierAt 0 0).taken = false ∧ e.parts = [] := by
  refine ⟨⟨rfl, ?_⟩, rfl, rfl, rfl, rfl, rfl⟩
  decide
def combining : State := { onCore (fun k => { k with atomics := [{ src := 1, q := 0, order := 0, off := 0, op := .aadd, a := 1, b := 0, slot := 0, closes := 511 }] }) with clock := 511 }
theorem witness_AcquiresAndAtomics_batch : (combining.core 0).atomics.length = 1 ∧ 511 ≤ combining.clock ∧ (combining.core 0).spadPoisonedAt 0 8 = false ∧
    atomicWrites .aadd (BitVec.ofNat 64 (leNat ((combining.core 0).readSpad 0 8))) 1 0 = some 1 := ⟨rfl, by decide, rfl, rfl⟩

theorem witness_StoresArePerformed_memory : NextStore ((storing anyStore).seq 0 0) anyStore ∧ anyStore.kind = .plain ∧
    anyStore.parts = { loc := .mem 0x10000, bytes := [some 7] } :: [] ∧ (storing anyStore).cut (dieOf 0) 0x10000 = false :=
  ⟨nextStore_storing _, rfl, rfl, rfl⟩
def spadStore : StoreEntry := { anyStore with parts := [{ loc := .spad 0 0, bytes := [some 7] }] }
theorem witness_StoresArePerformed_scratchpad : NextStore ((storing spadStore).seq 0 0) spadStore ∧ spadStore.kind = .plain := ⟨nextStore_storing _, rfl⟩
theorem witness_StoresArePerformed_release : let y := { anyStore with kind := .release 0x10000 1 1 5 }
    NextStore ((storing y).seq 0 0) y ∧ (storing y).cut (dieOf 0) 0x10000 = false := ⟨nextStore_storing _, rfl⟩
/-- A tile's store whose tile has been read, and one whose has not. -/
theorem witness_StoresArePerformed_tile : let y := { anyStore with kind := .tile 1 }
    NextStore ((storing y).seq 0 0) y ∧ ((storing y).core 0).tfOpOf 0 0 = none ∧
      ((onCore fun k => { k with tfOps := [{ kind := .store 1, q := 0, rm := 0, writes := [], reads := [1], order := 0, got := [], ready := false,
                                             poisoned := false }] }).core 0).tfOpOf 0 0 ≠ none := by
  refine ⟨nextStore_storing _, rfl, ?_⟩
  decide
/-- A gradient merge of pair 0, of the first line and past the last, and one that waits for a request. -/
theorem witness_StoresArePerformed_grad : let y := { anyStore with kind := .grad 0 0x10000 0 0 0 }
    let s := graded (storing y)
    NextStore (s.seq 0 0) y ∧ (∀ sl < 4, (s.trestle.slot 0 sl).inflight = 0) ∧ 0 < s.gradBytes 0 / 256 ∧ s.gradPlace 0 0x10000 0 0 = some 0x10000 ∧
      s.trestle.gradSlots 0 = [] ∧ s.cut (s.slotDie 0 0) 0x10000 = false ∧ s.gradBytes 0 / 256 ≤ 256 ∧
      (({ s.trestle with slots := [(1, { Slot.init with inflight := 1 })] } : Trestle).slot 0 1).inflight ≠ 0 := by
  refine ⟨nextStore_one _ _ rfl rfl, ?_, ?_, ?_, ?_, ?_, ?_, ?_⟩ <;> decide +kernel
theorem witness_StoresArePerformed_others : ({ digesting 1 with cores := (storing { anyStore with kind := .rebuild 0 0 0 }).cores }).region 0 = some region0 ∧
    region0.serial = 0 ∧ region0.serial ≠ 1 ∧ (digesting 1).cut (dieOf 0) 0x10000 = false ∧ NextStore ((storing { anyStore with kind := .kick 0 0 0 }).seq 0 0) { anyStore with kind := .kick 0 0 0 } := by
  refine ⟨rfl, rfl, ?_, rfl, nextStore_storing _⟩
  decide

/-! ### Units -/

theorem witness_UnitsComplete_ports : (base.core 0).owns 0 .vx = true := rfl
/-- An operation of a unit that runs. -/
def opOf (k : TileKind) (w r : List Nat) (ready : Bool) : TileOp :=
  { kind := k, q := 0, rm := 0, writes := w, reads := r, order := 0, got := [], ready := ready, poisoned := false }
def inTf (op : TileOp) : State := tiled 0 fun k => { k with tfOps := [op] }
def inMx (op : TileOp) : State := tiled 0 fun k => { k with mxOps := [op] }
theorem witness_UnitsComplete_tf : ((inTf (opOf (.convert 0 1 2 false) [0] [1] false)).core 0).tfOps = opOf (.convert 0 1 2 false) [0] [1] false :: [] ∧
    (parseShape (record 2 4)).zpack = false ∧ (opOf (.load 0 0 (parseShape (record 2 4))) [0] [] true).ready = true ∧
    (opOf (.load 0 0 (parseShape (record 2 4))) [0] [] true).poisoned = false := ⟨rfl, rfl, rfl, rfl⟩
/-- A row of sixteen f32, to be converted into bf16, and into hx4. -/
def wide : Tile := tileOf 7 1 16 (List.replicate 64 0)
theorem witness_UnitsComplete_convert : let s := onCore fun k => { k with tiles := [(1, wide)], tfOps := [opOf (.convert 0 1 11 false) [0] [1] false] }
    (s.core 0).tfOps = opOf (.convert 0 1 11 false) [0] [1] false :: [] ∧ Whole ((s.core 0).tile 1) 7 false ∧ (hxOf 11).isSome = true ∧ (hxOf 9).isSome = false ∧
      (if false then ((s.core 0).tile 1).rows else ((s.core 0).tile 1).cols) % 16 = 0 ∧ wide.data.length = tileBytes 7 1 16 := by
  refine ⟨rfl, ?_, rfl, rfl, rfl, ?_⟩ <;> (first | unfold Whole | skip) <;> decide
def bindEntry : LoadEntry := { anyLoad with kind := .bind, parts := [] }
theorem witness_UnitsComplete_bind : let op := opOf (.bind 0 (parseShape (record 2 4)) [0x10000, 0x10001, 0x10002, 0x10003] [0x100]) [0] [] false
    let s := onCore fun k => { k with seqs := [(0, { seq0 with loads := [bindEntry] })], tfOps := [op] }
    (s.core 0).tfOps = op :: [] ∧ NextLoad (s.seq 0 0) bindEntry ∧ op.q = 0 ∧ op.order = bindEntry.order ∧ (∀ l ∈ [0x100], homeDie (l * 256) = dieOf 0) := by
  refine ⟨rfl, nextLoad_one _ _ rfl rfl rfl, rfl, rfl, ?_⟩
  decide
/-- A line still to be pinned, and every line pinned. -/
theorem witness_UnitsComplete_bind_lines : let op := opOf (.bind 0 (parseShape (record 2 4)) [0x10000, 0x10001, 0x10002, 0x10003] [0x100]) [0] [] false
    let s := onCore fun k => { k with seqs := [(0, { seq0 with loads := [bindEntry] })], tfOps := [op] }
    s.bindable 0 0 = [0x100] ∧ (∃ l ∈ [0x100], ∀ b ∈ op.pinned, b.1 ≠ l) ∧
      ∀ l ∈ [0x100], ∃ b ∈ ({ op with pinned := [(0x100, [], [])] } : TileOp).pinned, b.1 = l := by
  refine ⟨?_, ?_, ?_⟩ <;> decide +kernel
theorem witness_UnitsComplete_product : let s := inMx (opOf (.product 0 1 2 1 false false) [0] [1, 2] false)
    let x := (s.core 0).tile 1
    let y := (s.core 0).tile 2
    (s.core 0).mxOps.length = 1 ∧ Whole x 2 false ∧ Whole y 2 true ∧ x.cols = y.rows ∧ 1 ≤ x.cols ∧ MayAccumulate ((s.core 0).tile 0) false 2 1 1 := by
  refine ⟨rfl, ?_, ?_, ?_, ?_, nofun⟩ <;> (first | unfold Whole | skip) <;> decide
/-- The shape that takes the recombined order: 64 rows, 64 columns and 32 products. -/
theorem witness_UnitsComplete_recombined : let k := (onCore fun k => { k with
      tiles := [(1, tileOf 9 64 32 (List.replicate 4096 0)), (2, tileOf 9 32 64 (List.replicate 4096 0)), (3, tileOf 7 64 64 (List.replicate 16384 0))]
      mxOps := [opOf (.product 3 1 2 1 true false) [3] [1, 2] false] }).core 0
    k.mxOps.length = 1 ∧ (k.tile 1).rows = 64 ∧ (k.tile 2).cols = 64 ∧ (k.tile 1).cols % 32 = 0 ∧ Whole (k.tile 1) 9 false ∧ Whole (k.tile 2) 9 true ∧
      MayAccumulate (k.tile 3) true 9 64 64 := by
  refine ⟨rfl, rfl, rfl, rfl, ⟨rfl, rfl, rfl, ?_, nofun⟩, ⟨rfl, rfl, rfl, ?_, nofun⟩, fun _ => ⟨⟨rfl, rfl, rfl, ?_, nofun⟩, rfl, rfl⟩⟩ <;>
    exact List.length_replicate
theorem witness_UnitsComplete_sparse : let k := (inMx (opOf (.sparse 0 1 3 1 4 false) [0] [1, 3, 4] false)).core 0
    k.mxOps.length = 1 ∧ Whole (k.tile 1) 2 false ∧ Whole (k.tile 3) 2 true ∧ Whole (k.tile 4) 1 false ∧ 2 * (k.tile 1).cols = (k.tile 3).rows ∧
      (k.tile 3).rows % 4 = 0 ∧ (k.tile 4).rows = (k.tile 1).rows ∧ 8 * (k.tile 4).cols = (k.tile 3).rows := by
  refine ⟨rfl, ?_, ?_, ?_, ?_, ?_, ?_, ?_⟩ <;> (first | unfold Whole | skip) <;> decide
/-- One group, of the one row of A. -/
theorem witness_UnitsComplete_grouped : let k := (inMx (opOf (.grouped 0 1 2 1 false [0, 1]) [0] [1, 2] false)).core 0
    k.mxOps.length = 1 ∧ Whole (k.tile 1) 2 false ∧ Whole (k.tile 2) 2 true ∧ (k.tile 2).rows = (k.tile 1).cols ∧ [0, 1].length = 1 + 1 := by
  refine ⟨rfl, ?_, ?_, rfl, rfl⟩ <;> (first | unfold Whole | skip) <;> decide
theorem witness_UnitsComplete_sum : ∀ x ∈ [FVal.fin false 1 0, .fin true 3 (-1)], ∃ n m e, x = .fin n m e := by
  intro x hx
  simp only [List.mem_cons, List.not_mem_nil, or_false] at hx
  rcases hx with rfl | rfl <;> exact ⟨_, _, _, rfl⟩
def topk0 : Stopk := { q := 0, koff := 0, n := 4, k := 4, ooff := 64, ktype := 0, tag := 0, epoch := 1, order := 0, spoiled := false }
theorem witness_UnitsComplete_stopk : let s := onCore fun k => { k with stopk := some topk0 }
    (s.core 0).stopk = some topk0 ∧ EpochOver (s.seq 0 0) (topk0.epoch - 1) ∧ topk0.k ≤ topk0.n := by
  refine ⟨rfl, ?_, ?_⟩ <;> (first | unfold EpochOver | skip) <;> decide
/-- A record written already, and one still to be. -/
theorem witness_UnitsComplete_stopk_written : let o := { topk0 with out := some (List.replicate 32 0), written := [1] }
    o.k ≤ o.n ∧ o.spoiled = false ∧ (0 : Nat) ∉ o.written ∧ (1 : Nat) ∈ o.written ∧ (List.replicate 32 (0 : Byte)).length = 8 * o.k := by
  refine ⟨?_, rfl, ?_, ?_, rfl⟩ <;> decide
theorem witness_UnitsComplete_drain : let s := onCore fun k => { k with drain := some { cycle := 1, rows := [zeroVec], prev := none }, seqs := [(0, { seq0 with cycle := 4 })] }
    (s.core 0).drain = some { cycle := 1, rows := [zeroVec], prev := none } ∧ 1 + 2 + 1 ≤ (s.seq 0 0).cycle := ⟨rfl, by decide⟩
theorem witness_UnitsComplete_unit : let s := launched { launch0 with counter := 2 } fun x => { x with run := .ending }
    (s.seq 0 0).run = .ending ∧ (s.seq 0 0).stores = [] ∧ (s.seq 0 0).loads = [] ∧ (s.core 0).mxOps ++ (s.core 0).tfOps = [] ∧ (s.core 0).stopk = none ∧
      (s.seq 0 0).kvLeft.getD [] = [] ∧ (s.core 0).launch = some 1 ∧ s.launch 1 = some { launch0 with counter := 2 } ∧
      (s.seq 0 0).restart = false := ⟨rfl, rfl, rfl, rfl, rfl, rfl, rfl, rfl, rfl⟩

/-- Entry 0 of die 0, of two parties and in generation 1, has had one arrival. -/
def handle0 : Word := 0x100000
def meeting (n : Nat) (y : StoreEntry) : State :=
  { storing y with dies := [(0, { Die.init with barriers := [(0, { Barrier.init with gen := 1, taken := true, parties := 2, count := n })] })] }
theorem witness_BarriersStepsAndCircuits_arrival : let y := { anyStore with kind := .arrival handle0 0 5 }
    NextStore ((meeting 1 y).seq 0 0) y ∧ (meeting 1 y).ringCut 0 0 = false ∧ (meeting 1 y).liveBarrier handle0 = some ((meeting 1 y).barrierAt 0 0) ∧
      ((meeting 1 y).barrierAt 0 0).count + 1 = ((meeting 1 y).barrierAt 0 0).parties ∧
      ((meeting 0 y).barrierAt 0 0).count + 1 ≠ ((meeting 0 y).barrierAt 0 0).parties ∧ (storing y).liveBarrier handle0 = none :=
  ⟨nextStore_one _ _ rfl rfl, rfl, rfl, rfl, by decide, rfl⟩
def waiting : LoadEntry := { anyLoad with kind := .bwait handle0 8 8 2 (some 0) }
theorem witness_BarriersStepsAndCircuits_limit : let s := { loading waiting with clock := 8 }
    NextLoad (s.seq 0 0) waiting ∧ (8 : Nat) ≠ 0xFFFFFFFF ∧ 8 ≤ s.clock ∧ s.liveBarrier handle0 = none :=
  ⟨nextLoad_one _ _ rfl rfl rfl, by decide, by decide, rfl⟩
/-- The phase that is waited for is still the current one. -/
theorem witness_BarriersStepsAndCircuits_phase : ((meeting 1 anyStore).liveBarrier handle0).map (·.phase) = some 0 := rfl
def supersteps (l : Launch) : State := { launched l fun x => { x with hold := some .sstep } with clock := 512 }
theorem witness_BarriersStepsAndCircuits_steps : let s := supersteps launch0
    s.launch 1 = some launch0 ∧ launch0.state = .running ∧ s.clock % 512 = 0 ∧ (s.liveUnits launch0).filter (fun u => !(s.seq u.1 u.2).stepJoin) = [(0, 0)] ∧
      launch0.stepping = none ∧ (s.seq 0 0).run = .running ∧ (s.seq 0 0).hold = some .sstep ∧ (s.seq 0 0).stepDone = false ∧ AllLanded s launch0.cores [(0, 0)] := by
  refine ⟨rfl, rfl, rfl, rfl, rfl, rfl, rfl, rfl, ?_⟩
  unfold AllLanded
  decide
theorem witness_BarriersStepsAndCircuits_stepping : let l := { launch0 with stepping := some 0 }
    l.stepping = some 0 ∧ 0 < (supersteps l).clock ∧ AllLanded (supersteps l) l.cores [(0, 0)] ∧
      ¬ AllLanded (vectors 1 0) launch0.cores [(0, 0)] := by
  refine ⟨rfl, ?_, ?_, ?_⟩ <;> (first | unfold AllLanded | skip) <;> decide
/-- A send to a core of another die. -/
theorem witness_BarriersStepsAndCircuits_depart : let e : SendEntry := { send := .vector 128 zeroVec 0, q := 0, order := 0 }
    let s := { onCore (fun k => { k with sends := [e] }) with clock := 2 }
    s.departures 0 = [0] ∧ (s.core 0).sends[0]? = some e ∧ dieOf 128 ≠ dieOf 0 := by
  refine ⟨?_, rfl, ?_⟩ <;> decide +kernel
theorem witness_BarriersStepsAndCircuits_flights : let f : Flight := { src := 1, target := 0, val := zeroVec, left := 0, clock := 3, poisoned := false }
    let s := { base with clock := 3, flights := [f] }
    f ∈ s.flights ∧ f.target = 0 ∧ f.clock ≤ s.clock ∧ ∀ g ∈ s.flights, g.target = 0 → g.clock ≤ s.clock → g = f := by
  refine ⟨List.mem_singleton.mpr rfl, rfl, Nat.le_refl 3, fun g hg _ _ => List.mem_singleton.mp hg⟩
theorem witness_BarriersStepsAndCircuits_multicast : let m : McstFlight := { src := 1, targets := [0], off := 0, mask := 1, val := zeroVec, left := 0, clock := 3, poisoned := false }
    let s := { base with clock := 3, mcasts := [m] }
    s.mcasts = [m] ∧ m.src = 1 ∧ m.clock ≤ s.clock ∧ m.targets = [0] := by
  decide
def blocking : Launch := { launch0 with blockedFrom := some 0 }
theorem witness_BarriersStepsAndCircuits_enlarge : let s := { launched blocking (fun x => { x with hold := some .popData }) with
      clock := 1024, dies := [(0, { Die.init with pool := 1 })],
      cores := [(0, { core0 with launch := some 1, circuitCap := 0, seqs := [(0, { seq0 with hold := some .popData })] })] }
    s.launch 1 = some blocking ∧ blocking.blockedFrom = some 0 ∧ 0 + 1024 ≤ s.clock ∧ s.blocked blocking = true ∧ 0 ∈ blocking.cores ∧
      (s.core 0).circuitCap ≤ (s.core 0).circuit.length ∧ (∀ k ∈ blocking.cores, k = 0) ∧ (s.die blocking.die).pool ≠ 0 := by
  refine ⟨rfl, rfl, ?_, rfl, ?_, ?_, ?_, ?_⟩ <;> decide

/-! ### Traps and launches -/

/-- The other sequencer of a launch is idle. -/
theorem witness_UnitControlResults_wake : let s := { launched launch0 id with cores := [(0, { core0 with launch := some 1, seqs := [(0, seq0), (1, Seq.init)] })] }
    (s.myCore.seq (1 - s.cur.q)).run = .idle ∧ s.myCore.launch = some 1 ∧ s.launch 1 = some launch0 ∧ conditionOf s 0 0 = Word.ones := ⟨rfl, rfl, rfl, rfl⟩
def trapping (f : Seq → Seq) : State := onSeq fun x => f { x with trapvec := 0x20000 }
theorem witness_TrapsTakenAndReturned_entry : ((trapping id).seq 0 0).run = .running ∧ ((trapping id).seq 0 0).handler = false ∧
    ((trapping id).seq 0 0).budget = none ∧ ((trapping id).seq 0 0).traceOn = false ∧ ((trapping id).seq 0 0).trapvec ≠ 0 ∧
    (base.seq 0 0).trapvec = 0 ∧ (base.core 0).launch = none := ⟨rfl, rfl, rfl, rfl, by decide, rfl, rfl⟩
theorem witness_TrapsTakenAndReturned_unit : ((launched launch0 id).seq 0 0).trapvec = 0 ∧ ((launched launch0 id).core 0).launch = some 1 ∧
    (launched launch0 id).launch 1 = some launch0 ∧ launch0.hdr.unitPolicy = 2 ∧ Cause.ofCode 1 ≠ .cancel ∧ Cause.ofCode 1 ≠ .preempt :=
  ⟨rfl, rfl, rfl, rfl, by decide, by decide⟩
theorem witness_TrapsTakenAndReturned_deferred : let x := (trapping fun x => { x with pending := [.link, .eccUncorrectable] }).seq 0 0
    FirstPending x.pending .eccUncorrectable ∧ x.run = .running ∧ x.budget = none ∧ x.hold = none ∧ x.recordBuf = none ∧ x.done = false ∧ x.trapvec ≠ 0 := by
  refine ⟨⟨2, rfl, ?_, fun j hj d h => ?_⟩, rfl, rfl, rfl, rfl, rfl, ?_⟩
  · decide
  · match j, hj with
    | 0, _ =>
      cases h
      decide
    | 1, _ =>
      cases h
      decide
  · decide
theorem witness_TrapsTakenAndReturned_second : let x := (trapping fun x => { x with pending := [.cancel], handler := true }).seq 0 0
    FirstPending x.pending .cancel ∧ x.handler = true ∧ x.run = .running ∧ x.budget = none :=
  ⟨⟨0, rfl, by decide, fun j hj => absurd hj (Nat.not_lt_zero j)⟩, rfl, rfl, rfl⟩
/-- Spent in bundles, and spent in clocks. -/
theorem witness_TrapsTakenAndReturned_budget : ((trapping fun x => { x with budget := some (4096, 0) }).seq 0 0).budget = some (4096, 0) ∧
    0 + 65536 ≤ ({ trapping (fun x => { x with budget := some (0, 0) }) with clock := 65536 }).clock := ⟨rfl, by decide⟩
def returning (f : Seq → Seq) : State := trapping fun x => f { x with handler := true, shadow := some (OpPorts.init, ResPorts.init) }
theorem witness_TrapsTakenAndReturned_rft : base.cur.live = true ∧ base.me.handler = false ∧ (returning id).me.handler = true ∧ (returning id).me.budget = none ∧
    (∀ e ∈ (returning id).me.handlerLoads, e.performed = true) ∧ (returning id).me.late = [] ∧ (returning id).me.traceOn = false ∧
    (returning id).me.shadow = some (OpPorts.init, ResPorts.init) ∧
    (∃ e ∈ (returning fun x => { x with handlerLoads := [anyLoad] }).me.handlerLoads, e.performed = false) ∧
    (returning fun x => { x with budget := some (0, 0) }).me.budget.isSome = true :=
  ⟨rfl, rfl, rfl, rfl, by decide, rfl, rfl, rfl, ⟨anyLoad, List.mem_singleton.mpr rfl, rfl⟩, rfl⟩
theorem witness_TrapsTakenAndReturned_cancel : let s := launched launch0 id
    s.launch 1 = some launch0 ∧ launch0.state = .running ∧ s.activeUnits launch0 = [(0, 0)] ∧ ∀ u ∈ s.activeUnits launch0, (s.seq u.1 u.2).traceOn = false :=
  ⟨rfl, rfl, rfl, by decide⟩
def phase0 : LevelRec := { newLevel 1 0 0 0 1 vec0 with posting := true }
theorem witness_TrapsTakenAndReturned_phase : ({ base with phases := [(1, some phase0)] }).level .phase 1 = some phase0 ∧ phase0.posting = true := ⟨rfl, rfl⟩

/-- An image with one bundle of code, a launch header of one core, and a safe point at its bundle. -/
def image0 : Image :=
  { asid := 0, va := 0x10000 - 128,
    bytes := natBytes 64 (2 ^ 48 + 128 * 2 ^ 64 + 16 * 2 ^ 128 + 64 * 2 ^ 256 + 144 * 2 ^ 320 + 2 ^ 384) ++
      natBytes 64 (1 + 2 * 2 ^ 16 + 0x7F * 2 ^ 24 + 2 * 2 ^ 104 + 176 * 2 ^ 128) ++ natBytes 16 0 ++ natBytes 32 0 ++ natBytes 4 0 }
def word0 : BitVec 512 := BitVec.ofNat 512 (1 + 2 ^ 56 + 2 ^ 128 + 2 ^ 176 + 2 ^ 288 + 2 ^ 320 + 2 ^ 336 + 2 ^ 352)
def imaged : State := { State.reset with featBound := true, featAcc := 1, images := [(1, some image0)] }
def start0 : StartVec := startVecOf (natBytes 64 word0.toNat)
theorem witness_LaunchLifecycle_start : imaged.vectorError start0 = .none ∧ (imaged.headerFor start0).isSome = true ∧ imaged.predecessorFailed start0 = false ∧
    imaged.levelCancelled start0 = false ∧ State.reset.vectorError start0 = .launchVector := by
  refine ⟨?_, ?_, ?_, ?_, ?_⟩ <;> decide +kernel
/-- An image whose header asks for forty operand banks, and a vector that opens a graph of two launches. -/
def image1 : Image := { image0 with bytes := image0.bytes.set (64 + 2) 40 }
def start1 : StartVec := startVecOf (natBytes 64 (word0.toNat + 2 ^ 176))
theorem witness_LaunchLifecycle_banks : let s := { imaged with images := [(1, some image1)] }
    s.vectorError start1 = .launchBanks ∧ (s.headerFor start1).isSome = true ∧ s.level .graph start1.graph = none ∧ s.launches = [] ∧ 2 ≤ start1.gsize := by
  refine ⟨?_, ?_, ?_, rfl, ?_⟩ <;> decide +kernel
def spawning : StoreEntry := { anyStore with kind := .spawn 0, parts := [{ loc := .mem 0x10000, bytes := [] }] }
def parent0 : Launch := { newLaunch start0 header0 0 0x10000 0 none {} with state := .running, cores := [0], counter := 1, bays := [0] }
def spawner : State :=
  { imaged with
    cores := [(0, { core0 with launch := some 1, seqs := [(0, { seq0 with stores := [spawning] })] })]
    launches := [(1, some parent0)]
    nextLaunch := 2
    mem := (filled [(0x10000, 64, word0.toNat)] base).mem }
theorem witness_LaunchLifecycle_spawn : NextStore (spawner.seq 0 0) spawning ∧ (spawner.core 0).launch = some 1 ∧ spawner.launch 1 = some parent0 ∧
    { startVecOf (spawner.readLoc (.mem 0x10000) 64).1 with graph := parent0.vec.graph } = start0 ∧ start0.image = parent0.vec.image ∧
    spawner.vectorError start0 = .none ∧ (spawner.headerFor start0).isSome = true ∧ spawner.predecessorFailed start0 = false ∧
    spawner.levelCancelled start0 = false ∧ parent0.onEmpty ≠ .requeueTail ∧ parent0.onEmpty ≠ .discard := by
  refine ⟨nextStore_one _ _ rfl rfl, rfl, rfl, ?_, ?_, ?_, ?_, ?_, ?_, ?_, ?_⟩ <;> decide +kernel
def queued0 : Launch := { newLaunch vec0 header0 0 0x10000 0 none {} with tokens := 3 }
/-- Launch 1 waits in queue 0 of die 0. -/
def queueing : State :=
  { State.reset with
    launches := [(1, some queued0)], nextLaunch := 2, graphs := [(1, some (newLevel 1 0 0 0 1 vec0))],
    dies := [(0, { Die.init with queues := [(0, [1])] })], clock := 65536 }
theorem witness_LaunchLifecycle_select : queueing.preempts 0 = none ∧ queueing.nextPlaced 0 = some (1, queued0) ∧ queued0.state = .queued := by
  refine ⟨?_, ?_, rfl⟩ <;> decide +kernel
theorem witness_LaunchLifecycle_accrual : (queueing.die 0).accrued < queueing.clock ∧ queueing.clock % 65536 = 0 ∧ queueing.candidates 0 = [(1, queued0)] ∧
    queueing.draining 0 1 = false ∧ queueing.launch 1 = some queued0 := by
  refine ⟨?_, ?_, ?_, ?_, rfl⟩ <;> decide +kernel
/-- Launch 2 runs and has been drained for launch 1 since clock 0. -/
def victim0 : Launch := { launch0 with drain := some 0, forLaunch := some 1 }
def draining0 : State := { queueing with launches := [(1, some queued0), (2, some victim0)], nextLaunch := 3, clock := 112500 }
theorem witness_LaunchLifecycle_drain : draining0.launch 2 = some victim0 ∧ victim0.drain = some 0 ∧
    0 + (draining0.die 0).drainUs * microParts ≤ timeNow draining0 0 ∧ victim0.forLaunch = some 1 ∧ draining0.launch 1 = some queued0 ∧
    queued0.tokens < (draining0.die 0).killK := by
  refine ⟨rfl, rfl, ?_, rfl, rfl, ?_⟩ <;> decide +kernel
def checkpointed : Launch := { newLaunch start0 header0 0 0x10000 0 none {} with state := .running, cores := [0], counter := 1, bays := [0], ckpt := some 0 }
def asked (r : Run) (k : Nat) : State := { launched checkpointed (fun x => { x with run := r }) with images := [(1, some image0)], clock := k }
theorem witness_LaunchLifecycle_stop : let s := asked .running 0
    (s.seq 0 0).run = .running ∧ (s.seq 0 0).handler = false ∧ (s.seq 0 0).slot = 0 ∧ (s.seq 0 0).done = false ∧ (s.seq 0 0).recordBuf = none ∧
      (s.seq 0 0).pending = [] ∧ (s.seq 0 0).hold = none ∧ (s.core 0).launch = some 1 ∧ s.launch 1 = some checkpointed ∧ checkpointed.ckpt.isSome = true ∧
      (s.safeMasks 0 0).isSome = true := by
  refine ⟨rfl, rfl, rfl, rfl, rfl, rfl, rfl, rfl, rfl, rfl, ?_⟩
  decide +kernel
theorem witness_LaunchLifecycle_withdraw : let s := asked .running 225000
    s.launch 1 = some checkpointed ∧ s.allStopped checkpointed = false ∧ 0 + 2 * (s.die 0).drainUs * microParts ≤ timeNow s 0 ∧
      checkpointed.forLaunch = none := by
  refine ⟨rfl, rfl, ?_, rfl⟩
  decide +kernel
theorem witness_LaunchLifecycle_save : (asked .parked 0).launch 1 = some checkpointed ∧ (asked .parked 0).saveReady checkpointed = true := ⟨rfl, rfl⟩
def restoring : Launch := { launch0 with state := .restoring, saved := [{ position := 0, core := core0 }] }
theorem witness_LaunchLifecycle_restore : (launched restoring id).launch 1 = some restoring ∧ restoring.cancelled = false ∧
    (restoring.saved.map fun x => restoring.cores.getD x.position 0).Nodup := ⟨rfl, rfl, by decide⟩

/-! ### Engines and Trestle -/

def ring0 : Ring := { running := true, again := false, rm := 0, nextRm := 0, die := 0, completed := 0, tail := none, work := none, finished := none }
/-- A `COPY` of one row that arrives at a barrier of die 0 after each 256 bytes, once its row has been read. -/
def unit0 : EngineUnit := { dst := 0x11000, out := [(1, false)] }
def work0 (bar stage : Nat) (ending : Option Nat) (units : List EngineUnit) : EngineWork :=
  { index := 0, req := natBytes 64 (4 + bar * 2 ^ 32 + 0x10000 * 2 ^ 64 + 0x11000 * 2 ^ 128 + 2 ^ 192 + 2 ^ 224 + stage * 2 ^ 384), rm := 0, clash := false,
    next := 0, pos := 0, made := 0, ending := ending, units := units, line := 0, bad := false, src := 1, dst := 1, flags := 0 }
def engine (x : Ring) (head tail : Nat) : State := { ringed head tail id with rings := [(0, some x)] }
theorem witness_EnginesAndTrestle_request : (engine ring0 0 1).ring 0 0 = some ring0 ∧ ring0.running = true ∧ ring0.finished = none ∧ ring0.work = none ∧
    (((engine ring0 0 1).engineDesc 0 0 0).map fun d => (d.head, d.tail)) = some (0, 1) ∧
    (((engine ring0 0 0).engineDesc 0 0 0).map fun d => (d.head, d.tail)) = some (0, 0) ∧
    (match (engine ring0 0 1).engineRead 0 0 0x19100 64 with
      | .ok b => b.all fun e => !e.2
      | .error _ => false) = true := by
  refine ⟨?_, rfl, rfl, rfl, ?_, ?_, ?_⟩ <;> decide +kernel
/-- Nothing to write: a unit to read, the end without a barrier, and the end in the middle of a stage. -/
theorem witness_EnginesAndTrestle_read : (work0 0 0 none []).nextLine (work0 0 0 none []).xreq = none ∧
    (work0 0 0 (some 0) []).nextLine (work0 0 0 (some 0) []).xreq = none ∧ (work0 0 0 (some 0) []).xreq.bar = 0 ∧
    (let w := work0 0x100000 256 (some 0) []
     let s := { engine { ring0 with work := some w } 0 1 with dies := [(0, { Die.init with barriers := [(0, { Barrier.init with gen := 1, taken := true, parties := 2 })] })] }
     s.ring 0 0 = some { ring0 with work := some w } ∧ w.nextLine w.xreq = none ∧ w.xreq.bar ≠ 0 ∧ w.xreq.stage ≠ 0 ∧ w.dst % w.xreq.stage ≠ 0 ∧
       s.ringCut 0 (w.xreq.bar / 2 ^ 18 % 4) = false ∧ s.liveBarrier (BitVec.ofNat 64 w.xreq.bar) = some (s.barrierAt 0 0) ∧
       (s.barrierAt 0 0).count + 1 ≠ (s.barrierAt 0 0).parties ∧ base.liveBarrier (BitVec.ofNat 64 w.xreq.bar) = none) := by
  refine ⟨?_, ?_, ?_, ?_, ?_, ?_, ?_, ?_, ?_, ?_, ?_, ?_⟩ <;> decide +kernel
theorem witness_EnginesAndTrestle_write : let w := work0 0 0 (some 0) [unit0]
    let x := { ring0 with work := some w }
    (engine x 0 1).ring 0 0 = some x ∧ w.nextLine w.xreq = some 0x110 ∧ w.clash = false ∧ w.xreq.bar = 0 ∧
      (engine x 0 1).resolveIn 0 .store (0x110 * 256) = .at (.mem 0x11000) ∧ (engine x 0 1).cut x.die 0x11000 = false := by
  refine ⟨?_, ?_, rfl, ?_, ?_, ?_⟩ <;> decide +kernel
/-- The record, the completed count and the head, one step each. -/
theorem witness_EnginesAndTrestle_completion (n : Nat) (h : n = 0 ∨ n = 1 ∨ n = 2) : let x := { ring0 with work := some (work0 0 0 (some 0) []), finished := some (1, 1, 0, 0), told := n }
    let s := engine x 0 1
    s.ring 0 0 = some x ∧ (s.engineDesc 0 0 0).map (fun d => (d.cbase, d.log)) = some (0x19200, 0) ∧
      s.resolveIn 0 .store 0x19200 = .at (.mem 0x19200) ∧ s.cut 0 0x19200 = false ∧
      s.ringVa 0 0 = some 0x19000 ∧ s.resolveIn 0 .store 0x19000 = .at (.mem 0x19000) ∧ s.cut 0 0x19000 = false := by
  rcases h with rfl | rfl | rfl <;> (refine ⟨rfl, ?_, ?_, ?_, ?_, ?_, ?_⟩ <;> decide +kernel)
def trestled (t : Trestle) : State := { base with trestle := { t with en := true } }
theorem witness_EnginesAndTrestle_counts : (trestled { Trestle.init with arriving := [(3, 5)] }).trestle.arriving = (3, 5) :: [] ∧
    (trestled Trestle.init).trestle.en = true ∧ (trestled Trestle.init).trestle.windowEnd ≤ (trestled Trestle.init).clock ∧
    (trestled Trestle.init).trestle.plan = none := ⟨rfl, rfl, by decide, rfl⟩
/-- An expert of one page of weights at 0x20000, with its copy at `at_`; the first line differs from the copy's. -/
def planned (at_ : Nat) (p : Plan) : State :=
  { tabled [(0x1E000, 8, 0x20000), (0x1E008, 8, 0x100000000), (0x1E010, 8, at_), (0x1E018, 8, 0), (0x20000, 8, 7)] base with
    trestle := { Trestle.init with en := true, tbase := 0x1E000, plan := some p } }
def plan0 (st : PlanStep) : Plan := { copies := [(0, 1)], retires := [], step := st }
theorem witness_EnginesAndTrestle_copy : let s := planned 0x30000 (plan0 (.copy 0 0))
    s.trestle.plan = some (plan0 (.copy 0 0)) ∧ (plan0 (.copy 0 0)).copies[0]? = some (0, 1) ∧ s.weightLines 0 = 256 ∧
      s.copyPlaces 0 1 0 = some (0x20000, 0x30000) ∧ s.copyPlaces 0 1 1 = some (0x20100, 0x30100) ∧ s.poisonedAt 0x20000 256 = false ∧
      s.poisonedAt 0x30000 256 = false ∧ s.readMem 0x20000 256 ≠ s.readMem 0x30000 256 ∧ s.readMem 0x20100 256 = s.readMem 0x30100 256 ∧
      (planned 0x10000000000000 (plan0 (.copy 0 0))).copyPlaces 0 1 0 = none := by
  refine ⟨rfl, rfl, ?_, ?_, ?_, ?_, ?_, ?_, ?_, ?_⟩ <;> decide +kernel
/-- Every copy has ended; the plan is given up where one has failed; its records are mirrored; it is published. -/
theorem witness_EnginesAndTrestle_publish : (plan0 (.copy 1 0)).copies[1]? = none ∧ (plan0 (.copy 1 0)).failed = [] ∧
    ({ plan0 (.copy 1 0) with failed := [(0, 1, 2)] } : Plan).failed ≠ [] ∧ (plan0 (.mirror 0)).mirrored[0]? = some (0, 1, .live, 0) ∧
    (plan0 (.mirror 1)).mirrored[1]? = none ∧
    (planned 0x30000 (plan0 (.mirror 0))).resolveIn 0 .store (0x1E010 + 7) = .at (.mem 0x1E017) ∧
    ((planned 0x30000 (plan0 (.mirror 0))).mergeRun 0x1E017 (natBytes 1 SlotState.live.code)).resolveIn 0 .store (0x1E010 + 9) = .at (.mem 0x1E019) := by
  refine ⟨rfl, rfl, ?_, rfl, rfl, ?_, ?_⟩ <;> decide +kernel
theorem witness_EnginesAndTrestle_serve : let e := { anyLoad with kind := .epRep 1, parts := [] }
    NextLoad ((loading e).seq 0 0) e ∧ (loading e).repWaits 0 0 = false ∧ (1 : Word).getLsbD 24 = false := ⟨nextLoad_loading _ rfl, rfl, rfl⟩
/-- A check of the master, which is live, of a slot that retires, and of one that is absent. -/
theorem witness_EnginesAndTrestle_check : let s := trestled { Trestle.init with slots := [(1, { Slot.init with state := .retiring, redir := 0 })] }
    (0x1000000 : Word).getLsbD 24 = true ∧ 0x1000000 / 2 ^ 25 % 4 = 0 ∧ s.trestle.stateOf 0 0 = .live ∧ 0x3000000 / 2 ^ 25 % 4 = 1 ∧
      s.trestle.stateOf 0 1 = .retiring ∧ (s.trestle.slot 0 1).redir < 4 ∧ (s.trestle.slot 0 1).redir ≠ 1 ∧ s.trestle.stateOf 0 2 = .absent := by
  refine ⟨rfl, ?_, rfl, ?_, rfl, ?_, ?_, rfl⟩ <;> decide
theorem witness_EnginesAndTrestle_retire : let s := trestled { Trestle.init with slots := [(1, { Slot.init with state := .retiring })] }
    (1 : Nat) ≠ 0 ∧ (s.trestle.slot 0 1).state = .retiring ∧ (s.trestle.slot 0 1).inflight = 0 := ⟨by decide, rfl, rfl⟩

theorem witness_HostActions : base.featOff.getLsbD 7 = false ∧ base.hostPlace 65536 0x10000 .store = some 0x10000 ∧
    base.hostPlace 65536 0x10000 .load = some 0x10000 ∧ 0x10000 % 256 + 256 ≤ 256 := by
  refine ⟨rfl, ?_, ?_, ?_⟩ <;> decide
theorem witness_HostActions_images : imaged.featBound = true ∧ imaged.featAcc.getLsbD 0 = true ∧ imaged.image 0 = none ∧
    (launched { launch0 with vec := start0 } id).launches = [(1, some { launch0 with vec := start0 })] ∧ start0.image = 1 ∧ launch0.state ≠ .complete ∧
    imaged.launches = [] := by
  refine ⟨rfl, rfl, rfl, rfl, ?_, ?_, rfl⟩ <;> decide +kernel
theorem witness_HostActions_bounds : (8 : BitVec 64).toNat % 16 ≤ 8 ∧ 8 < (9 : BitVec 64).toNat % 16 ∧ (7 : BitVec 64).toNat ≤ 7 ∧ (63 : Nat) < 64 ∧
    ({ base with featAcc := 4 }).featAcc.getLsbD 2 = true ∧ base.trestle.en = false := ⟨by decide, by decide, by decide, by decide, rfl, rfl⟩
/-- TCFG and TRES as they stand after reset. -/
theorem witness_HostActions_reads : base.trestle.win < 32 ∧ base.trestle.asid < 2 ^ 16 ∧ (BitVec.ofNat 64 (4 * 16)).getLsbD 0 = base.trestle.en ∧
    (BitVec.ofNat 64 (4 * 16)).getLsbD 1 = base.trestle.tune ∧ (4 * 16) / 4 % 2 ^ 14 = base.trestle.win ∧ base.trestle.res.length = 4 := by
  refine ⟨?_, ?_, rfl, rfl, rfl, rfl⟩ <;> decide
def line0 : CacheLine := { bank := 4, frame := 0, line := 0x100, sectors := [some ([], false)], used := 0 }
theorem witness_PackageEvents_copies : let s := onCore fun k => { k with cache := [line0] }
    ((s.core 0).cache.find? fun l => l.bank == 4 && l.frame == 0 && (l.sectors.getD 0 none).isSome) = some line0 ∧ (s.core 0).lineDirty line0.line = false ∧
      (({ s with dies := [(0, { Die.init with remote := [{ line := 0x100, way := 15, data := [], poisoned := [], pins := 0, used := 0 }] })] }).die 0).remote.any
        (fun l => l.line == 0x100) = true := ⟨rfl, rfl, rfl⟩
theorem witness_PackageEvents : (mapGet Link.init base.links 0).up = true ∧ base.linkPresent 0 = true ∧ base.linkDown 0 = false ∧ 8 < (mapGet Link.init ({ base with links := [(0, { Link.init with resends := 9 })] }).links 0).resends ∧
    ((tiled 0 id).core 0 |>.tile 1).state = .resident ∧ State.reset.cores = [] ∧ State.reset.launches = [] ∧ State.reset.phases = [] :=
  ⟨rfl, rfl, rfl, by decide, rfl, rfl, rfl, rfl⟩

/-! ### Frames, encodings, the step -/

theorem witness_Frames : readSrc 0 .s base = .val (.s 0x10000) base ∧ base.me.traceOn = false ∧ (0 : BitVec 12) ∉ [0x0A9, 0x0AA, 0x0AC] :=
  ⟨rfl, rfl, by decide⟩
theorem witness_Frames_commits : after (exec (.iaAdd 0 0 0) base) (fun t => t.cur.live) = true ∧ after (exec (.move 0 0x0A0 0) base) (fun t => t.cur.live) = true ∧
    after (exec (.syAcq 0 0) base) (fun t => t.cur.live) = true ∧ after (exec (.cede 0) base) (fun t => t.cur.live) = true := ⟨rfl, rfl, rfl, rfl⟩
theorem witness_Frames_tables : after (exec (.kvFork 0 0) (keyed true)) (fun t => t.cur.live) = true ∧
    (match (KvAct.put 0x18100 4 7).first ((keyed true).kvPlace 0 0) 0 0 (keyed true) with
      | .ok _ => true
      | .error _ => false) = true ∧
    after (exec (.kvFree 0 0) (onSeq fun x => { x with done := true, kvLeft := some [] })) (fun t => t.cur.live) = true := by
  refine ⟨?_, ?_, ?_⟩ <;> decide +kernel
/-- A recording that starts, and a marker with the trace off; the buffer's first page is mapped. -/
theorem witness_Frames_trace : after (exec (.crTrace 0 0x801) base) (fun t => t.cur.live && t.me.tracectl.getLsbD 0) = true ∧
    after (exec (.crTrace 0 0x800) base) (fun t => t.cur.live && !t.me.tracectl.getLsbD 0) = true ∧ base.me.trace.count = 0 ∧ base.cur.popped = none ∧ base.me.traceOn = false ∧
    (tabled [] base).resolveIn 0 .store (((tabled [] base).seq 0 0).traceBase + 8) = .at (.mem 8) := by
  refine ⟨?_, ?_, rfl, rfl, rfl, ?_⟩ <;> decide +kernel
theorem witness_Frames_control : after (exec (.call 0 0 2) base) (fun t => t.cur.live) = true ∧ after (exec (.halt 0 0) base) (fun t => !t.cur.live) = true ∧
    after (exec (.trap 0 0 1) (trapping id)) (fun _ => true) = true ∧ after (exec (.wake 0 0 2) (other .running)) (fun t => t.cur.live) = true ∧
    after (exec .rft (returning id)) (fun _ => true) = true ∧ conditionOf (trapping id) 0 0 = Word.ones ∧ (trapping id).me.late = [] ∧ base.cur.q < 2 := by
  refine ⟨?_, ?_, ?_, ?_, ?_, rfl, rfl, ?_⟩ <;> decide +kernel
theorem witness_Frames_port : IsPortMove (.move 0 0x0A0 0) 0 ∧ IsPortMove (.lqPop 0 0x0B3) 0x0A9 ∧ IsControl (.cede 0) :=
  ⟨⟨0, 0x0A0, by decide, by decide, .inl rfl⟩, ⟨0, 0x0B3, by decide, by decide, .inr (.inl ⟨rfl, rfl⟩)⟩,
   .inr (.inr (.inr (.inr (.inr (.inr (.inl ⟨0, rfl⟩))))))⟩
theorem witness_EncodeDecodes : (Instr.iaAdd 3 1 0xFFF).wf = true ∧ (encode (.iaAdd 3 1 0xFFF)).isSome = true ∧ 3 ∈ slotsOf (.iaAdd 3 1 0xFFF) :=
  ⟨by decide, rfl, by decide⟩
/-- The bundle of a state laid out for one instruction is fetched, decoded, checked and does not freeze. -/
def laid : State := State.reset.withFetchWord 32 0x000060A0
def laidIssue : State := (laid.dropGrant 0 0).startIssue 0 0 (bundleExt 0x60A0)
theorem witness_StepRunsBundle_outside : let s := { State.reset with inputs := [(0, .routerDrain)] }
    s.inputs = (0, .routerDrain) :: [] ∧ 0 ≤ s.clock ∧ State.reset.inputs = [] := ⟨rfl, by decide, rfl⟩
theorem witness_StepRunsBundle_fetch : base.resolve 0 0 .fetch (base.seq 0 0).pc.toNat = .at (.mem 0x10000) ∧ base.poisonedAt 0x10000 16 = false ∧
    base.cut (dieOf 0) 0x10000 = false := ⟨rfl, rfl, rfl⟩
theorem witness_StepRunsBundle_issue : 0 ∈ (laid.core 0).grants ∧ (laid.seq 0 0).mayIssue = true ∧ (laid.seq 0 0).slot = 0 ∧
    (decodeBundle 0x60A0).isSome = true := by
  refine ⟨?_, ?_, ?_, ?_⟩ <;> decide +kernel
theorem witness_StepRunsBundle_checks : laidIssue.bundleCheck 0x60A0 0 = none ∧
    firstFreeze ([Instr.move 0 6 0x0A0, .move 0 0 0, .move 0 0 0, .move 0 0 0].map slotSem) laidIssue = none := by
  refine ⟨?_, ?_⟩ <;> decide +kernel
theorem witness_StepRunsBundle_one_move : laid.inputs = [] ∧ laid.moves.length = 1 := by
  refine ⟨rfl, ?_⟩
  decide +kernel
/-- Two bundles that share no part merge; at 63 and at 64 lost merges two that may not. -/
def offering (lost : Nat) (f : Seq → Seq) : State :=
  { (State.reset.withFetchWord 32 0x000060A0) with
    cores := (State.reset.withFetchWord 32 0x000060A0).cores.map fun e => (e.1, { e.2 with lost := lost, grants := [], seqs := [(0, e.2.seq 0), (1, f (e.2.seq 0))] }) }
def isReady (o : Offer) (p : List Nat → Bool → Bool) : Bool := match o with | .ready ps n => p ps n | _ => false
theorem witness_MergeStage : isReady ((offering 64 id).offer 0 0) (fun _ n => !n) = true ∧ isReady ((offering 63 id).offer 0 1) (fun _ n => !n) = true ∧
    (match (offering 0 fun x => { x with run := .idle }).offer 0 1 with
      | .nothing => true
      | _ => false) = true := by
  refine ⟨?_, ?_, ?_⟩ <;> decide +kernel
theorem witness_MemoryStaysCanonical : State.reset.MemOk ∧ after (exec .routerDrain State.reset) (fun _ => true) = true := by
  refine ⟨?_, rfl⟩
  unfold State.MemOk
  decide

/-! ### One step each, with the results of the spec's worked examples where it has one -/

/-- The last result on its way to a port. -/
def sent (o : Out) (p : State → Port) : Option Value := match o with
  | .next t => ((p t).queue.getLast?).map (·.val)
  | _ => none
def isS (w : Word) (v : Option Value) : Bool := v == some (.s w)
def ia0r (s : State) : Port := s.me.results.ia0r
/-- `o` in every operand port of the scalar units, `t` in s1. -/
def scalar (o t : Word) : State :=
  onSeq fun x => { x with sregs := [(1, t)], ports := { x.ports with ia0o := o, ia1o := o, imo := o, plo := o, imp := 5 } }

/-- The shift table of 06_scalar_control.md, at t = 1, 64 and −1. -/
theorem test_shl : isS 2 (sent (exec (.iaShl 0 0 1) (scalar 0x8000000000000001 1)) ia0r) = true ∧
    isS 0 (sent (exec (.iaShl 0 0 1) (scalar 0x8000000000000001 64)) ia0r) = true := ⟨rfl, rfl⟩
theorem test_shr : isS 0x4000000000000000 (sent (exec (.iaShr 0 0 1) (scalar 0x8000000000000001 1)) ia0r) = true ∧
    isS 0 (sent (exec (.iaShr 0 0 1) (scalar 0x8000000000000001 Word.ones)) ia0r) = true := ⟨rfl, rfl⟩
theorem test_sar : isS 0xC000000000000000 (sent (exec (.iaSar 0 0 1) (scalar 0x8000000000000001 1)) ia0r) = true ∧
    isS Word.ones (sent (exec (.iaSar 0 0 1) (scalar 0x8000000000000001 64)) ia0r) = true := ⟨rfl, rfl⟩
theorem test_rotr : isS 0xC000000000000000 (sent (exec (.iaRotr 0 0 1) (scalar 0x8000000000000001 1)) ia0r) = true ∧
    isS 3 (sent (exec (.iaRotr 0 0 1) (scalar 0x8000000000000001 Word.ones)) ia0r) = true := ⟨rfl, rfl⟩
/-- o and t are not exchanged, and results wrap (R72). -/
theorem test_sub_wraps : isS 0xFFFFFFFFFFFFFFFE (sent (exec (.iaSub 0 0 1) (scalar 1 3)) ia0r) = true := rfl
theorem test_andn : isS 0b1100 (sent (exec (.iaAndn 0 0 1) (scalar 0b1110 0b0010)) ia0r) = true := rfl
theorem test_cmplt : isS Word.ones (sent (exec (.iaCmplt 0 0 1) (scalar Word.ones 0)) ia0r) = true ∧
    isS 0 (sent (exec (.iaCmpltn 0 0 1) (scalar Word.ones 0)) ia0r) = true := ⟨rfl, rfl⟩
theorem test_clz : isS 64 (sent (exec (.iaClz 0 0 1) (scalar 0 0)) ia0r) = true ∧ isS 0 (sent (exec (.iaClz 0 0 1) (scalar 0 Word.ones)) ia0r) = true := ⟨rfl, rfl⟩
theorem test_sext : isS 0xFFFFFFFFFFFFFF80 (sent (exec (.iaSext 0 0 1) (scalar 0x180 8)) ia0r) = true ∧
    isS 0x80 (sent (exec (.iaZext 0 0 1) (scalar 0x180 8)) ia0r) = true := ⟨rfl, rfl⟩

/-- The division table of 06_scalar_control.md. -/
def quotient (o : Out) : Option Value × Option Value := (sent o fun s => s.me.results.imr, sent o fun s => s.me.results.imh)
theorem test_div : quotient (exec (.imDiv 0 1) (scalar (BitVec.ofInt 64 (-7)) 2)) = (some (.s (BitVec.ofInt 64 (-3))), some (.s Word.ones)) ∧
    quotient (exec (.imDiv 0 1) (scalar 0x8000000000000000 Word.ones)) = (some (.s 0x8000000000000000), some (.s 0)) := by
  refine ⟨?_, ?_⟩ <;> decide
theorem test_divn : quotient (exec (.imDivn 0 1) (scalar (BitVec.ofInt 64 (-7)) 2)) = (some (.s 0x7FFFFFFFFFFFFFFC), some (.s 1)) ∧
    quotient (exec (.imDivn 0 1) (scalar 7 0)) = (some (.s Word.ones), some (.s 7)) := by
  refine ⟨?_, ?_⟩ <;> decide
/-- `rem` exchanges the ports. -/
theorem test_rem : quotient (exec (.imRem 0 1) (scalar 7 2)) = (some (.s 1), some (.s 3)) := by decide
theorem test_mulhi : sent (exec (.imMulhi 0 1) (scalar Word.ones 1)) (fun s => s.me.results.imr) = some (.s Word.ones) ∧
    sent (exec (.imMulhn 0 1) (scalar Word.ones 1)) (fun s => s.me.results.imr) = some (.s 0) := by
  refine ⟨?_, ?_⟩ <;> decide
theorem test_mad : sent (exec (.imMad 0 1) (scalar 6 7)) (fun s => s.me.results.imr) = some (.s 47) := by decide

/-- Lanes from a list, the others 0. -/
def lanes (l : List Lane) : Vec := l ++ List.replicate (64 - l.length) 0
/-- `o` and `p` in the operand ports of vx, `t` in v1. -/
def vector (o t p : List Lane) : State :=
  onCore fun k => { k with vxo := lanes o, vxp := lanes p, seqs := [(0, { seq0 with vregs := [(1, lanes t)] })] }
def lanesOf (n : Nat) (o : Out) : List Lane := match sent o fun s => s.myCore.vxr with
  | some (.v x) => x.take n
  | _ => []
/-- The selection by elimination of 12_vector.md: `vtopk` with K = 3 and TYPE 2. -/
def topked : Out := exec (.vxVtopk 0 0x041) (vector [] [5, 9, 3, 9, 12, 1, 9, 7] [0x203])
theorem test_vtopk : lanesOf 4 topked = [4, 1, 3, 0xFFFFFFFF] ∧ sent topked (fun s => s.myCore.vxm) = some (.p 0x1A) ∧
    sent topked (fun s => s.myCore.vxs) = some (.s 3) := by
  refine ⟨?_, ?_, ?_⟩ <;> decide +kernel
/-- The ties and NaN keys of 13_vector_notes.md: K = 3 over NaN, −∞, −0 and +0, guarded to those four lanes. -/
theorem test_vtopk_nan : lanesOf 4 (exec (.vxVtopk 1 0x041) { vector [] [0x7FC00000, 0xFF800000, 0x80000000, 0] [0x003] with
    cur := { issue0 with preds := [(1, 0xF)] } }) = [2, 3, 1, 0xFFFFFFFF] := by decide +kernel
/-- The same keys as n8 in a scratchpad: three records at 0x200 (12_vector.md). -/
theorem test_stopk : let s := onCore fun k => { k.writeSpad 0x100 (([5, 9, 3, 9, 12, 1, 9, 7] : List Byte).map some) with
      stopk := some { q := 0, koff := 0x100, n := 8, k := 3, ooff := 0x200, ktype := 8, tag := 4, epoch := 1, order := 0, spoiled := false } }
    after (exec (.stopkComplete 0) s) (fun t => (t.core 0).readSpad 0x200 24 == [4, 0, 0, 0, 12, 0, 0, 0, 1, 0, 0, 0, 9, 0, 0, 0, 3, 0, 0, 0, 9, 0, 0, 0]) = true := by
  decide +kernel
/-- 2^24, 0, 1, 1: the tree gives 16,777,218 and the chain 16,777,216 (13_vector_notes.md). -/
theorem test_vfredadd : sent (exec (.vxVfredadd 0 0x041) (vector [] [0x4B800000, 0, 0x3F800000, 0x3F800000] [])) (fun s => s.myCore.vxs) = some (.s 0x4B800001) := by
  decide +kernel
theorem test_vfscan : (lanesOf 64 (exec (.vxVfscan 0 0x041) (vector [] [0x4B800000, 0, 0x3F800000, 0x3F800000] []))).getLast? = some 0x4B800000 := by
  decide +kernel
/-- A positive d slides toward lane 0 (R154). -/
theorem test_vslide : lanesOf 3 (exec (.vxVslide 0 0x041) (vector [7, 8, 9] [1] [])) = [8, 9, 0] := by decide +kernel
/-- The guarded-off lane holds o (R144). -/
theorem test_vsub_guarded : lanesOf 2 (exec (.vxVsub 1 0x041) { vector [7, 8] [1, 1] [] with cur := { issue0 with preds := [(1, 1)] } }) = [6, 8] := by decide +kernel
theorem test_vfadd : lanesOf 1 (exec (.vxVfadd 0 0x041) (vector [0x3F800000] [0x40000000] [])) = [0x40400000] := by decide +kernel

/-- 1 + 2^−8 + 2^−9 in bf16: 0x3F81 in RNE, 0x3F80 in RTZ (10_numbers.md). -/
theorem test_bf16 : (f32Narrow .bf16 .rne 0x3FC0C000).1 = 0x3FC1 ∧ (f32Narrow .bf16 .rne 0x3F80C000).1 = 0x3F81 ∧
    (f32Narrow .bf16 .rtz 0x3F80C000).1 = 0x3F80 := by
  refine ⟨?_, ?_, ?_⟩ <;> decide +kernel

/-! ### The sources of moves, loops that end, bundles that fail their checks -/

def early : Res := { trig := 0, vis := 1, val := .s 7 }
def later : Res := { trig := 1, vis := 5, val := .s 8 }
/-- An immediate with an extension; a result that no window hides in cycle 3, and one that a window hides; the port of a
handler whose results are all there, and one that has results to come; a port out of reach. -/
theorem witness_MoveResults_sources : base.cur.ext.getD base.cur.slot none = none ∧ BitVec.ofInt 8 (262143 / 2048) = 127 ∧
    base.mayReach (srcUnit 0xA0) = true ∧ base.me.handler = false ∧ handling.me.handler = true ∧
    CurrentIn { cur := early, queue := [] } 3 early ∧ ¬ WindowOpen { cur := early, queue := [] } 3 early ∧
    CurrentIn { cur := early, queue := [later] } 3 early ∧ WindowOpen { cur := early, queue := [later] } 3 early ∧
    CurrentIn { cur := early, queue := [later] } 5 later ∧ (∃ x ∈ [later], ¬ x.vis ≤ 3) ∧ handling.mayReach (srcUnit 0xA5) = false := by
  refine ⟨rfl, rfl, rfl, rfl, rfl, ⟨[], [], rfl, nofun, nofun⟩, nofun, ⟨[], [], rfl, nofun, nofun⟩, ⟨later, List.mem_singleton.mpr rfl, ?_, ?_, ?_⟩,
    ⟨[early], [], rfl, ?_, nofun⟩, ⟨later, List.mem_singleton.mpr rfl, ?_⟩, rfl⟩ <;> decide
theorem witness_MoveResults_drain : let s := onCore fun k => { k with
      drain := some { cycle := 1, rows := [zeroVec], prev := none }, seqs := [(0, { seq0 with cycle := 3 })] }
    s.mayReach (some .mx) = true ∧ s.myCore.drain = some { cycle := 1, rows := [zeroVec], prev := none } ∧ s.me.cycle = 1 + 2 + 0 := ⟨rfl, rfl, rfl⟩

/-- An inner loop in its last pass, and an outer one with two passes left, both ending at this bundle; loops that end
elsewhere; and a bundle that slot 3 leaves. -/
def closing : State := onSeq fun x => { x with loops :=
  [{ start := 0x10000, stop := 0x10000, remaining := 1, passes := 3 }, { start := 0xFFF0, stop := 0x10000, remaining := 2, passes := 0 }] }
theorem witness_LoopResults_end : closing.cur.live = true ∧ closing.cur.next = none ∧
    closing.me.loopStack = [{ start := 0x10000, stop := 0x10000, remaining := 1, passes := 3 }] ++
      [{ start := 0xFFF0, stop := 0x10000, remaining := 2, passes := 0 }] ∧
    (looping 1).me.loopStack = [] ++ [{ start := 0x10000, stop := 0x10010, remaining := 2, passes := 0 }] ∧ (0x10010 : Word) ≠ closing.cur.addr ∧
    ({ closing with cur := { issue0 with next := some 0 } }).cur.next = some 0 ∧ ({ closing with cur := { issue0 with live := false } }).cur.live = false := by
  refine ⟨rfl, rfl, rfl, rfl, ?_, rfl, rfl⟩
  decide
/-- The back edge of the outer loop (R88, R95). -/
theorem test_end_bundle : (closing.endBundle.seq 0 0).pc = 0xFFF0 ∧
    (closing.endBundle.seq 0 0).loopStack = [{ start := 0xFFF0, stop := 0x10000, remaining := 1, passes := 1 }] := ⟨rfl, rfl⟩

theorem witness_StepRunsBundle_hold : State.reset.hostDrops = [] ∧ (laid.seq 0 0).run = .running ∧ (laid.seq 0 0).hold = none ∧ (laid.seq 0 0).recordDue = false :=
  ⟨rfl, rfl, rfl, rfl⟩
/-- A word of format 10; `ia0.r -> ia0.o` twice, the second a read of what the first writes; a header in handler mode. -/
theorem witness_StepRunsBundle_illegal : Illegal false 0x80000000 ∧
    Illegal false (BitVec.setWidth 128 (moveWord 0 6 0x801) ||| (BitVec.setWidth 128 (moveWord 0 7 6) <<< 32)) ∧ Illegal true 0xC0000000 := by
  refine ⟨.inl ⟨0, ?_, ?_⟩, .inr (.inr (.inr (.inr (.inr (.inr (.inl ⟨1, ?_, 0, ?_, .inl ⟨6, ?_, ?_⟩⟩)))))),
    .inr (.inr (.inr (.inr (.inr (.inr (.inr ⟨rfl, .inl ?_⟩))))))⟩
  · decide
  · decide
  · decide
  · decide
  · exact .inl ⟨by decide, .inl ⟨by decide, .inr (.inl ⟨by decide, by decide, by decide⟩)⟩⟩
  · exact .inl ⟨by decide, .inl ⟨by decide, by decide, by decide⟩⟩
  · decide
/-- A source that is reserved, and a trigger of vx in a handler. -/
theorem witness_StepRunsBundle_refused : ReservedAt (BitVec.setWidth 128 (moveWord 0 6 0x0B8)) 0 ∧
    NotHeldAt handling (BitVec.setWidth 128 (moveWord 0 0x200 0x040)) 0 := by
  refine ⟨⟨by decide, .inr (by decide)⟩, ⟨by decide, .inl ⟨.vx, ⟨by decide, ⟨(.vx, 0x200, 0x245, [0xA5, 0xA6]), by decide, rfl, by decide⟩⟩, rfl⟩⟩⟩
/-- `handling`, with a bundle of one move of an immediate into s6: none of the three. -/
theorem witness_StepRunsBundle_passes : isMoveWord (moveWord 0 6 0x801) = true ∧ handling.bundleCheck (BitVec.setWidth 128 (moveWord 0 6 0x801)) 0 = none ∧
    handling.bundleCheck (BitVec.setWidth 128 (moveWord 0 0x200 0x040)) 0 = some .unitNotOwned := by
  refine ⟨?_, ?_, ?_⟩ <;> decide +kernel

/-! ### Control registers, numbers -/

theorem witness_ControlRegisterResults_registers : (base.seq 0 0).loops.length ≤ 6 ∧ (base.seq 0 0).handler = false ∧ (handling.seq 0 0).handler = true ∧
    (base.core 0).claim.getLsbD 0 = true := by
  refine ⟨?_, rfl, rfl, rfl⟩
  decide
/-- FPCTL with a rounding mode that is not one: only the flags are written (R129). -/
theorem test_fpctl : ((base.applyOne 0 0 (.creg 0x002 0x15)).seq 0 0).fpctl = 0x10 ∧ ((base.applyOne 0 0 (.creg 0x002 0x14)).seq 0 0).fpctl = 0x14 ∧
    (base.applyOne 0 0 (.creg 0x000 0x15)).seq 0 0 = base.seq 0 0 := ⟨rfl, rfl, rfl⟩

/-- 1, −0, +∞, a NaN that signals, and 128. -/
theorem witness_VectorFloatResults_values : f32Of 0x3F800000 = .fin false 0x800000 (-23) ∧ f32Of 0x80000000 = .fin true 0 (-149) ∧ f32Of 0x7F800000 = .inf false ∧
    f32Of 0x7F800001 = .nan true ∧ f32Of 0x43000000 = .fin false 0x800000 (-16) := by
  refine ⟨?_, ?_, ?_, ?_, ?_⟩ <;> decide
theorem witness_VectorFloatResults_powers : ratOf (.fin false 0x800000 (-23)) = (2 : Rat) ^ (0 : Int) ∧ ratOf (.fin false 0x800000 (-23)) = ((1 : Int) : Rat) ∧
    128 ≤ ratOf (.fin false 0x800000 (-16)) ∧ ratOf (.fin true 0x800000 (-23)) < 0 ∧ infTimesZero (.inf false) (.fin true 0 0) := by
  refine ⟨?_, ?_, ?_, ?_, false, true, 0, .inl ⟨rfl, rfl⟩⟩ <;> decide +kernel
theorem witness_VectorCompareResults_numbers : (f32Of 0x3F800000).isNan = false ∧ (f32Of 0x40000000).isNan = false ∧ (f32Of 0x7FC00000).isNan = true := by
  decide
/-- 1/3 lies above 0x3EAAAAAA and its half-way point, and rounds to 0x3EAAAAAB; the quotient is not exact (R128). -/
theorem test_rounded : Rounded .f32 .rne false (· < 1 / 3) (· = 1 / 3) 0x3EAAAAAB Flag.nx := by
  refine ⟨by decide, -2, 11184811, 11184811, ?_, ?_, ?_, ?_, ?_, ?_⟩
  · decide +kernel
  · decide +kernel
  · decide +kernel
  · simp only [RoundedTo]
    decide +kernel
  · simp only [RoundedTo]
    decide +kernel
  · rw [if_neg (by decide +kernel)]
    refine ⟨⟨11184811, -25, ?_, ?_⟩, ?_, ?_⟩ <;> decide +kernel

/-! ### Rows in frames, sources that are packed or checked, bound operands -/

/-- Stream 0 describes rows of the sequence `kvseq`, and POS is `pos`; `count` is the frame entry's. -/
def kvStreaming (kvseq pos count : Nat) : State :=
  (kvTables true 0 1 0 2 0 count 0 0xFFFFFFFF).modMe fun x => { x with
    streams := [(0, { stream0 with mode := 1, rows := 0, kvseq := BitVec.ofNat 16 kvseq, pos := BitVec.ofNat 32 pos })] }
/-- A row of a frame that may be written; KVSEQ past the last sequence, and POS past the last token. -/
theorem witness_StreamRowResults_frames : let s := kvStreaming 0 0 1
    let d := s.me.stream 0
    Triggers s 0 0x800 (.s 0) s ∧ d.mode ≠ 0 ∧ d.valid = true ∧ s.kvDesc 0 0 = .ok (some kvDesc0) ∧
      s.kvSeq 0 0 kvDesc0 0 = .ok { length := 1, cap := 2, plist := 0x18300 } ∧ d.known s = none ∧ tabWord s 0x18300 4 0 ∧
      tabWord { s with choices := s.choices + 1 } 0x18200 8 1 ∧ ((kvStreaming 2 0 1).me.stream 0).kvseq.toNat = 2 ∧
      ((kvStreaming 0 1 1).me.stream 0).pos.toNat = 1 :=
  ⟨⟨rfl, rfl, rfl⟩, by decide, rfl, ok_eq (by decide +kernel), ok_eq (by decide +kernel), rfl, ok_eq (by decide +kernel), ok_eq (by decide +kernel), rfl, rfl⟩
/-- The same row, of a frame that is read-only, and of one that is shared. -/
theorem witness_StreamRowResults_kept : tabWord { filled [(0x18202, 1, 1)] (kvStreaming 0 0 1) with choices := 1 } 0x18200 8 65537 ∧ 65537 / 65536 % 2 = 1 ∧
    tabWord { kvStreaming 0 0 2 with choices := 1 } 0x18200 8 2 ∧ 1 < 2 % 65536 ∧
    (onSeq id).kvDesc 0 0 = .ok none ∧ (tabled [(0x1B008, 8, 0x28000)] (onSeq id)).kvDesc 0 0 = .error (.miss 0x28000) :=
  ⟨ok_eq (by decide +kernel), by decide, ok_eq (by decide +kernel), by decide, ok_eq (by decide +kernel), error_eq (by decide +kernel)⟩
theorem witness_StreamRowResults_places : let s := kvStreaming 0 0 1
    LoadRoom s ∧ RowReady s 0 .load 0x10000 .mem ∧ RowReady s 0 .store 0x10000 .mem ∧ RowStamped s 0 0x10000 .mem := by
  refine ⟨?_, ?_, ?_, nofun⟩ <;> (first | unfold LoadRoom | unfold RowReady | skip) <;> decide +kernel
/-- A row that asks for a stamp check, in the one line of its region. -/
theorem witness_StreamRowResults_checked : let s := { digesting 1 with cores := [(0, { core0 with
      seqs := [(0, { seq0 with ports := { seq0.ports with lqb := 0x10000 }, streams := [(0, { stream0 with cols := 4 })] })] })] }
    s.me.ports.lqb.getLsbD 16 = true ∧ RowStamped s 0 0x10000 .mem := by
  refine ⟨rfl, fun _ => ?_⟩
  decide +kernel

/-- A shape record of one row of `cols` elements of format `fmt`, of mode `mode` and with the sequence, POS and flags given. -/
def recordOf (fmt mode cols rstride kvseq pos flags : Nat) : List Byte :=
  natBytes 16 (0x10000 + fmt * 2 ^ 64 + mode * 2 ^ 72 + 2 ^ 80 + cols * 2 ^ 96) ++ natBytes 16 rstride ++ natBytes 8 (kvseq + pos * 2 ^ 32) ++ natBytes 24 flags
/-- One row of token `pos` of sequence `kvseq`; `count` is the frame entry's. -/
def kvTransferring (kvseq pos count : Nat) : State :=
  (kvTables true 1 1 0 2 0 count 0 0xFFFFFFFF).modMe fun x => { x with recordBuf := some (some (recordOf 2 1 4 256 kvseq pos 0)) }
theorem witness_TileTransfersStart_frames : let b := recordOf 2 1 4 256 0 0 0
    let s := kvTransferring 0 0 1
    let d := parseShape b
    s.me.recordBuf = some (some b) ∧ recordValid b = true ∧ field b 40 1 / 4 = 0 ∧ field b 41 23 = 0 ∧ d.rows = 1 ∧ d.mode = 1 ∧
      s.kvDesc 0 0 = .ok (some kvDesc0) ∧ TileRows s d [0x10000] [some (kvDesc0, 0)] ∧ FramesFree s [some (kvDesc0, 0)] 1 := by
  have h : (kvTransferring 0 0 1).kvDesc 0 0 = .ok (some kvDesc0) := ok_eq (by decide +kernel)
  refine ⟨rfl, rfl, ?_, ?_, rfl, rfl, h, ⟨rfl, rfl, fun r hr => ?_⟩, fun i hi k f e => ?_⟩
  · decide
  · decide
  · obtain rfl : r = 0 := by simpa [show (parseShape (recordOf 2 1 4 256 0 0 0)).rows = 1 from rfl] using hr
    exact ⟨kvDesc0, { length := 1, cap := 2, plist := 0x18300 }, 0, h, by decide, ok_eq (by decide +kernel), by decide, ok_eq (by decide +kernel), rfl, rfl⟩
  · obtain rfl : i = 0 := by omega
    simp only [List.getElem?_cons_zero, Option.some.injEq, Prod.mk.injEq] at e
    obtain ⟨rfl, rfl⟩ := e
    exact ⟨1, ok_eq (by decide +kernel), by decide, by decide⟩
/-- A token past LENGTH, a sequence past NSEQ, and frames that are read-only and shared. -/
theorem witness_TileTransfersStart_stops : rowPos (parseShape (recordOf 2 1 4 256 0 1 0)) 0 = 1 ∧ (parseShape (recordOf 2 1 4 256 2 0 0)).kvseq = 2 ∧
    tabWord (filled [(0x18202, 1, 1)] (kvTransferring 0 0 1)) 0x18200 8 65537 ∧ tabWord (kvTransferring 0 0 2) 0x18200 8 2 :=
  ⟨by decide, by decide, ok_eq (by decide +kernel), ok_eq (by decide +kernel)⟩
/-- A packed source of one chunk; one of an HX format, one with a gap between its rows, and one of mode 1, which no record
may have. -/
theorem witness_TileTransfersStart_packed : let d := fun b => parseShape b
    recordValid (recordOf 2 0 4 4 0 0 2) = true ∧ (d (recordOf 2 0 4 4 0 0 2)).zpack = true ∧ (hxOf (d (recordOf 2 0 4 4 0 0 2)).fmt).isSome = false ∧
      (d (recordOf 2 0 4 4 0 0 2)).mode = 0 ∧ (d (recordOf 2 0 4 4 0 0 2)).rstride.toNat = 4 * elemBytes 2 ∧
      recordValid (recordOf 11 0 16 256 0 0 2) = true ∧ (hxOf (d (recordOf 11 0 16 256 0 0 2)).fmt).isSome = true ∧
      recordValid (recordOf 2 0 4 256 0 0 2) = true ∧ (d (recordOf 2 0 4 256 0 0 2)).rstride.toNat ≠ 4 * elemBytes 2 := by
  refine ⟨?_, ?_, ?_, ?_, ?_, ?_, ?_, ?_, ?_⟩ <;> decide
/-- A stamp check of a line in a region, and of one outside. -/
theorem witness_TileTransfersStart_checked : let s := { digesting 1 with cores := [(0, { core0 with
      seqs := [(0, { seq0 with ports := { seq0.ports with lqb := 0x10000 } })] })] }
    s.me.ports.lqb.getLsbD 16 = true ∧ s.inRegion (.mem 0x10000) = true ∧ s.inRegion (.mem 0x20000) = false := ⟨rfl, by decide, by decide⟩

/-- The directory or the entry that a registration refuses; pages that are not mapped, are captured, or overlap. -/
theorem witness_RegionRegistration_traps : let s := registering 1 true
    (onSeq id).digbase.getLsbD 0 = false ∧ (0x1C001 : Nat) % 2 = 1 ∧ 0x1C001 / 2 % 2 ^ 12 = 0 ∧ 0x1C001 / 2 ^ 52 = 0 ∧ 0x1C003 / 2 % 2 ^ 12 ≠ 0 ∧
      ({ s with ctxbase := 0 } : State).regionPages 0 region0 = none ∧
      mapGet none (({ s with captured := [(1, some { region := 9, dbase := 0 })] } : State).removeRegion 0).captured 1 ≠ none ∧
      (({ s with regions := [(1, some region0)] } : State).removeRegion 0).overlaps 0 region0 = true := by
  refine ⟨rfl, ?_, ?_, ?_, ?_, ?_, ?_, ?_⟩ <;> decide +kernel

/-- A tile that is bound at two bytes of the line 0x100, and reads them from the line's copy. -/
def bound0 : Tile := { tileOf 2 1 2 [] with state := .bound, src := [0x10001, 0x10000], lines := [0x100], copies := [(0x100, ([7, 9], []))] }
theorem witness_UnitsComplete_bound : OperandRead core0 { opOf (.product 0 1 2 1 false false) [0] [1, 2] false with bound := [(1, bound0)] } 1
    { bound0 with state := .resident, data := [9, 7] } ∧
    OperandRead core0 { opOf (.product 0 1 2 1 false false) [0] [1, 2] false with bound := [(1, bound0)] } 2 (core0.tile 2) := by
  refine ⟨⟨rfl, fun l => (bound0.copies.lookup l).getD ([], []), fun _ => rfl, ?_, rfl⟩, rfl⟩
  decide
/-- A chunk of one group of eight bytes, its third; one that is stored raw; and a header whose LENGTH is not its groups'. -/
theorem witness_UnitsComplete_packed : HeaderOk 0x0008000000000004 ∧ HeaderOk 0x8100000000000000 ∧ ¬ HeaderOk 0x0008000000000000 ∧
    Breaks 1 (natBytes 8 0x0008000000000000) ∧
    Expands 1 (natBytes 8 0x0008000000000004 ++ [1, 2, 3, 4, 5, 6, 7, 8])
      (List.replicate 16 0 ++ [1, 2, 3, 4, 5, 6, 7, 8] ++ List.replicate 232 0) := by
  have no : ¬ HeaderOk 0x0008000000000000 := by
    unfold HeaderOk
    decide +kernel
  refine ⟨?_, ?_, no, .inl ?_, ?_, _, [], ⟨?_, ?_⟩, rfl, (List.append_nil _).symm⟩
  · unfold HeaderOk
    decide +kernel
  · unfold HeaderOk
    decide +kernel
  · exact no
  · unfold HeaderOk
    decide +kernel
  · decide +kernel
  · decide +kernel
theorem witness_UnitsComplete_source : SourceIs (parseShape (recordOf 2 0 4 4 0 0 2)) (natBytes 8 0x0008000000000004 ++ [1, 2, 3, 4, 5, 6, 7, 8])
    [0, 0, 0, 0] ∧ (parseShape (recordOf 2 0 4 4 0 0 2)).zpack = true ∧ (parseShape (record 2 4)).zpack = false := by
  refine ⟨⟨_, witness_UnitsComplete_packed.2.2.2.2, ?_⟩, rfl, rfl⟩
  decide
/-- The ring link between dies 0 and 1 is down; an operand poisoned, and one not. -/
theorem witness_BarriersStepsAndCircuits_cut : let e := { waiting with kind := .bwait (handle0 ||| 0x40000) 8 8 2 (some 0) }
    let s := { loading e with links := [(17, { Link.init with up := false })] }
    NextLoad (s.seq 0 0) e ∧ s.ringCut 0 1 = true ∧ (handle0 ||| 0x40000).toNat / 2 ^ 18 % 4 = 1 ∧ (loading e).ringCut 0 1 = false :=
  ⟨nextLoad_one _ _ rfl rfl rfl, by decide, by decide, by decide⟩

/-- An invalidation of the host that q0 has still to make, the only one that has. -/
theorem witness_HostActions_drops : let s := { base with hostDrops := [(0, true, 0, [(0, 0)])] }
    s.hostDrops = (0, true, 0, [(0, 0)]) :: [] ∧ (0, 0) ∈ [((0, 0) : Nat × Nat)] ∧ s.granted = [] ∧ (0 : Nat) ∈ s.coreIds ∧ (s.seq 0 0).asid = 0 :=
  ⟨rfl, by decide, rfl, by decide, rfl⟩

/-- A `kv.map` that has its words still to read, one that has the descriptor, and one that has all. -/
def mapped (pos n : Nat) : LoadEntry := { mapping pos with words := [((0x18000, 8), 0x18100), ((0x18008, 4), 2), ((0x18010, 8), 0x18200), ((0x18020, 8), 0),
  ((0x18100, 4), 1), ((0x18104, 2), 2), ((0x18108, 8), 0x18300), ((0x18300, 4), 0)].take n }
theorem witness_LoadsArePerformed_words : let s := keyed true
    let get := fun e : LoadEntry => readOr e.words fun va n => .error (.need va n)
    s.mapLook 0 0 (mapped 0 0) = .error (.need 0x18000 8) ∧ (s.mapView 0 0 (mapped 0 0)).kvGet 0 0 0x18000 8 = .ok 0x18100 ∧
      s.kvAt 0 0 = 0x18000 ∧ (onSeq id).kvAt 0 0 = 0 ∧ kvDescBy (get (mapped 0 4)) 0x18000 = .ok (some kvDesc0) ∧
      kvSeqBy (get (mapped 0 7)) kvDesc0 0 = .ok { length := 1, cap := 2, plist := 0x18300 } ∧ get (mapped 0 8) 0x18300 4 = .ok 0 :=
  ⟨error_eq (by decide +kernel), ok_eq (by decide +kernel), by decide +kernel, rfl, ok_eq (by decide +kernel), ok_eq (by decide +kernel),
    ok_eq (by decide +kernel)⟩
/-- A ring whose descriptor lies in a page that misses. -/
theorem witness_ExpertAndKickTriggers_miss : let s := tabled [(0x1B010, 8, 0x30000)] (onSeq fun x => { x with done := true })
    s.me.done = true ∧ s.ringVa 0 0 = some 0x30000 ∧ s.resolve 0 0 .load 0x30000 = .miss := by
  refine ⟨rfl, ?_, ?_⟩ <;> decide +kernel
/-- The worked block of 11_number_notes.md. -/
def block0 : List Lane := [0x40400000, 0xBFA00000, 0x3F000000, 0x3E800000, 0x40F00000, 0x40000000, 0, 0x80000000, 0x3F800000, 0xBE400000,
  0x3DCCCCCD, 0x3D4CCCCD, 0xC0C00000, 0x3FC00000, 0x3F400000, 0x3CF5C28F]
theorem test_hx4 : natBytes 12 (Hx.encode .hx4 .rne (block0.map f32Of)).1 = [0x81, 0x21, 0xAC, 0x8A, 0xF0, 0x08, 0x00, 0x48, 0x06, 0xC0, 0x87, 0x00] := by
  decide +kernel
/-- Elements 4, 9 and 12 read back: 7.5, −0.25 and −6.0. -/
theorem test_hx4_back : let n := leNat [0x81, 0x21, 0xAC, 0x8A, 0xF0, 0x08, 0x00, 0x48, 0x06, 0xC0, 0x87, 0x00]
    Hx.lane .hx4 n 4 = 0x40F00000 ∧ Hx.lane .hx4 n 9 = 0xBE800000 ∧ Hx.lane .hx4 n 12 = 0xC0C00000 := by
  refine ⟨?_, ?_, ?_⟩ <;> decide +kernel

/-- A predicate move takes a lane's bit 0 or the whole of a scalar; bits outside the guard keep `pl.o` (R76). -/
theorem test_pand : sent (exec (.plPand 0 0x061) { scalar 0b110 0 with cur := { issue0 with preds := [(1, 0b011)] } })
    (fun s => s.me.results.plr) = some (.p 0b010) := by decide
theorem test_p0_discards : after (exec (.move 0 0x060 0x800) base) (fun t => t.me.preg 0 == Word.ones) = true := by decide
theorem test_move_immediate : after (exec (.move 0 0x005 0xFFF) base) (fun t => t.me.sreg 5 == Word.ones) = true := by decide
theorem test_wide_immediate : after (exec (.wideImmediateMove 5 0x40000) base) (fun t => t.me.sreg 5 == 0xFFFFFFFFFFFC0000) = true := by decide
theorem test_cq : after (exec (.cqPop 0 5) (counted 1)) (fun t => t.me.sreg 5 == 3 && t.me.countQueue == []) = true := by decide

/-- Three bundles back, and five on (06_scalar_control.md). -/
theorem test_br : after (exec (.br 0 0 0 0x1FFFD) base) (fun t => t.cur.next == some 0xFFD0) = true ∧
    after (exec (.br 1 1 1 5) (looping 1)) (fun t => t.cur.next == some 0x10050 && t.me.loopStack == []) = true := by
  refine ⟨?_, ?_⟩ <;> decide
theorem test_call : after (exec (.call 0 0 2) base) (fun t => t.cur.next == some 0x10020 && t.me.sreg 63 == 0x10010) = true := by decide
theorem test_loop : after (exec (.loop 0 0) base) (fun t => t.me.loopStack == [{ start := 0x10010, stop := 0x10010, remaining := 0x10000, passes := 0 }]) = true ∧
    after (exec (.loop 1 0) base) (fun t => t.cur.next == some 0x10020 && t.me.loopStack == []) = true := by
  refine ⟨?_, ?_⟩ <;> decide

/-- Taking a trap: the pc, the slot and the cause are saved, and the handler starts (R269). -/
theorem test_trap_entry : after (exec (.trapEntry 0 0 (Cause.code .misaligned) 2 0x12345) (trapping id)) (fun t =>
    let x := t.seq 0 0
    x.handler && x.pc == 0x20000 && x.xpc == 0x10000 && x.rslot == 2 && x.cause == .misaligned && x.fpage == 1) = true := by decide
theorem test_rft : after (exec .rft (returning fun x => { x with xpc := 0x10040, rslot := 3 })) (fun t =>
    !(t.seq 0 0).handler && (t.seq 0 0).pc == 0x10040 && (t.seq 0 0).slot == 3) = true := by decide
theorem test_rft_outside : after (exec .rft (trapping id)) (fun t => (t.seq 0 0).handler && (t.seq 0 0).cause == .privilege) = true := by decide

/-- A sign-extended byte, and a big value from its least significant byte on (R5, R104). -/
def holding (k : LoadKind) (n : Nat) : State := { loading { anyLoad with kind := k, parts := [.bytes (.mem 0x10000) n] } with mem := [(0x10000, 0x80), (0x10001, 0x12)] }
def valueOf (o : Out) : List Value := match o with
  | .next t => (t.seq 0 0).loads.map (·.value)
  | _ => []
theorem test_ldbs : valueOf (exec (.loadPerformed 0 0) (holding (.scalar 1 true) 1)) = [.s 0xFFFFFFFFFFFFFF80] := by decide
theorem test_ldh : valueOf (exec (.loadPerformed 0 0) (holding (.scalar 2 false) 2)) = [.s 0x1280] := by decide
theorem test_sth : after (exec (.sqSth 0 1) { gathering with cores := [(0, { core0 with seqs := [(0, { seq0 with sregs := [(1, 0x11234)], ports := { OpPorts.init with sqo := 0x10002 } })] })] })
    (fun t => t.me.stores.map (·.parts) == [[{ loc := .mem 0x10002, bytes := [some 0x34, some 0x12] }]]) = true := by decide
theorem test_merge : after (exec (.merge 0 0) (storing anyStore)) (fun t => t.readByte 0x10000 == 7 && (t.seq 0 0).stores == []) = true := by decide
/-- `aincb` stops at its bound, and returns the old word (R220). -/
def bounding (w : Byte) : State :=
  { onSeq (fun x => { x with loads := [{ adding with kind := .atomic .aincb 2 0 }], stores := [addingStore] }) with mem := [(0x10000, w)] }
theorem test_aincb : after (exec (.atomicApply 0 0) (bounding 1)) (fun t => t.readByte 0x10000 == 2 && (t.seq 0 0).loads.map (·.value) == [.s 1]) = true ∧
    after (exec (.atomicApply 0 0) (bounding 2)) (fun t => t.readByte 0x10000 == 2) = true := by
  refine ⟨?_, ?_⟩ <;> decide
/-- The last arrival completes the phase (R225). -/
theorem test_arrival : after (exec (.barrierArrival 0 0) (meeting 1 { anyStore with kind := .arrival handle0 0 5 }))
    (fun t => (t.barrierAt 0 0).phase == 1 && (t.barrierAt 0 0).count == 0) = true := by decide
/-- (1, 2, 3, 4) · (5, 6, 7, 8) = 70 (R183). -/
theorem test_product : after (exec (.tileOpComplete 0 false) (inMx (opOf (.product 0 1 2 1 false false) [0] [1, 2] false)))
    (fun t => ((t.core 0).tile 0).data == [70, 0, 0, 0] && (t.core 0).tileReady 0) = true := by decide +kernel
/-- `kv.app` of one token within a page (R285). -/
theorem test_kv_app : after (exec (.kvApp 0 0) (keyed true)) (fun t => t.readMem 0x18100 4 == [2, 0, 0, 0]) = true := by decide +kernel
/-- `kv.fork` raises the count of the frame and lists it (R284). -/
theorem test_kv_fork : after (exec (.kvFork 0 0) (keyed true)) (fun t => t.readMem 0x18200 2 == [2, 0] && t.readMem 0x18110 4 == [1, 0, 0, 0]) = true := by
  decide +kernel
/-- A good start vector queues launch 1; the same before FEATACC is written is rejected (R251). -/
theorem test_start_vector : after (exec (.startVector word0) imaged) (fun t => (t.launch 1).map (·.state) == some .queued && t.posted == []) = true ∧
    after (exec (.startVector word0) State.reset) (fun t => t.posted.map (·.cause) == [.launchVector]) = true := by
  refine ⟨?_, ?_⟩ <;> decide +kernel
/-- The decoder and the step on a word laid out for them. -/
theorem test_table_word : decodeTableWord 32 0x02A1A042 = some (.vxVfadd 5 0x042) := by decide
theorem test_step : after (exec (.bundleIssue 0 0) (State.reset.withFetchWord 32 0x00005801)) (fun t => (t.seq 0 0).sreg 5 == 1 && (t.seq 0 0).pc == 0x10010) = true := by
  decide +kernel
/-- A slot that traps has not popped its source (R57, R66): `cq.pop -> cr.rd` of a register that is not there. -/
theorem test_pop_at_trap : after (exec (.crRd 0 0x0AC) (trapping fun x => { x with countQueue := [5] }))
    (fun t => (t.seq 0 0).cause == .reservedPort && (t.seq 0 0).countQueue == [5]) = true := by decide
/-- The pushes of `ep.hist` are writes of the count queue, which a later slot may not read (R63, R294). -/
theorem test_hist_clash : slotClashes (0xC0000000000000000000000000000000#128 ||| (BitVec.setWidth 128 (moveWord 0 5 0x0AC) <<< 32) ||| BitVec.setWidth 128 (moveWord 0 0x3A5 0x040)) 1 = true := by
  decide +kernel
end Sys2Proof.Tests
end

section
/-! Stops of units, and what the package's events do: attestation, resets, power, links and soft errors (O53). -/
namespace Sys2Proof.Machine
open Sys2Proof.Laws

/-! ### What a stop leaves alone (R35, R276) -/

/-- A reading of the state that no merge, no trace record and no change of a core or a die reaches. -/
def Aside {β : Type} (g : State → β) : Prop :=
  ∀ (s : State) cores dies mem poison dirty free digests unsaved renewed released linked merges,
    g { s with cores := cores, dies := dies, mem := mem, poison := poison, dirty := dirty, free := free, digests := digests,
               unsaved := unsaved, renewed := renewed, released := released, linked := linked, merges := merges } = g s

theorem aside_launches : Aside State.launches := by intros s; intros; rfl
theorem aside_thermalReports : Aside State.thermalReports := by intros s; intros; rfl

section
variable {β : Type} {g : State → β} (hg : Aside g)
include hg

theorem Aside.writeMem (s : State) (pa : Nat) (bs : List (Option Byte)) : g (s.writeMem pa bs) = g s := by
  induction bs generalizing s pa with
  | nil => rfl
  | cons b bs ih =>
    cases b with
    | none => exact ih s (pa + 1)
    | some v => exact (ih (s.writeByte pa v) (pa + 1)).trans (hg s ..)

theorem Aside.modDie (s : State) (d : Nat) (f : Die → Die) : g (s.modDie d f) = g s := hg s ..

theorem Aside.modCore (s : State) (c : Nat) (f : Core → Core) : g (s.modCore c f) = g s := hg s ..

theorem Aside.modSeq (s : State) (c q : Nat) (f : Seq → Seq) : g (s.modSeq c q f) = g s := hg s ..

theorem Aside.setDigest (s : State) (line : Nat) (r : DigestRec) : g (s.setDigest line r) = g s := hg s ..

theorem Aside.homeUse (s : State) (pa : Nat) : g (s.homeUse pa) = g s := by
  unfold State.homeUse
  split
  · rfl
  · exact hg.modDie ..

theorem Aside.dropSigs (s : State) (pa : Nat) (bs : List (Option Byte)) : g (s.dropSigs pa bs) = g s := by
  unfold State.dropSigs
  dsimp only
  split
  · exact (hg.modDie ..).trans (hg s ..)
  · exact hg s ..

theorem Aside.mergeDigest (s : State) (pa : Nat) : g (s.mergeDigest pa) = g s := by
  unfold State.mergeDigest
  split
  · exact hg.setDigest ..
  · rfl

theorem Aside.spoilRecords (s : State) (pa : Nat) (bs : List (Option Byte)) : g (s.spoilRecords pa bs) = g s :=
  foldl_same g _ (fun s _ => (hg.setDigest ..).trans (hg s ..)) _ _

theorem Aside.mergeHome (s : State) (pa : Nat) (bs : List (Option Byte)) : g (s.mergeHome pa bs) = g s := by
  unfold State.mergeHome
  split
  · calc
      _ = g (((s.homeUse pa).writeMem pa bs).dropSigs pa bs) := by
        rw [hg.spoilRecords, hg.mergeDigest]
        exact hg (((s.homeUse pa).writeMem pa bs).dropSigs pa bs) ..
      _ = g s := by rw [hg.dropSigs, hg.writeMem, hg.homeUse]
  · rfl

theorem Aside.mergeRun (s : State) (pa : Nat) (bs : List Byte) : g (s.mergeRun pa bs) = g s :=
  foldl_same g _ (fun _ _ => hg.mergeHome ..) _ _

theorem Aside.tracePut (s : State) (c q off w : Nat) : g (s.tracePut c q off w) = g s := by
  unfold State.tracePut
  dsimp only
  split
  · exact hg.mergeRun ..
  · rfl

theorem Aside.tracePuts (s : State) (c q off : Nat) (ws : List Nat) : g (s.tracePuts c q off ws) = g s :=
  (hg.tracePut ..).trans (foldl_same g _ (fun _ _ => hg.tracePut ..) _ _)

theorem Aside.traceRaw (s : State) (c q : Nat) (ws : List Nat) : g (s.traceRaw c q ws) = g s := by
  unfold State.traceRaw
  dsimp only
  (repeat' split) <;> simp only [hg.tracePuts, hg.tracePut]

theorem Aside.traceFlush (s : State) (c q : Nat) : g (s.traceFlush c q) = g s := by
  unfold State.traceFlush
  dsimp only
  split
  · rfl
  · exact (hg.modSeq ..).trans (hg.traceRaw ..)

theorem Aside.traceRec (s : State) (c q : Nat) (ws : List Nat) : g (s.traceRec c q ws) = g s := by
  unfold State.traceRec
  split
  · rw [hg.traceRaw, hg.traceFlush]
  · rfl

theorem Aside.traceStallEnd (s : State) (c q : Nat) : g (s.traceStallEnd c q) = g s := by
  unfold State.traceStallEnd
  dsimp only
  split
  · exact (hg.modSeq ..).trans (foldl_same g _ (fun _ _ => hg.traceRec ..) _ _)
  · rfl

theorem Aside.traceEnd (s : State) (c q : Nat) : g (s.traceEnd c q) = g s := by
  unfold State.traceEnd
  dsimp only
  split
  · rw [hg.traceFlush, hg.traceStallEnd]
  · exact hg.traceStallEnd ..

theorem Aside.stopUnit (s : State) (c q : Nat) : g (s.stopUnit c q) = g s :=
  (hg.modCore ..).trans (hg.traceEnd ..)

theorem Aside.stopAll (s : State) (us : List (Nat × Nat)) : g (s.stopAll us) = g s :=
  foldl_same g _ (fun _ _ => hg.stopUnit ..) _ _

end

/-! ### The trace and the sequencers -/

@[simp] theorem State.tracePut_cores (s : State) (c q off w : Nat) : (s.tracePut c q off w).cores = s.cores := by
  unfold State.tracePut
  dsimp only
  split <;> simp

@[simp] theorem State.tracePuts_cores (s : State) (c q off : Nat) (ws : List Nat) : (s.tracePuts c q off ws).cores = s.cores := by
  unfold State.tracePuts
  simpa using foldl_same State.cores _ (by intros; simp) _ _

@[simp] theorem State.traceRaw_cores (s : State) (c q : Nat) (ws : List Nat) : (s.traceRaw c q ws).cores = s.cores := by
  unfold State.traceRaw
  dsimp only
  (repeat' split) <;> simp

theorem State.seq_of_cores {s t : State} (h : t.cores = s.cores) (c q : Nat) : t.seq c q = s.seq c q := by
  simp only [State.seq, State.core, h]

/-- A change of one sequencer leaves what it does not write, of every sequencer. -/
theorem State.seq_modSeq_same {β : Type} (p : Seq → β) (s : State) (c q : Nat) (f : Seq → Seq) (h : ∀ x, p (f x) = p x)
    (k u : Nat) : p ((s.modSeq c q f).seq k u) = p (s.seq k u) := by
  by_cases hu : k = c ∧ u = q
  · obtain ⟨rfl, rfl⟩ := hu
    rw [State.seq_modSeq, h]
  · rw [State.seq_modSeq_ne s f (by omega)]

section
variable {β : Type} {p : Seq → β} (hp : ∀ x tr, p { x with trace := tr } = p x) (k u : Nat)
include hp

theorem State.traceFlush_seq (s : State) (c q : Nat) : p ((s.traceFlush c q).seq k u) = p (s.seq k u) := by
  unfold State.traceFlush
  dsimp only
  split
  · rfl
  · rw [State.seq_modSeq_same p _ _ _ _ (fun x => hp x _), State.seq_of_cores (State.traceRaw_cores ..)]

theorem State.traceRec_seq (s : State) (c q : Nat) (ws : List Nat) : p ((s.traceRec c q ws).seq k u) = p (s.seq k u) := by
  unfold State.traceRec
  split
  · rw [State.seq_of_cores (State.traceRaw_cores ..), State.traceFlush_seq hp]
  · rfl

theorem State.traceStallEnd_seq (s : State) (c q : Nat) : p ((s.traceStallEnd c q).seq k u) = p (s.seq k u) := by
  unfold State.traceStallEnd
  dsimp only
  split
  · rw [State.seq_modSeq_same p _ _ _ _ (fun x => hp x _)]
    exact foldl_same (fun s : State => p (s.seq k u)) _ (fun s w => State.traceRec_seq hp k u s c q [w]) _ _
  · rfl

/-- The end of a trace leaves all of every sequencer but its trace. -/
theorem State.traceEnd_seq (s : State) (c q : Nat) : p ((s.traceEnd c q).seq k u) = p (s.seq k u) := by
  unfold State.traceEnd
  dsimp only
  split
  · rw [State.traceFlush_seq hp, State.traceStallEnd_seq hp]
  · exact State.traceStallEnd_seq hp k u s c q

end

/-- With recording off the end of a trace writes nothing to memory (R276). -/
theorem State.traceEnd_mem_off (s : State) (c q : Nat) (h : (s.seq c q).traceOn = false) : (s.traceEnd c q).mem = s.mem := by
  have hon : ((s.traceStallEnd c q).seq c q).traceOn = false :=
    (State.traceStallEnd_seq (p := Seq.traceOn) (fun _ _ => rfl) c q s c q).trans h
  have hrec : ∀ (ws : List Nat), ws.foldl (fun s w => s.traceRec c q [w]) s = s := fun ws =>
    foldl_keeps (· = s) _ (fun t w ht => by rw [ht, State.traceRec_off _ h]) ws s rfl
  simp only [State.traceEnd, hon, Bool.false_eq_true, if_false]
  unfold State.traceStallEnd
  dsimp only
  split
  · rw [State.modSeq_mem, hrec]
  · rfl

/-! ### Stopping units (R35) -/

theorem overBits_seqs (mask : Nat) (f : Core → Nat → Core) (h : ∀ k b, (f k b).seqs = k.seqs) (k : Core) :
    (overBits mask f k).seqs = k.seqs :=
  foldl_same Core.seqs _ (fun k b => by split; exacts [h k b, rfl]) _ _

theorem Core.settle_seqs (k : Core) (now b : Nat) : (k.settle now b).seqs = k.seqs := by
  unfold Core.settle
  split <;> rfl

theorem Core.discardUnit_seqs (k : Core) (now b : Nat) : (k.discardUnit now b).seqs = k.seqs := by
  unfold Core.discardUnit
  split <;> rfl

/-- Leases that change hands leave the sequencers. -/
theorem Core.passLeases_seqs (k : Core) (q : Nat) (halted : Bool) : (k.passLeases q halted).seqs = k.seqs := by
  have hd : (overBits (k.heldMask q) (fun k b => k.discardUnit (k.seq q).cycle b) k).seqs = k.seqs :=
    overBits_seqs _ _ (fun k b => Core.discardUnit_seqs k _ b) k
  unfold Core.passLeases
  dsimp only
  split
  · exact overBits_seqs _ _ (fun k b => Core.settle_seqs k _ b) k
  · split <;> exact hd

theorem State.stopUnit_seq_same (s : State) (c q : Nat) : (s.stopUnit c q).seq c q = ((s.traceEnd c q).seq c q).ended := by
  simp [State.stopUnit, State.seq, Core.seq, Core.passLeases_seqs, Core.setSeq]

theorem State.stopUnit_seq_ne (s : State) {c q k u : Nat} (h : k ≠ c ∨ u ≠ q) :
    (s.stopUnit c q).seq k u = (s.traceEnd c q).seq k u := by
  unfold State.stopUnit State.seq
  by_cases hk : k = c
  · subst hk
    have hu : u ≠ q := h.resolve_left fun hn => hn rfl
    rw [State.core_modCore]
    dsimp only
    rw [Core.seq_setSeq_ne _ _ hu, Core.seq, Core.passLeases_seqs, Core.seq]
  · rw [State.core_modCore_ne _ _ hk]

theorem State.stopUnit_run (s : State) (c q k u : Nat) :
    ((s.stopUnit c q).seq k u).run = if k = c ∧ u = q then .ending else (s.seq k u).run := by
  split
  · rename_i h
    obtain ⟨rfl, rfl⟩ := h
    rw [State.stopUnit_seq_same]
    rfl
  · rename_i h
    rw [State.stopUnit_seq_ne s (by omega), State.traceEnd_seq (p := Seq.run) (fun _ _ => rfl)]

theorem State.stopUnit_traceOn (s : State) (c q k u : Nat) : ((s.stopUnit c q).seq k u).traceOn = (s.seq k u).traceOn := by
  have ht := State.traceEnd_seq (p := Seq.traceOn) (fun _ _ => rfl) k u s c q
  by_cases h : k = c ∧ u = q
  · obtain ⟨rfl, rfl⟩ := h
    rw [State.stopUnit_seq_same]
    exact ht
  · rw [State.stopUnit_seq_ne s (by omega), ht]

theorem State.stopAll_run (s : State) (us : List (Nat × Nat)) (k u : Nat) :
    ((s.stopAll us).seq k u).run = if (k, u) ∈ us then .ending else (s.seq k u).run := by
  induction us generalizing s with
  | nil => rfl
  | cons v us ih =>
    have hstep : ((s.stopAll (v :: us)).seq k u).run = (((s.stopUnit v.1 v.2).stopAll us).seq k u).run := rfl
    rw [hstep, ih, State.stopUnit_run]
    by_cases hv : (k, u) = v
    · subst hv
      simp
    · have hne : ¬(k = v.1 ∧ u = v.2) := fun h => hv (Prod.ext h.1 h.2)
      simp [hv, hne]

theorem State.stopAll_traceOn (s : State) (us : List (Nat × Nat)) (k u : Nat) :
    ((s.stopAll us).seq k u).traceOn = (s.seq k u).traceOn := by
  induction us generalizing s with
  | nil => rfl
  | cons v us ih => exact (ih _).trans (State.stopUnit_traceOn s v.1 v.2 k u)

/-- No sequencer records. -/
def State.TraceOff (s : State) : Prop := ∀ c q, (s.seq c q).traceOn = false

theorem State.stopAll_mem_off (s : State) (us : List (Nat × Nat)) (h : s.TraceOff) : (s.stopAll us).mem = s.mem := by
  refine (foldl_keeps (fun t : State => t.TraceOff ∧ t.mem = s.mem) _ ?_ us s ⟨h, rfl⟩).2
  rintro t v ⟨ht, hm⟩
  exact ⟨fun c q => (State.stopUnit_traceOn t v.1 v.2 c q).trans (ht c q),
    (State.traceEnd_mem_off t v.1 v.2 (ht v.1 v.2)).trans hm⟩

theorem State.mem_activeUnits (s : State) (l : Launch) (c q : Nat) :
    (c, q) ∈ s.activeUnits l ↔ c ∈ l.cores ∧ q < 2 ∧ (s.seq c q).active = true := by
  have hq : q < 2 ↔ q ∈ [0, 1] := by simp; omega
  simp only [State.activeUnits, ← List.flatMap_def, List.mem_flatMap, List.mem_map, List.mem_filter, Prod.mk.injEq, hq]
  constructor
  · rintro ⟨c, hc, q, hm, rfl, rfl⟩
    exact ⟨hc, hm⟩
  · rintro ⟨hc, hm⟩
    exact ⟨c, hc, q, hm, rfl, rfl⟩

/-! ### A die that overheats (R338) -/

theorem State.launch_modLaunch (s : State) (id j : Nat) (f : Launch → Launch) :
    (s.modLaunch id f).launch j = if j = id then (s.launch j).map f else s.launch j := by
  by_cases hj : j = id
  · subst hj
    rw [if_pos rfl, State.modLaunch]
    split <;> simp_all
  · rw [if_neg hj, State.modLaunch]
    split
    · exact mapGet_insert_ne _ _ _ hj
    · rfl

/-- What a thermal stop makes of a launch. -/
def Launch.halted (l : Launch) : Launch :=
  { l with isFailed := true, cancelled := true, onEmpty := .complete, ckpt := none, drain := none }

/-- A thermal stop fails one launch and stops its units. -/
def State.haltLaunch (s : State) (e : Nat × Launch) : State :=
  (s.modLaunch e.1 Launch.halted).stopAll (s.activeUnits e.2)

theorem execThermalStop_eq (d : Nat) (s : State) :
    execThermalStop d s = .next { (s.onDie d).foldl State.haltLaunch s with
      thermalReports := ((s.onDie d).foldl State.haltLaunch s).thermalReports ++ [d] } := rfl

theorem State.haltLaunch_thermalReports (s : State) (e : Nat × Launch) : (s.haltLaunch e).thermalReports = s.thermalReports :=
  (aside_thermalReports.stopAll ..).trans (State.modLaunch_thermalReports ..)

theorem State.haltLaunch_launch (s : State) (e : Nat × Launch) (j : Nat) :
    (s.haltLaunch e).launch j = if j = e.1 then (s.launch j).map Launch.halted else s.launch j := by
  rw [← State.launch_modLaunch, State.launch, State.haltLaunch, aside_launches.stopAll, State.launch]

theorem State.haltLaunch_run (s : State) (e : Nat × Launch) (c q : Nat) :
    ((s.haltLaunch e).seq c q).run = if (c, q) ∈ s.activeUnits e.2 then .ending else (s.seq c q).run := by
  rw [State.haltLaunch, State.stopAll_run, State.seq_of_cores (State.modLaunch_cores ..)]

theorem State.haltLaunch_traceOff (s : State) (e : Nat × Launch) (h : s.TraceOff) : (s.haltLaunch e).TraceOff := fun c q => by
  rw [State.haltLaunch, State.stopAll_traceOn, State.seq_of_cores (State.modLaunch_cores ..), h]

theorem State.haltLaunch_mem_off (s : State) (e : Nat × Launch) (h : s.TraceOff) : (s.haltLaunch e).mem = s.mem := by
  have hm : (s.modLaunch e.1 Launch.halted).TraceOff := fun c q => by
    rw [State.seq_of_cores (State.modLaunch_cores ..), h]
  rw [State.haltLaunch, State.stopAll_mem_off _ _ hm, State.modLaunch_mem]

theorem haltLaunches_mem_off (ls : List (Nat × Launch)) (s : State) (h : s.TraceOff) : (ls.foldl State.haltLaunch s).mem = s.mem :=
  (foldl_keeps (fun t : State => t.TraceOff ∧ t.mem = s.mem) _
    (fun t e ht => ⟨State.haltLaunch_traceOff t e ht.1, (State.haltLaunch_mem_off t e ht.1).trans ht.2⟩) ls s ⟨h, rfl⟩).2

/-- A unit that is ending goes on ending. -/
theorem haltLaunches_ending (ls : List (Nat × Launch)) (s : State) (c q : Nat) (h : (s.seq c q).run = .ending) :
    ((ls.foldl State.haltLaunch s).seq c q).run = .ending :=
  foldl_keeps (fun t : State => (t.seq c q).run = .ending) _
    (fun t e ht => by rw [State.haltLaunch_run, ht, ite_self]) ls s h

/-- Every active unit of a launch in the list is stopped: by its own launch's turn, or before it with another's. -/
theorem haltLaunches_stop (ls : List (Nat × Launch)) (s : State) (e : Nat × Launch) (he : e ∈ ls) (c q : Nat)
    (hc : c ∈ e.2.cores) (hq : q < 2) (h : (s.seq c q).active = true ∨ (s.seq c q).run = .ending) :
    ((ls.foldl State.haltLaunch s).seq c q).run = .ending := by
  induction ls generalizing s with
  | nil => cases he
  | cons x ls ih =>
    rw [List.foldl_cons]
    by_cases hend : ((s.haltLaunch x).seq c q).run = .ending
    · exact haltLaunches_ending ls _ c q hend
    · have hrun := State.haltLaunch_run s x c q
      have hnot : (c, q) ∉ s.activeUnits x.2 := fun hm => hend (by rw [hrun, if_pos hm])
      rw [if_neg hnot] at hrun
      have hact : (s.seq c q).active = true := h.resolve_right fun h' => hend (hrun.trans h')
      rcases List.mem_cons.mp he with rfl | he'
      · exact absurd ((State.mem_activeUnits s _ c q).mpr ⟨hc, hq, hact⟩) hnot
      · exact ih _ he' (.inl (by simpa only [Seq.active, hrun] using hact))

/-- The launch is failed and cancelled. -/
def State.Halted (s : State) (id : Nat) : Prop := ∃ m, s.launch id = some m ∧ m.isFailed = true ∧ m.cancelled = true

theorem State.haltLaunch_halted (s : State) (e : Nat × Launch) (id : Nat) (h : s.Halted id) : (s.haltLaunch e).Halted id := by
  obtain ⟨m, hm, hf, hc⟩ := h
  by_cases hid : id = e.1
  · exact ⟨m.halted, by rw [State.haltLaunch_launch, if_pos hid, hm]; rfl, rfl, rfl⟩
  · exact ⟨m, by rw [State.haltLaunch_launch, if_neg hid, hm], hf, hc⟩

theorem haltLaunches_halted (ls : List (Nat × Launch)) (s : State) (e : Nat × Launch) (he : e ∈ ls)
    (h : (s.launch e.1).isSome = true) : (ls.foldl State.haltLaunch s).Halted e.1 := by
  induction ls generalizing s with
  | nil => cases he
  | cons x ls ih =>
    rw [List.foldl_cons]
    rcases List.mem_cons.mp he with rfl | he'
    · obtain ⟨l, hl⟩ := Option.isSome_iff_exists.mp h
      have hx : (s.haltLaunch e).Halted e.1 := ⟨l.halted, by rw [State.haltLaunch_launch, if_pos rfl, hl]; rfl, rfl, rfl⟩
      exact foldl_keeps (State.Halted · e.1) _ (fun t y => State.haltLaunch_halted t y e.1) ls _ hx
    · refine ih _ he' ?_
      rw [State.haltLaunch_launch]
      split <;> simp [h]

/-- What a thermal stop does (R338). -/
theorem execThermalStop_stops (d : Nat) (s : State) : ∃ t : State, execThermalStop d s = .next t ∧
    t.thermalReports = s.thermalReports ++ [d] ∧ (s.TraceOff → t.mem = s.mem) ∧
    (∀ e ∈ s.onDie d, ∀ u ∈ s.activeUnits e.2, (t.seq u.1 u.2).run = .ending) ∧
    ∀ e ∈ s.onDie d, s.launch e.1 = some e.2 → t.Halted e.1 := by
  refine ⟨_, execThermalStop_eq d s, ?_, fun h => haltLaunches_mem_off _ s h, ?_, ?_⟩
  · exact congrArg (· ++ [d]) (foldl_same State.thermalReports _ State.haltLaunch_thermalReports _ s)
  · rintro e he ⟨c, q⟩ hu
    obtain ⟨hc, hq, ha⟩ := (State.mem_activeUnits s e.2 c q).mp hu
    exact haltLaunches_stop _ s e he c q hc hq (.inl ha)
  · intro e he hl
    exact haltLaunches_halted _ s e he (by rw [hl]; rfl)

/-! ### Attestation (R337) -/

theorem toNat_append_eq_add {m n : Nat} (x : BitVec m) (y : BitVec n) : (x ++ y).toNat = y.toNat + x.toNat * 2 ^ n := by
  rw [BitVec.toNat_append, Nat.shiftLeft_eq, Nat.mul_comm, ← Nat.two_pow_add_eq_or_of_lt y.isLt, Nat.add_comm]

/-- Numbers put beside each other are words joined. -/
theorem ofNat_toNat_append {m n : Nat} (x : BitVec m) (y : BitVec n) :
    BitVec.ofNat (m + n) (y.toNat + x.toNat * 2 ^ n) = x ++ y := by
  rw [← toNat_append_eq_add, BitVec.ofNat_toNat, BitVec.setWidth_eq]

/-- The body of a report, field by field (R337). -/
theorem reportBody_eq (n : BitVec 128) : reportBody n = Config.devId ++ n ++ Config.cfgHash ++ Config.fwHash := by
  rw [← ofNat_toNat_append, toNat_append_eq_add, toNat_append_eq_add, reportBody]
  simp only [Nat.add_mul, Nat.mul_assoc, ← Nat.pow_add, Nat.add_assoc, Nat.reduceAdd]

theorem execAttestationRequest_eq (n : BitVec 128) (s : State) :
    execAttestationRequest n s = .next { s with reports := s.reports ++ [Config.sm2Sign (reportBody n) ++ reportBody n] } := by
  rw [← ofNat_toNat_append, execAttestationRequest]

/-- Each field of a report, and the signature over them (R337). -/
theorem report_fields (n : BitVec 128) : let r := Config.sm2Sign (reportBody n) ++ reportBody n
    r.extractLsb' 512 128 = n ∧ r.extractLsb' 0 256 = Config.fwHash ∧ r.extractLsb' 256 256 = Config.cfgHash ∧
      r.extractLsb' 640 128 = Config.devId ∧ r.extractLsb' 768 512 = Config.sm2Sign (r.extractLsb' 0 768) := by
  obtain ⟨hdev, hn, hcfg, hfw⟩ := RoundTrip.parts4 Config.devId n Config.cfgHash Config.fwHash
  rw [← reportBody_eq] at hdev hn hcfg hfw
  obtain ⟨hsig, hbody⟩ := RoundTrip.parts2 (Config.sm2Sign (reportBody n)) (reportBody n)
  dsimp only
  refine ⟨?_, ?_, ?_, ?_, ?_⟩
  · rw [RoundTrip.extract_low _ _ 512 (by decide), hn]
  · rw [RoundTrip.extract_low _ _ 0 (by decide), hfw]
  · rw [RoundTrip.extract_low _ _ 256 (by decide), hcfg]
  · rw [RoundTrip.extract_low _ _ 640 (by decide), hdev]
  · rw [hsig, hbody]

/-! ### Resets (R195, R335, R336) -/

@[simp] theorem State.writeMem_poison (s : State) (pa : Nat) (bs : List (Option Byte)) : (s.writeMem pa bs).poison = s.poison := by
  induction bs generalizing s pa with
  | nil => rfl
  | cons b bs ih => cases b <;> simp [State.writeMem, ih]

@[simp] theorem State.loseSectors_poison (s : State) (ks : List Nat) : (s.loseSectors ks).poison = s.poison :=
  foldl_same State.poison _ (fun s _ => State.writeMem_poison (s.freshBytes 32).2 _ _) _ _

/-- A byte of no lost sector stays. -/
theorem State.readByte_loseSectors (s : State) (ks : List Nat) (a : Nat) (h : ∀ k ∈ ks, k ≠ a / 32) :
    (s.loseSectors ks).readByte a = s.readByte a := by
  induction ks generalizing s with
  | nil => rfl
  | cons k ks ih =>
    have hk : k ≠ a / 32 := h k List.mem_cons_self
    have hout : written (k * 32) ((s.freshBytes 32).1.map some) a = none := by
      unfold written
      split
      · have hlen : ((s.freshBytes 32).1.map some).length ≤ a - k * 32 := by
          simp only [State.freshBytes, List.length_map, List.length_range]
          omega
        rw [List.getElem?_eq_none hlen]
        rfl
      · rfl
    rw [State.loseSectors, List.foldl_cons]
    dsimp only
    refine (ih _ fun j hj => h j (List.mem_cons_of_mem k hj)).trans ?_
    rw [State.readByte_writeMem, hout]
    rfl

theorem State.losePoison_poison_subset (s : State) : ∀ e ∈ s.losePoison.poison, e ∈ s.poison := by
  intro e he
  obtain ⟨⟨e', i⟩, hf, rfl⟩ := List.mem_map.mp he
  exact List.fst_mem_of_mem_zipIdx (List.mem_filter.mp hf).1

/-- The part comes up anew over the memory and the poison that the stops leave; with no core touched, no launch and no phase
recorded they leave what the L2 did not hold alone. -/
theorem execWarmReset_boots (ok : Bool) (f : BitVec 256) (s : State) :
    ∃ t : State, execWarmReset ok f s = .next { t.boot ok f with mem := t.mem, poison := t.poison } ∧
      (s.cores = [] → s.launches = [] → s.phases = [] → t = (s.loseSectors (s.dirty.map (·.1))).losePoison) := by
  refine ⟨_, rfl, fun hc hl hp => ?_⟩
  simp [State.coreIds, State.launchIds, State.failLaunches, hc, hl, hp]

/-! ### Power (R338) -/

/-- A change of a die counts by what it makes of the die as it stands. -/
theorem State.modDie_congr (s : State) (d : Nat) {f g : Die → Die} (h : f (s.die d) = g (s.die d)) : s.modDie d f = s.modDie d g := by
  rw [State.modDie, State.modDie, h]

/-! ### Links (R317, R319) -/

@[simp] theorem State.linkAt_setLink (s : State) (n : Nat) (l : Link) : (s.setLink n l).linkAt n = l :=
  mapGet_set_same Link.init l s.links n

/-- What the receipt of a row leaves of its link's counts (R319). -/
def Link.received (l : Link) (row : Nat) (ok : Bool) : Link :=
  if ok = true ∧ row = l.expected then { l with expected := row + 1, resends := 0 }
  else if ok = true ∧ row < l.expected then l
  else { l with resends := l.resends + 1, errors := if ok then l.errors else l.errors + 1 }

theorem execLinkRowReceive_down (n row : Nat) (ok : Bool) (s : State) (h : s.linkDown n = true) :
    execLinkRowReceive n row ok s = .next s := by
  simp [execLinkRowReceive, h]

theorem execLinkRowReceive_up (n row : Nat) (ok : Bool) (s : State) (h : s.linkDown n = false) :
    ∃ t : State, execLinkRowReceive n row ok s = .next t ∧ t.mem = s.mem ∧ t.linkAt n = (s.linkAt n).received row ok := by
  simp only [execLinkRowReceive, h, Link.received, Bool.false_eq_true, if_false, Bool.and_eq_true, decide_eq_true_eq]
  by_cases heq : ok = true ∧ row = (s.linkAt n).expected
  · simp only [if_pos heq]
    exact ⟨_, rfl, rfl, State.linkAt_setLink ..⟩
  · by_cases hlt : ok = true ∧ row < (s.linkAt n).expected
    · simp only [if_neg heq, if_pos hlt]
      exact ⟨_, rfl, rfl, rfl⟩
    · simp only [if_neg heq, if_neg hlt]
      exact ⟨_, rfl, rfl, State.linkAt_setLink ..⟩

theorem execLinkDown_spent (n : Nat) (s : State) (hp : s.linkPresent n = true) (hu : (s.linkAt n).up = true)
    (hr : 8 < (s.linkAt n).resends) :
    execLinkDown n s = .next (s.setLink n { s.linkAt n with up := false, errors := (s.linkAt n).errors + 1 }) := by
  simp [execLinkDown, hp, hu, hr]

theorem State.linkPresent_eq (s : State) (n : Nat) :
    s.linkPresent n = if 1 ≤ n % 32 ∧ n % 32 ≤ 4 then s.featAcc.getLsbD 3
      else if 5 ≤ n % 32 ∧ n % 32 ≤ 16 then s.featAcc.getLsbD 4 else true := by
  simp only [State.linkPresent, Bool.and_eq_true, decide_eq_true_eq]
  rfl

/-! ### Soft errors (R205, R206, R242) -/

theorem State.poisonSector_poison (s : State) (pa k : Nat) :
    mapGet false (s.poisonSector pa).poison k = (decide (k = pa / 32) || mapGet false s.poison k) := by
  rw [State.poisonSector, mapGet_insert]
  split <;> simp [*]

theorem State.poisonRecord_digest (s : State) (line l : Nat) :
    (s.poisonRecord line).digest l = if l = line then { s.digest l with poisoned := true } else s.digest l := by
  rw [State.poisonRecord, State.setDigest, State.digest, mapGet_set]
  split
  · rename_i h
    rw [h]
  · rfl

/-- Records poisoned one after the other: each of the list, once or more, and no other. -/
theorem poisonRecords_digest (ls : List Nat) (s : State) (l : Nat) :
    (ls.foldl (fun s l => s.poisonRecord l) s).digest l = if l ∈ ls then { s.digest l with poisoned := true } else s.digest l := by
  induction ls generalizing s with
  | nil => rfl
  | cons x ls ih =>
    rw [List.foldl_cons, ih, State.poisonRecord_digest]
    by_cases hx : l = x <;> by_cases hl : l ∈ ls <;> simp [hx, hl]

theorem poisonRecords_keep {β : Type} (g : State → β) (h : ∀ s line r, g (s.setDigest line r) = g s) (ls : List Nat) (s : State) :
    g (ls.foldl (fun s l => s.poisonRecord l) s) = g s :=
  foldl_same g _ (fun s line => h s line _) ls s

/-- A sector of memory that is lost, in the L2 or in HBM; the HBM's takes the records kept there with it. -/
theorem execSoftError_memory (pa : Nat) (s : State) (e : ErrSite) (he : e ∈ [ErrSite.hbm pa, ErrSite.l2 pa]) :
    ∃ t : State, execSoftError e false s = .next t ∧ t.mem = s.mem ∧
      (∀ k, mapGet false t.poison k = (decide (k = pa / 32) || mapGet false s.poison k)) ∧
      ∀ l, t.digest l = if e = ErrSite.hbm pa ∧ l ∈ s.backedLines (pa / 32 * 32) 32 then { s.digest l with poisoned := true }
        else s.digest l := by
  rcases List.mem_pair.mp he with rfl | rfl
  · refine ⟨_, rfl, poisonRecords_keep State.mem (fun _ _ _ => rfl) _ _, fun k => ?_, fun l => ?_⟩
    · rw [poisonRecords_keep State.poison (fun _ _ _ => rfl), State.poisonSector_poison]
    · rw [poisonRecords_digest]
      simp only [true_and]
      rfl
  · exact ⟨_, rfl, rfl, State.poisonSector_poison s pa, fun l => by simp; rfl⟩

/-- A part that dirties a sector of a line makes the line dirty (R198). -/
theorem Core.lineDirty_of_dirties {k : Core} {p : StorePart} {line sector : Nat} (hp : p ∈ k.leftParts)
    (h : p.dirties line sector = true) : k.lineDirty line = true := by
  refine List.any_eq_true.mpr ⟨p, hp, ?_⟩
  unfold StorePart.dirties at h
  cases hl : p.loc with
  | mem pa => simp_all
  | spad b off => simp_all

/-- An error in a line without dirty sectors drops it, corrected or not (R205). -/
theorem State.bankError_clean (s : State) (c : Nat) (l : CacheLine) (sector : Nat) (b : Bool)
    (h : (s.core c).lineDirty l.line = false) :
    s.bankError c l sector b = s.modCore c fun k => { k with cache := k.cache.filter fun m => m.line != l.line } := by
  have hno : ((s.core c).leftParts.any fun p => p.dirties l.line sector) = false :=
    List.any_eq_false.mpr fun p hp hd => Bool.false_ne_true (h.symm.trans (Core.lineDirty_of_dirties hp hd))
  simp only [State.bankError, hno, h, Bool.false_eq_true, if_false]

/-- A poisoned copy in the remote-line ways: the sector of each copy of the line is marked, and memory is as it was (R197). -/
theorem State.spoilRemote_marks (s : State) (d line sector : Nat) (h : ((s.die d).remote.any fun l => l.line == line) = true) :
    (s.spoilRemote d line sector).mem = s.mem ∧ (s.spoilRemote d line sector).poison = s.poison ∧
      ∀ l ∈ ((s.spoilRemote d line sector).die d).remote, l.line = line → sector ∈ l.poisoned := by
  rw [State.spoilRemote, if_pos h]
  refine ⟨rfl, rfl, fun l hl hline => ?_⟩
  simp only [State.die, State.modDie, mapGet_insert_same] at hl
  obtain ⟨m, -, rfl⟩ := List.mem_map.mp hl
  by_cases hs : sector ∈ m.poisoned
  · split <;> simp [hs]
  · have hm : m.line = line := by
      split at hline <;> exact hline
    simp [hm, hs]

@[simp] theorem Core.tile_setTile (k : Core) (n : Nat) (x : Tile) : (k.setTile n x).tile n = x :=
  mapGet_set_same Tile.init x k.tiles n

/-- The bytes of a resident tile that a lost word of 4 bytes adds to its bad ones (R205). -/
theorem mem_badWord (bad : List Nat) (w n i : Nat) :
    i ∈ bad ++ ((List.range 4).map (4 * w + ·)).filter (fun i => i < n && !bad.contains i) ↔ i ∈ bad ∨ i / 4 = w ∧ i < n := by
  have hw : (∃ a < 4, 4 * w + a = i) ↔ i / 4 = w := ⟨fun ⟨a, ha, h⟩ => by omega, fun h => ⟨i % 4, by omega, by omega⟩⟩
  simp only [List.mem_append, List.mem_filter, List.mem_map, List.mem_range, hw, Bool.and_eq_true, decide_eq_true_eq,
    Bool.not_eq_true', List.contains_eq_mem, decide_eq_false_iff_not]
  tauto

theorem execSoftError_operandBank (c n w : Nat) (s : State) (h : ((s.core c).tile n).state = .resident) :
    ∃ t : State, execSoftError (.operandBank c n w) false s = .next t ∧ t.mem = s.mem ∧
      ((t.core c).tile n).data = ((s.core c).tile n).data ∧
      ∀ i, i ∈ ((t.core c).tile n).bad ↔ i ∈ ((s.core c).tile n).bad ∨ i / 4 = w ∧ i < ((s.core c).tile n).data.length := by
  refine ⟨_, rfl, rfl, ?_, fun i => ?_⟩
  · simp [h]
  · simp only [State.core_modCore, if_pos h, Core.tile_setTile]
    exact mem_badWord ..

/-- Every soft error leaves a state: none stops the part (R205). -/
theorem execSoftError_next (e : ErrSite) (b : Bool) (s : State) : ∃ t : State, execSoftError e b s = .next t := by
  cases e with
  | cacheBank c bank frame sector =>
    unfold execSoftError
    dsimp only
    split <;> exact ⟨_, rfl⟩
  | _ => cases b <;> exact ⟨_, rfl⟩

end Sys2Proof.Machine

namespace Sys2Proof.Proofs
open Sys2Proof Sys2Proof.Machine

/-- Settles O53: each clause is the law of its step.  The thermal stop's is an induction over the launches of the die, of which an
earlier one may have stopped a later one's unit; the warm reset's compares memory byte by byte with the sectors lost; the others
read one table after it is written. -/
theorem packageEvents : Obligations.PackageEvents := by
  unfold Obligations.PackageEvents
  intro s
  simp only [exec_attestationRequest, exec_coldReset, exec_warmReset, exec_throttleStepDown, exec_throttleStepUp, exec_thermalStop,
    exec_linkRowReceive, exec_linkDown, exec_routerDrain, exec_softError]
  refine ⟨fun n => ?attestation, fun ok f => ?cold, fun ok f => ?warm, fun d => ⟨?down, ?up, execThermalStop_stops d s⟩,
    fun n row ok => ?row, fun n hp hu hr => ?linkDown, rfl, s.linkPresent_eq, fun pa => ⟨rfl, rfl, execSoftError_memory pa s⟩,
    fun c bank frame sector l b hl hd => ?bank, fun d line sector h => ?remote, fun c off => ?scratchpad, fun l => rfl,
    fun c n w => execSoftError_operandBank c n w s, fun e b => execSoftError_next e b s⟩
  case attestation => exact ⟨_, _, execAttestationRequest_eq n s, rfl, report_fields n⟩
  case cold => exact ⟨_, rfl, rfl, rfl, rfl, rfl, rfl, rfl, rfl, rfl, rfl, rfl, rfl⟩
  case warm =>
    obtain ⟨t, ht, hquiet⟩ := execWarmReset_boots ok f s
    refine ⟨_, ht, rfl, rfl, rfl, rfl, rfl, rfl, rfl, rfl, fun hc hl hp => ?_⟩
    obtain rfl := hquiet hc hl hp
    refine ⟨fun e he => ?_, fun a ha => ?_⟩
    · simpa using State.losePoison_poison_subset _ e he
    · refine State.readByte_loseSectors s _ a fun k hk => ?_
      obtain ⟨e, he, rfl⟩ := List.mem_map.mp hk
      exact ha e he
  case down => exact congrArg Host.Outcome.next (State.modDie_congr s d rfl)
  case up => exact congrArg Host.Outcome.next (State.modDie_congr s d rfl)
  case row =>
    cases h : s.linkDown n with
    | true => exact ⟨s, execLinkRowReceive_down n row ok s h, rfl, fun _ => rfl, nofun⟩
    | false =>
      obtain ⟨t, ht, hm, hl⟩ := execLinkRowReceive_up n row ok s h
      exact ⟨t, ht, hm, nofun, fun _ => hl⟩
  case linkDown => exact ⟨_, execLinkDown_spent n s hp hu hr, State.linkAt_setLink .., rfl⟩
  case bank => rw [execSoftError, hl, ← State.bankError_clean s c l sector b hd]
  case remote => exact ⟨_, rfl, s.spoilRemote_marks d line sector h⟩
  case scratchpad =>
    refine ⟨_, rfl, by rw [State.core_modCore], fun k => ?_⟩
    rw [State.core_modCore, mapGet_insert]
    split <;> simp [*]

end Sys2Proof.Proofs
end

section
/-! What a write of a register or an operand port leaves (O19). -/
-- One proof after the other: elaborated side by side, the whole text's proofs need more memory than the check has.
set_option Elab.async false
namespace Sys2Proof.Machine
open Sys2Proof.Claims

/-! ### Writes of registers and operand ports (R55, R58) -/

theorem State.myCore_modMe (s : State) (f : Seq → Seq) : (s.modMe f).myCore = s.myCore.setSeq s.cur.q (f s.me) := by
  simp [State.myCore, State.modMe, State.modSeq, State.setSeq, State.me, State.seq]

theorem State.seq_modMe_ne (s : State) (f : Seq → Seq) {c q : Nat} (h : c ≠ s.cur.core ∨ q ≠ s.cur.q) :
    (s.modMe f).seq c q = s.seq c q := State.seq_modSeq_ne s f h

theorem writeDest_sreg {d : Nat} (h : d < 0x40) (m : Word) (v : Value) (s : State) :
    writeDest d m v s = s.modMe fun x => x.setSreg d v.toS := by
  rw [writeDest, if_pos h]

theorem writeDest_vreg {d : Nat} (h : 0x40 ≤ d) (h' : d < 0x60) (m : Word) (v : Value) (s : State) :
    writeDest d m v s = s.modMe fun x => x.setVreg (d - 0x40) (mergeLanes m v.toV (x.vreg (d - 0x40))) := by
  rw [writeDest, if_neg (by omega), if_pos h']

theorem writeDest_preg {d : Nat} (h : 0x60 ≤ d) (h' : d < 0xA0) (m : Word) (v : Value) (s : State) :
    writeDest d m v s = s.modMe fun x => x.setPreg (d - 0x60) (mergeBits m v.toP (x.preg (d - 0x60))) := by
  rw [writeDest, if_neg (by omega), if_neg (by omega), if_pos h']

/-- A change of the issuing sequencer that leaves its operand ports leaves every operand port. -/
theorem ports_modMe (s : State) (f : Seq → Seq) (h : (f s.me).ports = s.me.ports) :
    (∀ e ∈ scalarPorts, e.2 (s.modMe f) = e.2 s) ∧ ∀ e ∈ vecPorts, e.2 (s.modMe f) = e.2 s := by
  simp [scalarPorts, vecPorts, State.myCore_modMe, h, Core.setSeq]

theorem Seq.setPreg_fields (x : Seq) (n : Nat) (w : Word) : x.setPreg n w = { x with pregs := (x.setPreg n w).pregs } := by
  unfold Seq.setPreg; split <;> rfl

/-- What a write of a register changes of the issuing sequencer: one of its register files. -/
theorem writeDest_register {d : Nat} (h : d < 0xA0) (m : Word) (v : Value) (s : State) :
    ∃ f : Seq → Seq, writeDest d m v s = s.modMe f ∧
      f s.me = { s.me with sregs := (f s.me).sregs, vregs := (f s.me).vregs, pregs := (f s.me).pregs } := by
  rcases (by omega : d < 0x40 ∨ 0x40 ≤ d ∧ d < 0x60 ∨ 0x60 ≤ d) with hs | ⟨hv, hv'⟩ | hp
  · exact ⟨_, writeDest_sreg hs m v s, rfl⟩
  · exact ⟨_, writeDest_vreg hv hv' m v s, rfl⟩
  · refine ⟨_, writeDest_preg hp h m v s, ?_⟩
    rw [Seq.setPreg_fields]

theorem lane_mergeLanes (m : Word) (a b : Vec) {i : Nat} (h : i < 64) :
    lane (mergeLanes m a b) i = if m.getLsbD i then lane a i else lane b i := by
  simp [lane, mergeLanes, mkVec, h]

theorem getLsbD_mergeBits (m a b : Word) (i : Nat) (h : i < 64) :
    (mergeBits m a b).getLsbD i = if m.getLsbD i then a.getLsbD i else b.getLsbD i := by
  simp only [mergeBits, BitVec.getLsbD_or, BitVec.getLsbD_and, BitVec.getLsbD_not, h, decide_true, Bool.true_and]
  cases m.getLsbD i <;> simp

theorem writeDest_sreg_read {d : Nat} (h : d < 0xA0) (m : Word) (v : Value) (s : State) (n : Nat) :
    (writeDest d m v s).me.sreg n = if d < 0x40 ∧ n = d then v.toS else s.me.sreg n := by
  rcases (by omega : d < 0x40 ∨ 0x40 ≤ d ∧ d < 0x60 ∨ 0x60 ≤ d) with hs | ⟨hv, hv'⟩ | hp
  · simp only [writeDest_sreg hs, State.me_modMe, hs, true_and]
    split
    · subst n
      simp
    · exact Seq.sreg_setSreg_ne _ _ ‹_›
  · rw [writeDest_vreg hv hv', State.me_modMe, if_neg (by omega)]
    rfl
  · rw [writeDest_preg hp h, State.me_modMe, Seq.setPreg_fields, if_neg (by omega)]
    rfl

theorem writeDest_vreg_keep {d : Nat} (h : d < 0xA0) (m : Word) (v : Value) (s : State) (n : Nat)
    (hn : n ≠ d - 0x40 ∨ d < 0x40 ∨ 0x60 ≤ d) : (writeDest d m v s).me.vreg n = s.me.vreg n := by
  rcases (by omega : d < 0x40 ∨ 0x40 ≤ d ∧ d < 0x60 ∨ 0x60 ≤ d) with hs | ⟨hv, hv'⟩ | hp
  · rw [writeDest_sreg hs, State.me_modMe]
    rfl
  · rw [writeDest_vreg hv hv', State.me_modMe, Seq.vreg_setVreg_ne _ _ (by omega)]
  · rw [writeDest_preg hp h, State.me_modMe, Seq.setPreg_fields]
    rfl

theorem writeDest_preg_keep {d : Nat} (h : d < 0xA0) (m : Word) (v : Value) (s : State) (n : Nat)
    (hn : n ≠ d - 0x60 ∨ d < 0x60) : (writeDest d m v s).me.preg n = s.me.preg n := by
  rcases (by omega : d < 0x40 ∨ 0x40 ≤ d ∧ d < 0x60 ∨ 0x60 ≤ d) with hs | ⟨hv, hv'⟩ | hp
  · rw [writeDest_sreg hs, State.me_modMe]
    rfl
  · rw [writeDest_vreg hv hv', State.me_modMe]
    rfl
  · rw [writeDest_preg hp h, State.me_modMe, Seq.preg_setPreg_ne _ _ (by omega)]

/-- The operand ports of a sequencer, and those of the units that a core leases. -/
def ownScalars : List (Nat × (OpPorts → Word)) :=
  [(0xA0, (·.ia0o)), (0xA1, (·.ia1o)), (0xA2, (·.imo)), (0xA3, (·.imp)), (0xA9, (·.lqa)), (0xAA, (·.lqb)), (0xAB, (·.sqo)),
   (0xAC, (·.ago)), (0xAE, (·.syo)), (0xAF, (·.syp)), (0xB3, (·.cro))]
def unitScalars : List (Nat × (Core → Word)) := [(0xA7, (·.mxo)), (0xA8, (·.tfo)), (0xB0, (·.cxo)), (0xB1, (·.kvo)), (0xB2, (·.epo))]
def unitVecs : List (Nat × (Core → Vec)) := [(0xA5, (·.vxo)), (0xA6, (·.vxp))]

/-- Two states of a sequencer's ports that agree but at address `d`. -/
def OwnWrite (d : Nat) (o o' : OpPorts) : Prop :=
  (∀ p ∈ ownScalars, p.1 ≠ d → p.2 o' = p.2 o) ∧ (d ≠ 0xAD → o'.dgo = o.dgo) ∧ (d ≠ 0xA4 → o'.plo = o.plo)

/-- A change of a core's ports that leaves those of other addresses than `d`. -/
def UnitWrite (d : Nat) (g : Core → Core) : Prop :=
  (∀ k, (g k).seqs = k.seqs) ∧ (∀ p ∈ unitScalars, p.1 ≠ d → ∀ k, p.2 (g k) = p.2 k) ∧ ∀ p ∈ unitVecs, p.1 ≠ d → ∀ k, p.2 (g k) = p.2 k

/-- A write of an operand port changes one port of the issuing sequencer, or one of the core's leased units. -/
theorem writeDest_port {d : Nat} (h : 0xA0 ≤ d) (h' : d < 0xB4) (m : Word) (v : Value) (s : State) :
    (∃ f : Seq → Seq, writeDest d m v s = s.modMe f ∧ f s.me = { s.me with ports := (f s.me).ports } ∧ OwnWrite d s.me.ports (f s.me).ports) ∨
      ∃ g, writeDest d m v s = s.modMyCore g ∧ UnitWrite d g := by
  rw [writeDest, if_neg (by omega), if_neg (by omega), if_neg (by omega)]
  interval_cases d <;> first
    | exact .inl ⟨_, rfl, rfl, by simp [OwnWrite, ownScalars]⟩
    | exact .inr ⟨_, rfl, by simp [UnitWrite, unitScalars, unitVecs]⟩

/-- A scalar port is one of a sequencer's, or one of a core's. -/
theorem scalarPort_cases : ∀ e ∈ scalarPorts, (∃ p ∈ ownScalars, p.1 = e.1 ∧ ∀ s, e.2 s = p.2 s.me.ports) ∨
    ∃ p ∈ unitScalars, p.1 = e.1 ∧ ∀ s, e.2 s = p.2 s.myCore := by
  simp [scalarPorts, ownScalars, unitScalars]

theorem vecPort_cases : ∀ e ∈ vecPorts, (e.1 = 0xAD ∧ ∀ s, e.2 s = s.me.ports.dgo) ∨ ∃ p ∈ unitVecs, p.1 = e.1 ∧ ∀ s, e.2 s = p.2 s.myCore := by
  simp [vecPorts, unitVecs]

/-- A port's write leaves the registers, the results and memory (R58). -/
theorem writeDest_port_keeps {d : Nat} (h : 0xA0 ≤ d) (h' : d < 0xB4) (m : Word) (v : Value) (s : State) :
    let t := writeDest d m v s
    (∀ n, t.me.sreg n = s.me.sreg n) ∧ (∀ n, t.me.vreg n = s.me.vreg n) ∧ (∀ n, t.me.preg n = s.me.preg n) ∧
      t.mem = s.mem ∧ t.me.results = s.me.results ∧ t.me.fpctl = s.me.fpctl ∧ t.cur = s.cur := by
  rcases writeDest_port h h' m v s with ⟨f, hf, hx, -⟩ | ⟨g, hg, hk, -⟩
  · intro t
    simp only [t, hf, State.me_modMe]
    rw [hx]
    exact ⟨fun _ => rfl, fun _ => rfl, fun _ => rfl, rfl, rfl, rfl, rfl⟩
  · simp [hg, State.me_modMyCore s g hk]

theorem writeDest_scalarPorts (m : Word) (v : Value) (s : State) : ∀ e ∈ scalarPorts, e.2 (writeDest e.1 m v s) = v.toS := by
  simp [scalarPorts, writeDest]

theorem writeDest_vecPorts (m : Word) (v : Value) (s : State) :
    ∀ e ∈ vecPorts, e.2 (writeDest e.1 m v s) = mergeLanes m v.toV (e.2 s) := by
  simp [vecPorts, writeDest]

theorem writeDest_otherPorts {d : Nat} (h : 0xA0 ≤ d) (h' : d < 0xB4) (m : Word) (v : Value) (s : State) :
    let t := writeDest d m v s
    (∀ e ∈ scalarPorts, e.1 ≠ d → e.2 t = e.2 s) ∧ (∀ e ∈ vecPorts, e.1 ≠ d → e.2 t = e.2 s) ∧
      (d ≠ 0xA4 → t.me.ports.plo = s.me.ports.plo) := by
  rcases writeDest_port h h' m v s with ⟨f, hf, -, hown, hdgo, hplo⟩ | ⟨g, hg, hk, hscalar, hvec⟩
  · have hme : (s.modMe f).me = f s.me := State.me_modMe ..
    have hcore : ∀ {β : Type} (p : Core → β), (∀ k q x, p (k.setSeq q x) = p k) → p (s.modMe f).myCore = p s.myCore :=
      fun p hp => by rw [State.myCore_modMe, hp]
    dsimp only
    rw [hf]
    refine ⟨fun e he hne => ?_, fun e he hne => ?_, fun hne => by rw [hme, hplo hne]⟩
    · obtain ⟨p, hp, h1, h2⟩ | ⟨p, hp, h1, h2⟩ := scalarPort_cases e he
      · rw [h2, h2, hme, hown p hp (h1 ▸ hne)]
      · rw [h2, h2]
        refine hcore p.2 fun k q x => ?_
        simp only [unitScalars, List.mem_cons, List.not_mem_nil, or_false] at hp
        rcases hp with rfl | rfl | rfl | rfl | rfl <;> rfl
    · obtain ⟨h1, h2⟩ | ⟨p, hp, h1, h2⟩ := vecPort_cases e he
      · rw [h2, h2, hme, hdgo (h1 ▸ Ne.symm hne)]
      · rw [h2, h2]
        refine hcore p.2 fun k q x => ?_
        simp only [unitVecs, List.mem_cons, List.not_mem_nil, or_false] at hp
        rcases hp with rfl | rfl <;> rfl
  · have hme : (s.modMyCore g).me = s.me := State.me_modMyCore s g hk
    have hcore : (s.modMyCore g).myCore = g s.myCore := by simp
    dsimp only
    rw [hg]
    refine ⟨fun e he hne => ?_, fun e he hne => ?_, fun _ => by rw [hme]⟩
    · obtain ⟨p, hp, h1, h2⟩ | ⟨p, hp, h1, h2⟩ := scalarPort_cases e he
      · rw [h2, h2, hme]
      · rw [h2, h2, hcore, hscalar p hp (h1 ▸ hne)]
    · obtain ⟨h1, h2⟩ | ⟨p, hp, h1, h2⟩ := vecPort_cases e he
      · rw [h2, h2, hme]
      · rw [h2, h2, hcore, hvec p hp (h1 ▸ hne)]

end Sys2Proof.Machine

namespace Sys2Proof.Proofs
open Sys2Proof Sys2Proof.Machine Sys2Proof.Claims

/-- Settles O19. -/
theorem registerWrites : Obligations.RegisterWrites := by
  unfold Obligations.RegisterWrites
  refine ⟨fun d m v s h => ?registers, fun m v s => ?ports⟩
  case registers =>
    obtain ⟨f, hf, hx⟩ := writeDest_register h m v s
    obtain ⟨hs, hv⟩ := ports_modMe s f (by rw [hx])
    refine ⟨writeDest_sreg_read h m v s, writeDest_vreg_keep h m v s, fun h1 h2 i hi => ?_, writeDest_preg_keep h m v s,
      fun h1 i hi => ?_, fun _ => rfl, hf ▸ hs, hf ▸ hv, fun c q hne => ?_, ?_⟩
    · rw [writeDest_vreg h1 h2, State.me_modMe, Seq.vreg_setVreg, lane_mergeLanes _ _ _ hi]
    · rw [writeDest_preg (by omega) h, State.me_modMe, Seq.preg_setPreg _ _ (by omega), getLsbD_mergeBits _ _ _ _ hi]
    · rw [hf, State.seq_modMe_ne s f hne]
    · rw [hf, State.me_modMe, hx]
      exact ⟨rfl, rfl, rfl, rfl, rfl⟩
  case ports =>
    refine ⟨writeDest_scalarPorts m v s, fun e he i hi => ?_, fun i hi => ?_, fun d h h' => ?_⟩
    · rw [writeDest_vecPorts m v s e he, lane_mergeLanes _ _ _ hi]
    · simp [writeDest, getLsbD_mergeBits _ _ _ _ hi]
    · obtain ⟨hs, hv, hp, hmem, hres, hfp, hcur⟩ := writeDest_port_keeps h h' m v s
      obtain ⟨hsp, hvp, hplo⟩ := writeDest_otherPorts h h' m v s
      exact ⟨hs, hv, hp, hsp, hvp, hplo, hmem, hres, hfp, hcur⟩

end Sys2Proof.Proofs
end


section
/-! The merge stage and the change of leases (O58). -/
-- One proof after the other: elaborated side by side, the whole text's proofs need more memory than the check has.
set_option Elab.async false
namespace Sys2Proof.Machine
open Sys2Proof.Claims

/-! ### What a core holds beside its sequencers is nothing the trace touches (R276) -/

section
variable {β : Type} {p : Core → β} (hp : ∀ k m, p { k with seqs := m } = p k) (d : Nat)
include hp

theorem State.modSeq_core (s : State) (c q : Nat) (f : Seq → Seq) : p ((s.modSeq c q f).core d) = p (s.core d) := by
  by_cases h : d = c
  · subst h
    simp [State.modSeq, State.setSeq, Core.setSeq, hp]
  · simp [State.modSeq, State.setSeq, State.core_setCore_ne _ _ h]

theorem State.traceFlush_core (s : State) (c q : Nat) : p ((s.traceFlush c q).core d) = p (s.core d) := by
  unfold State.traceFlush
  dsimp only
  split
  · rfl
  · rw [State.modSeq_core hp, State.core, State.traceRaw_cores]
    rfl

theorem State.traceRec_core (s : State) (c q : Nat) (ws : List Nat) : p ((s.traceRec c q ws).core d) = p (s.core d) := by
  unfold State.traceRec
  split
  · rw [State.core, State.traceRaw_cores]
    exact State.traceFlush_core hp d s c q
  · rfl

theorem State.traceStallEnd_core (s : State) (c q : Nat) : p ((s.traceStallEnd c q).core d) = p (s.core d) := by
  unfold State.traceStallEnd
  dsimp only
  split
  · rw [State.modSeq_core hp, foldl_same (fun s : State => p (s.core d)) _ fun s w => State.traceRec_core hp d s c q [w]]
  · rfl

theorem State.traceStallStart_core (s : State) (c q kind : Nat) : p ((s.traceStallStart c q kind).core d) = p (s.core d) := by
  unfold State.traceStallStart
  split
  · split
    · rfl
    · rw [State.modSeq_core hp, State.traceStallEnd_core hp]
  · rw [State.modSeq_core hp]

end

/-! ### The merge stage (R22 to R25) -/

/-- A core after its merge stage: who issues, and q1's lost merges. -/
theorem State.grant_core (s : State) (c : Nat) :
    let issue := mergeStage (s.core c).lost (s.offer c 0) (s.offer c 1)
    ((s.grant c).core c).grants = issue ++ attempts (s.offer c 0) (s.offer c 1) ∧
      ((s.grant c).core c).lost = nextLost (s.core c).lost (s.offer c 1) issue := by
  have stall : ∀ {β : Type} (p : Core → β), (∀ k m, p { k with seqs := m } = p k) → ∀ (b : Bool) (t : State) (q : Nat),
      p ((if b = true then t.traceStallStart c q 2 else t).core c) = p (t.core c) := by
    intro β p hp b t q
    cases b
    · rfl
    · exact State.traceStallStart_core hp c t c q 2
  unfold State.grant
  constructor
  · rw [stall (·.grants) (fun _ _ => rfl), stall (·.grants) (fun _ _ => rfl), State.core_setCore]
  · rw [stall (·.lost) (fun _ _ => rfl), stall (·.lost) (fun _ _ => rfl), State.core_setCore]

theorem Offer.merges_ready (ps qs : List Nat) (n m : Bool) :
    (Offer.ready ps n).merges (.ready qs m) = true ↔ n = false ∧ m = false ∧ ∀ p ∈ ps, p ∉ qs := by
  simp [Offer.merges, and_assoc]

/-- A table whose entries are all changed alike reads as before, changed, where an unlisted key's reading stays. -/
theorem mapGet_map {α β : Type} {d : α} {e : β} {f : α → β} (h : f d = e) (m : NMap α) (k : Nat) :
    mapGet e (m.map fun x => (x.1, f x.2)) k = f (mapGet d m k) := by
  induction m with
  | nil => exact h.symm
  | cons x m ih =>
    simp only [List.map_cons, mapGet, ih]
    split <;> rfl

theorem State.moveLeases_core (s : State) (c : Nat) :
    s.moveLeases.core c = { s.core c with hold := (s.core c).nextHold, held := (s.core c).nextHeld } :=
  mapGet_map (d := Core.init) (e := Core.init) (f := fun k : Core => { k with hold := k.nextHold, held := k.nextHeld }) rfl s.cores c

end Sys2Proof.Machine

namespace Sys2Proof.Proofs
open Sys2Proof Sys2Proof.Machine Sys2Proof.Claims

/-- Settles O58: each case is what the merge stage answers for the two offers. -/
theorem mergeStage : Obligations.MergeStage := by
  unfold Obligations.MergeStage
  refine ⟨fun s c ps qs n m h0 h1 => ?both, fun s c ps n h0 h1 => ?first, fun s c qs m h0 h1 => ?second, fun s c h0 h1 => ?neither,
    fun s c q b => by rw [State.moveLeases_core]; rfl⟩ <;>
    obtain ⟨hg, hl⟩ := s.grant_core c <;> rw [h0, h1] at hg hl
  case both =>
    simp only [hg, hl, Machine.mergeStage, Offer.isReady, attempts, nextLost, ← Offer.merges_ready]
    by_cases hm : (Offer.ready ps n).merges (.ready qs m) = true
    · simp [hm]
    · by_cases hlost : (s.core c).lost < 64
      · simp [hm, hlost, Nat.not_le.mpr hlost]
      · simp [hm, hlost, Nat.not_lt.mp hlost]
  case first => exact ⟨hg, hl⟩
  case second => exact ⟨hg, hl⟩
  case neither => exact ⟨hg, hl⟩

end Sys2Proof.Proofs
end


section
/-! What a slot triggers, reads and writes, from the tables of R59, R61 and R63 (O57). -/
-- One proof after the other: elaborated side by side, the whole text's proofs need more memory than the check has.
set_option Elab.async false
namespace Sys2Proof.Machine
open Sys2Proof.Claims

/-! ### What a bundle's fields say (R43 to R51) -/

theorem toNat_fieldOf (w : BitVec 32) (lo n : Nat) : (fieldOf w lo n).toNat = w.toNat / 2 ^ lo % 2 ^ n := by
  simp [fieldOf, Nat.shiftRight_eq_div_pow]

theorem isMoveWord_not_control {w : BitVec 32} (h : isMoveWord w = true) : isControlWord w = false := by
  simp only [isMoveWord, isControlWord, Bool.and_eq_true, decide_eq_true_eq] at h ⊢
  have : wordFormat w ≠ 3 := by omega
  simp [this]

/-! ### What a slot triggers, reads and writes, from the tables of R59, R61 and R63 -/

/-- The trigger address `d` lies in the unit's row. -/
def InRow (d : Nat) (e : UnitId × Nat × Nat × List Nat) : Prop := e.2.1 ≤ d ∧ d < e.2.2.1

/-- The ranges of addresses that start a unit. -/
def triggerRanges : List (Nat × Nat) :=
  [(0x100, 0x118), (0x140, 0x158), (0x180, 0x187), (0x1A0, 0x1A9), (0x1C0, 0x1DA), (0x200, 0x244), (0x300, 0x309), (0x340, 0x345),
   (0x360, 0x374), (0x3A0, 0x3A9), (0x3C0, 0x3C4)]

theorem isTrigger_ranges (d : Nat) : isTrigger d = true ↔ ∃ r ∈ triggerRanges, r.1 ≤ d ∧ d ≤ r.2 := by
  simp [isTrigger, triggerRanges, or_assoc]

/-- The rows cover the ranges, and lie in them: tables of their 268 addresses. -/
theorem ranges_in_rows : ∀ r ∈ triggerRanges, ∀ i < r.2 + 1 - r.1, ∃ e ∈ unitTriggers, e.2.1 ≤ r.1 + i ∧ r.1 + i < e.2.2.1 := by
  decide +kernel

theorem rows_in_ranges : ∀ e ∈ unitTriggers, ∀ i < e.2.2.1 - e.2.1, isTrigger (e.2.1 + i) = true := by
  decide +kernel

theorem isTrigger_iff (d : Nat) : isTrigger d = true ↔ ∃ e ∈ unitTriggers, InRow d e := by
  constructor
  · intro h
    obtain ⟨r, hr, hlo, hhi⟩ := (isTrigger_ranges d).mp h
    have hcover := ranges_in_rows r hr (d - r.1) (by omega)
    rwa [Nat.add_sub_cancel' hlo] at hcover
  · rintro ⟨e, he, hlo, hhi⟩
    have hin := rows_in_ranges e he (d - e.2.1) (by omega)
    rwa [Nat.add_sub_cancel' hlo] at hin

theorem unitPorts_row : ∀ e ∈ unitTriggers, e.2.2.2 = unitPorts e.1 := by decide

/-- Every address of every row, but that of `lq.mark`, which counts for two units, gives the row's unit: a table of 268 addresses. -/
theorem triggerUnit_rows : ∀ e ∈ unitTriggers, ∀ i < e.2.2.1 - e.2.1, e.2.1 + i ≠ 0x1D4 → triggerUnit (e.2.1 + i) = some e.1 := by
  decide +kernel

theorem triggerUnit_of_row {d : Nat} (hd : d ≠ 0x1D4) {e : UnitId × Nat × Nat × List Nat} (he : e ∈ unitTriggers) (h : InRow d e) :
    triggerUnit d = some e.1 := by
  obtain ⟨hlo, hhi⟩ := h
  have hrow := triggerUnit_rows e he (d - e.2.1) (by omega)
  rw [show e.2.1 + (d - e.2.1) = d by omega] at hrow
  exact hrow hd

theorem mem_triggerUnits (d : Nat) (u : UnitId) : u ∈ triggerUnits d ↔ ∃ e ∈ unitTriggers, e.1 = u ∧ InRow d e := by
  by_cases hd : d = 0x1D4
  · subst hd
    revert u
    unfold InRow
    intro u
    cases u <;> decide
  · rw [triggerUnits, if_neg hd, Option.mem_toList]
    refine ⟨fun h => ?_, fun ⟨e, he, hu, h⟩ => hu ▸ triggerUnit_of_row hd he h⟩
    have ht : isTrigger d = true := by
      by_contra ht
      rw [Bool.not_eq_true] at ht
      simp [triggerUnit, ht] at h
    obtain ⟨e, he, hr⟩ := (isTrigger_iff d).mp ht
    exact ⟨e, he, Option.some.inj ((triggerUnit_of_row hd he hr).symm.trans h), hr⟩

/-- The ranges of triggers that take a load-queue entry. -/
def loadRanges : List (Nat × Nat) :=
  [(0x1C0, 0x1CB), (0x1D5, 0x1D5), (0x1D7, 0x1D7), (0x305, 0x307), (0x340, 0x342), (0x360, 0x36A), (0x36C, 0x36C), (0x36D, 0x36D),
   (0x36F, 0x36F), (0x3A4, 0x3A4), (0x3A6, 0x3A6), (0x3A7, 0x3A7)]

theorem takesLoad_ranges {d : Nat} (h : takesLoad d = true) : ∃ r ∈ loadRanges, r.1 ≤ d ∧ d ≤ r.2 := by
  simp only [takesLoad, Bool.or_eq_true, Bool.and_eq_true, decide_eq_true_eq, beq_iff_eq, or_assoc] at h
  simpa [loadRanges, ← Nat.le_antisymm_iff, eq_comm] using h

theorem ranges_take : ∀ r ∈ loadRanges, ∀ i < r.2 + 1 - r.1, r.1 + i ∈ loadTakers := by decide +kernel

theorem loadTakers_take : ∀ d ∈ loadTakers, takesLoad d = true := by decide +kernel

theorem takesLoad_iff (d : Nat) : takesLoad d = true ↔ d ∈ loadTakers := by
  refine ⟨fun h => ?_, loadTakers_take d⟩
  obtain ⟨r, hr, hlo, hhi⟩ := takesLoad_ranges h
  have hin := ranges_take r hr (d - r.1) (by omega)
  rwa [Nat.add_sub_cancel' hlo] at hin

theorem mem_triggerReads (d r : Nat) : r ∈ triggerReads d ↔
    (∃ e ∈ unitTriggers, InRow d e ∧ r ∈ e.2.2.2) ∨ (d ∈ loadTakers ∧ (r = 0xA9 ∨ r = 0xAA)) := by
  have hp : r ∈ ((triggerUnits d).map unitPorts).flatten ↔ ∃ e ∈ unitTriggers, InRow d e ∧ r ∈ e.2.2.2 := by
    simp only [List.mem_flatten, List.mem_map, exists_exists_and_eq_and, mem_triggerUnits]
    constructor
    · rintro ⟨u, ⟨e, he, rfl, h⟩, hr⟩
      exact ⟨e, he, h, unitPorts_row e he ▸ hr⟩
    · rintro ⟨e, he, h, hr⟩
      exact ⟨e.1, ⟨e, he, rfl, h⟩, unitPorts_row e he ▸ hr⟩
  rw [triggerReads, List.mem_append, hp, ← takesLoad_iff]
  cases takesLoad d <;> simp

theorem mem_predKey (n r : Nat) (h : n < 0x40) : r ∈ predKey n ↔ IsReg (0x60 + n) r := by
  unfold predKey IsReg
  split <;> simp <;> omega

theorem mem_popKey (a r : Nat) : r ∈ popKey a ↔ queueOf a = some r := by
  by_cases h1 : a = 0xA9
  · subst h1
    exact ⟨fun h => List.mem_singleton.mp h ▸ rfl, fun h => Option.some.inj h ▸ .head _⟩
  · by_cases h2 : a = 0xAA
    · subst h2
      exact ⟨fun h => List.mem_singleton.mp h ▸ rfl, fun h => Option.some.inj h ▸ .head _⟩
    · by_cases h3 : a = 0xAC
      · subst h3
        exact ⟨fun h => List.mem_singleton.mp h ▸ rfl, fun h => Option.some.inj h ▸ .head _⟩
      · simp [popKey, queueOf, List.lookup, h1, h2, h3, beq_eq_false_iff_ne.mpr]

theorem queueOf_low {a : Nat} (h : a < 0xA0) : queueOf a = none := by
  have hk : ∀ k, 0xA0 ≤ k → (a == k) = false := fun k hk => by
    rw [beq_eq_false_iff_ne]
    omega
  simp [queueOf, List.lookup, hk]

theorem mem_sourceKeys (a r : Nat) : r ∈ sourceKeys a ↔ IsReg a r ∨ queueOf a = some r := by
  unfold sourceKeys
  split
  · rw [queueOf_low (by omega)]
    simp [IsReg]
    omega
  · split
    · rw [queueOf_low (by omega), mem_predKey _ _ (by omega), show 0x60 + (a - 0x60) = a by omega]
      simp
    · rw [mem_popKey, or_iff_right]
      exact fun h => absurd h.1 (by omega)

theorem mem_destKeys (d r : Nat) : r ∈ destKeys d ↔
    IsReg d r ∨ (0xA0 ≤ d ∧ d < 0xB5 ∧ r = d) ∨ (d = 0x1D6 ∧ r = 0xAB) ∨ (d = 0x3A5 ∧ r = 0xB4) := by
  unfold destKeys
  split
  next h =>
    simp only [Bool.and_eq_true, decide_eq_true_eq] at h
    rw [mem_predKey _ _ (by omega), show 0x60 + (d - 0x60) = d by omega]
    unfold IsReg
    omega
  next h =>
    simp only [Bool.and_eq_true, decide_eq_true_eq, not_and] at h
    unfold IsReg
    split_ifs <;> simp only [List.mem_singleton, List.not_mem_nil, countKey, false_iff] <;> omega

end Sys2Proof.Machine
end


section
/-! The checks of a bundle before it issues (O57). -/
-- One proof after the other: elaborated side by side, the whole text's proofs need more memory than the check has.
set_option Elab.async false
namespace Sys2Proof.Machine
open Sys2Proof.Claims

theorem usesCondition_table : ∀ n < 2 ^ 5, usesCondition n = decide (n ∈ conditionCodes) := by decide

theorem mem_controlReads (w : BitVec 32) (r : Nat) : r ∈ controlReads w ↔
    (controlCode w ∈ conditionCodes ∧ IsReg (0x60 + w.toNat / 2 ^ 19 % 64) r) ∨ (controlCode w = 2 ∧ r = w.toNat % 64) ∨
      (controlCode w = 4 ∧ r = 63) ∨ (controlCode w = 5 ∧ r = w.toNat / 2 ^ 12 % 64) ∨ (controlCode w = 6 ∧ r = 0xB4) := by
  have hu : usesCondition (controlCode w) = true ↔ controlCode w ∈ conditionCodes := by
    rw [usesCondition_table (controlCode w) (fieldOf w 25 5).isLt, decide_eq_true_eq]
  unfold controlReads
  dsimp only
  rw [List.mem_append]
  refine or_congr ?_ ?_
  · by_cases h : controlCode w ∈ conditionCodes
    · rw [if_pos (hu.mpr h), mem_predKey _ _ (fieldOf w 19 6).isLt, toNat_fieldOf]
      simp [h]
    · rw [if_neg (mt hu.mp h)]
      simp [h]
  · split <;> simp_all [toNat_fieldOf, countKey]

theorem mem_controlWrites (w : BitVec 32) (r : Nat) : r ∈ controlWrites w ↔
    (controlCode w = 3 ∧ r = 63) ∨ (controlCode w = 6 ∧ r = 0xB4) := by
  unfold controlWrites
  split <;> simp_all [countKey]

theorem mem_slotReads (b : BitVec 128) (k r : Nat) : r ∈ slotReads b k ↔ SlotReads b k r := by
  unfold slotReads SlotReads
  dsimp only
  by_cases hm : isMoveWord (slotWord b k) = true
  · have hg : wordGuard (slotWord b k) < 0x40 := (fieldOf (slotWord b k) 23 6).isLt
    rw [if_pos hm, List.mem_append, mem_triggerReads]
    simp only [hm, isMoveWord_not_control hm, true_and, Bool.false_eq_true, false_and, and_false, or_false, InRow, and_assoc]
    refine or_congr ?_ Iff.rfl
    split
    next hf => rw [List.mem_append, mem_predKey _ _ hg, mem_sourceKeys]; simp [hf]
    next hf => simp [hf]
  · simp only [hm, Bool.false_eq_true, if_false, false_and, false_or, Bool.and_eq_true, decide_eq_true_eq]
    split
    next h =>
      obtain ⟨rfl, hc⟩ := h
      simp only [mem_controlReads, hc, true_and]
    next h => simpa using fun hk hc => absurd ⟨hk, hc⟩ h

theorem mem_slotWrites (b : BitVec 128) (k r : Nat) : r ∈ slotWrites b k ↔ SlotWrites b k r := by
  unfold slotWrites SlotWrites
  dsimp only
  by_cases hm : isMoveWord (slotWord b k) = true
  · rw [if_pos hm, List.mem_append, mem_destKeys]
    simp only [hm, isMoveWord_not_control hm, true_and, Bool.false_eq_true, false_and, and_false, or_false, or_assoc]
    refine or_congr_right (or_congr_right (or_congr_right (or_congr_right ?_)))
    split
    next hf => simp [hf, mem_popKey]
    next hf => simp [hf]
  · simp only [hm, Bool.false_eq_true, if_false, false_and, false_or, Bool.and_eq_true, decide_eq_true_eq]
    split
    next h =>
      obtain ⟨rfl, hc⟩ := h
      simp only [mem_controlWrites, hc, true_and]
    next h => simpa using fun hk hc => absurd ⟨hk, hc⟩ h

theorem mem_slotUnits (b : BitVec 128) (k : Nat) (u : UnitId) : u ∈ slotUnits b k ↔ TriggersUnit b k u := by
  unfold slotUnits TriggersUnit
  dsimp only
  split
  next h => simp only [mem_triggerUnits, h, true_and, InRow]
  next h => simp [h]

/-- A slot clashes with an earlier one as R63 says. -/
theorem slotClashes_iff (b : BitVec 128) (k : Nat) : slotClashes b k = true ↔
    ∃ j < k, (∃ r, SlotReads b k r ∧ SlotWrites b j r) ∨ ∃ u, TriggersUnit b k u ∧ TriggersUnit b j u := by
  simp [slotClashes, List.any_eq_true, mem_slotReads, mem_slotWrites, mem_slotUnits]

/-! ### Which words are instructions (R44, R49, R51) -/

theorem wordFormat_lt (w : BitVec 32) : wordFormat w < 4 := (fieldOf w 30 2).isLt

/-- The word of slot `k` is no instruction. -/
def BadWord (k : Nat) (w : BitVec 32) : Prop :=
  wordFormat w = 2 ∨ (wordFormat w = 3 ∧ (k = 0 ∧ w.extractLsb' 24 2 ≠ 0 ∨ k = 3 ∧ 14 ≤ controlCode w ∨ k ≠ 0 ∧ k ≠ 3))

theorem decodeControl_error_iff (w : BitVec 32) : (∃ e, decodeControl w = .error e) ↔ 14 ≤ controlCode w := by
  have hc : controlCode w < 32 := (fieldOf w 25 5).isLt
  unfold decodeControl
  unfold controlCode at hc ⊢
  generalize (fieldOf w 25 5).toNat = n at hc ⊢
  interval_cases n <;> simp

theorem decodeHeader_error_iff (w : BitVec 32) : (∃ e, decodeHeader w = .error e) ↔ w.extractLsb' 24 2 ≠ 0 := by
  unfold decodeHeader fieldOf
  split
  next h => simpa using h
  next h => exact ⟨fun _ => h, fun _ => ⟨_, rfl⟩⟩

theorem decodeSlot_error_iff (k : Nat) (w : BitVec 32) : (∃ e, decodeSlot k w = .error e) ↔ BadWord k w := by
  have hf := wordFormat_lt w
  have hh := decodeHeader_error_iff w
  have hc := decodeControl_error_iff w
  unfold decodeSlot BadWord
  simp only [wordFormat] at hf ⊢
  generalize (fieldOf w 30 2).toNat = n at hf ⊢
  interval_cases n
  · simp
  · simp
  · simp
  · by_cases h0 : k = 0
    · simp [h0, hh]
    · by_cases h3 : k = 3 <;> simp [h0, h3, hc]

theorem decodeBundle_isNone_iff (b : BitVec 128) : (decodeBundle b).isNone = true ↔ ∃ k < 4, BadWord k (slotWord b k) := by
  have ok : ∀ k, ¬ BadWord k (slotWord b k) → ∃ i, decodeSlot k (slotWord b k) = .ok i := fun k h => by
    rw [← decodeSlot_error_iff] at h
    cases hd : decodeSlot k (slotWord b k) with
    | ok i => exact ⟨i, rfl⟩
    | error e => exact absurd ⟨e, hd⟩ h
  constructor
  · intro h
    by_contra hn
    push Not at hn
    obtain ⟨i0, h0⟩ := ok 0 (hn 0 (by omega))
    obtain ⟨i1, h1⟩ := ok 1 (hn 1 (by omega))
    obtain ⟨i2, h2⟩ := ok 2 (hn 2 (by omega))
    obtain ⟨i3, h3⟩ := ok 3 (hn 3 (by omega))
    simp [decodeBundle, h0, h1, h2, h3] at h
  · rintro ⟨k, hk, hbad⟩
    obtain ⟨e, he⟩ := (decodeSlot_error_iff k _).mpr hbad
    unfold decodeBundle
    split
    next => interval_cases k <;> simp_all
    next => rfl

/-! ### What makes a bundle illegal (R50, R62, R63, R271) -/

theorem fieldOf_one (w : BitVec 32) (n : Nat) : fieldOf w n 1 = 1 ↔ w.getLsbD n = true := by
  rw [← BitVec.toNat_inj, toNat_fieldOf, BitVec.getLsbD, Nat.testBit_eq_decide_div_mod_eq]
  simp

theorem bundleExt_isSome (b : BitVec 128) {k : Nat} (hk : k ∈ [1, 2, 3]) :
    ((bundleExt b).getD k none).isSome = true ↔ wordFormat (slotWord b 0) = 3 ∧ (slotWord b 0).getLsbD (29 - k) = true := by
  have hsome : ∀ (x : BitVec 8) (p : Prop) [Decidable p], (if p then some x else none).isSome = true ↔ p := fun x p _ => by
    split <;> simp [*]
  unfold bundleExt headerExt isHeaderWord
  simp only [List.mem_cons, List.not_mem_nil, or_false] at hk
  by_cases h : wordFormat (slotWord b 0) = 3
  · rw [if_pos (by simpa using h)]
    simp only [h, true_and]
    rcases hk with rfl | rfl | rfl <;> exact (hsome ..).trans (fieldOf_one ..)
  · rw [if_neg (by simpa using h)]
    rcases hk with rfl | rfl | rfl <;> simp [h]

theorem extensionBroken_iff (b : BitVec 128) : extensionBroken b = true ↔
    ∃ k ∈ [1, 2, 3], wordFormat (slotWord b 0) = 3 ∧ (slotWord b 0).getLsbD (29 - k) = true ∧
      ¬ (wordFormat (slotWord b k) = 0 ∧ 0x800 ≤ wordSource (slotWord b k)) := by
  unfold extensionBroken
  rw [List.any_eq_true]
  refine exists_congr fun k => and_congr_right fun hk => ?_
  rw [Bool.and_eq_true, bundleExt_isSome b hk, and_assoc, Bool.not_eq_true', ← Bool.not_eq_true, Bool.and_eq_true, beq_iff_eq,
    decide_eq_true_eq]

theorem handlerBundleOk_iff (b : BitVec 128) : handlerBundleOk b = false ↔
    wordFormat (slotWord b 0) = 3 ∨ slotWord b 1 ≠ 0 ∨ slotWord b 2 ≠ 0 ∨ isMoveWord (slotWord b 3) = true := by
  rw [← Bool.not_eq_true]
  simp only [handlerBundleOk, isHeaderWord, slotOccupied, Bool.and_eq_true, Bool.not_eq_true', beq_eq_false_iff_ne, not_and_or,
    Bool.and_eq_false_iff, bne_eq_false_iff_eq, Bool.not_eq_false', ne_eq, not_not, Bool.not_eq_false, not_or, or_assoc]
  simp

theorem exists_badWord_iff (b : BitVec 128) : (∃ k < 4, BadWord k (slotWord b k)) ↔
    (∃ k < 4, wordFormat (slotWord b k) = 2) ∨ wordFormat (slotWord b 1) = 3 ∨ wordFormat (slotWord b 2) = 3 ∨
      (wordFormat (slotWord b 0) = 3 ∧ (slotWord b 0).extractLsb' 24 2 ≠ 0) ∨
      (wordFormat (slotWord b 3) = 3 ∧ 14 ≤ controlCode (slotWord b 3)) := by
  constructor
  · rintro ⟨k, hk, h | ⟨h, ⟨rfl, hb⟩ | ⟨rfl, hc⟩ | ⟨h0, h3⟩⟩⟩
    · exact .inl ⟨k, hk, h⟩
    · exact .inr (.inr (.inr (.inl ⟨h, hb⟩)))
    · exact .inr (.inr (.inr (.inr ⟨h, hc⟩)))
    · rcases (by omega : k = 1 ∨ k = 2) with rfl | rfl
      · exact .inr (.inl h)
      · exact .inr (.inr (.inl h))
  · rintro (⟨k, hk, h⟩ | h | h | ⟨h, hb⟩ | ⟨h, hc⟩)
    · exact ⟨k, hk, .inl h⟩
    · exact ⟨1, by omega, .inr ⟨h, .inr (.inr (by omega))⟩⟩
    · exact ⟨2, by omega, .inr ⟨h, .inr (.inr (by omega))⟩⟩
    · exact ⟨0, by omega, .inr ⟨h, .inl ⟨rfl, hb⟩⟩⟩
    · exact ⟨3, by omega, .inr ⟨h, .inr (.inl ⟨rfl, hc⟩)⟩⟩

/-- Slot 0 has no earlier slot to clash with. -/
theorem exists_clash_iff (b : BitVec 128) : (∃ k ∈ [1, 2, 3], slotClashes b k = true) ↔
    ∃ k < 4, ∃ j < k, (∃ r, SlotReads b k r ∧ SlotWrites b j r) ∨ ∃ u, TriggersUnit b k u ∧ TriggersUnit b j u := by
  simp only [slotClashes_iff]
  constructor
  · rintro ⟨k, hk, j, hj, h⟩
    refine ⟨k, ?_, j, hj, h⟩
    simp only [List.mem_cons, List.not_mem_nil, or_false] at hk
    omega
  · rintro ⟨k, hk, j, hj, h⟩
    refine ⟨k, ?_, j, hj, h⟩
    simp only [List.mem_cons, List.not_mem_nil, or_false]
    omega

theorem bundleIllegal_iff (handler : Bool) (b : BitVec 128) : bundleIllegal handler b = true ↔ Illegal handler b := by
  unfold bundleIllegal Illegal
  simp only [Bool.or_eq_true, Bool.and_eq_true, Bool.not_eq_true', decodeBundle_isNone_iff, extensionBroken_iff, handlerBundleOk_iff,
    List.any_eq_true, exists_clash_iff, exists_badWord_iff, or_assoc]

/-! ### The three checks in their order (R62 to R64) -/

theorem slotReserved_iff (b : BitVec 128) (k : Nat) : slotReserved b k = true ↔ ReservedAt b k := by
  have ht : isTrigger (wordDest (slotWord b k)) = false ↔
      ∀ e ∈ unitTriggers, ¬ (e.2.1 ≤ wordDest (slotWord b k) ∧ wordDest (slotWord b k) < e.2.2.1) := by
    rw [← Bool.not_eq_true, isTrigger_iff]
    simp only [InRow, not_exists, not_and]
  simp only [slotReserved, ReservedAt, Bool.and_eq_true, Bool.or_eq_true, decide_eq_true_eq, beq_iff_eq, Bool.not_eq_true', ht, and_assoc]

/-- A unit that no lease covers is always within reach. -/
theorem State.mayReach_own (s : State) {u : UnitId} (h : u.leaseBit = none) : s.mayReach (some u) = true := by
  simp [State.mayReach, Core.owns, h]

theorem not_mayReach_iff (s : State) (o : Option UnitId) : s.mayReach o = false ↔ ∃ u, o = some u ∧ s.mayReach (some u) = false := by
  cases o <;> simp [State.mayReach]

theorem triggerUnit_held (s : State) (d : Nat) : s.mayReach (triggerUnit d) = false ↔
    ∃ u ∈ triggerUnits d, s.mayReach (some u) = false := by
  by_cases hd : d = 0x1D4
  · subst hd
    have h : triggerUnit 0x1D4 = some .lq := by decide
    simp [h, triggerUnits, s.mayReach_own (u := .lq) rfl, s.mayReach_own (u := .sq) rfl]
  · rw [not_mayReach_iff, triggerUnits, if_neg hd]
    simp

theorem destUnit_row {d : Nat} {u : UnitId} (h : destUnit d = some u) : ∃ e ∈ unitTriggers, d ∈ e.2.2.2 ∧ e.1 = u := by
  unfold destUnit at h
  split at h <;> first | (cases h; decide) | cases h

theorem destUnit_of_row : ∀ e ∈ unitTriggers, ∀ d ∈ e.2.2.2, destUnit d = some e.1 := by decide

theorem destUnit_held (s : State) (d : Nat) : s.mayReach (destUnit d) = false ↔
    ∃ e ∈ unitTriggers, d ∈ e.2.2.2 ∧ s.mayReach (some e.1) = false := by
  rw [not_mayReach_iff]
  constructor
  · rintro ⟨u, hu, hr⟩
    obtain ⟨e, he, hd, rfl⟩ := destUnit_row hu
    exact ⟨e, he, hd, hr⟩
  · rintro ⟨e, he, hd, hr⟩
    exact ⟨e.1, destUnit_of_row e he d hd, hr⟩

/-- The sources that belong to leased units. -/
def leasedSources : List (Nat × UnitId) := [(0xA5, .vx), (0xA6, .vx), (0xA7, .vx), (0xA8, .mx), (0xAA, .cx)]

theorem srcUnit_row {a : Nat} {u : UnitId} (h : srcUnit a = some u) : u.leaseBit = none ∨ (a, u) ∈ leasedSources := by
  unfold srcUnit at h
  split at h <;> first | (cases h; decide) | cases h

theorem srcUnit_of_row : ∀ e ∈ leasedSources, srcUnit e.1 = some e.2 := by decide

theorem srcUnit_held (s : State) (a : Nat) : s.mayReach (srcUnit a) = false ↔
    ∃ e ∈ leasedSources, a = e.1 ∧ s.mayReach (some e.2) = false := by
  rw [not_mayReach_iff]
  constructor
  · rintro ⟨u, hu, hr⟩
    rcases srcUnit_row hu with hn | he
    · rw [s.mayReach_own hn] at hr
      cases hr
    · exact ⟨_, he, rfl, hr⟩
  · rintro ⟨e, he, rfl, hr⟩
    exact ⟨e.2, srcUnit_of_row e he, hr⟩

theorem State.slotNotOwned_iff (s : State) (b : BitVec 128) (k : Nat) : s.slotNotOwned b k = true ↔ NotHeldAt s b k := by
  unfold State.slotNotOwned NotHeldAt
  dsimp only
  rw [Bool.and_eq_true]
  refine and_congr_right fun hm => ?_
  have htrig : (∃ u, TriggersUnit b k u ∧ s.mayReach (some u) = false) ↔ s.mayReach (triggerUnit (wordDest (slotWord b k))) = false := by
    rw [triggerUnit_held]
    refine exists_congr fun u => and_congr_left fun _ => ?_
    rw [← mem_slotUnits, slotUnits]
    simp only [hm, if_true]
  rw [htrig, ← destUnit_held]
  change _ ↔ _ ∨ _ ∨ _ ∧ ∃ e ∈ leasedSources, _
  rw [← srcUnit_held, Bool.not_eq_true', Bool.and_eq_false_iff, Bool.and_eq_false_iff, Bool.or_eq_false_iff, bne_eq_false_iff_eq]
  tauto

/-- The bundle's checks answer the first of their causes that holds. -/
theorem State.bundleCheck_causes (s : State) (b : BitVec 128) (first : Nat) :
    (Illegal s.me.handler b → s.bundleCheck b first = some .illegalBundle) ∧
    (¬ Illegal s.me.handler b →
      ((∃ k < 4, first ≤ k ∧ ReservedAt b k) → s.bundleCheck b first = some .reservedPort) ∧
      ((∀ k < 4, first ≤ k → ¬ ReservedAt b k) →
        ((∃ k < 4, first ≤ k ∧ NotHeldAt s b k) → s.bundleCheck b first = some .unitNotOwned) ∧
        ((∀ k < 4, first ≤ k → ¬ NotHeldAt s b k) → s.bundleCheck b first = none))) := by
  have rest : ∀ p : Nat → Bool, ((List.range 4).filter (first ≤ ·)).any p = true ↔ ∃ k < 4, first ≤ k ∧ p k = true := fun p => by
    simp [List.any_eq_true]
  have none_of : ∀ p : Nat → Bool, (∀ k < 4, first ≤ k → ¬ p k = true) → ¬ ((List.range 4).filter (first ≤ ·)).any p = true := fun p h hp => by
    obtain ⟨k, h4, hf, hk⟩ := (rest p).mp hp
    exact h k h4 hf hk
  unfold State.bundleCheck
  simp only [← bundleIllegal_iff, ← slotReserved_iff, ← s.slotNotOwned_iff]
  refine ⟨fun h => if_pos h, fun h => ⟨fun hr => ?_, fun hr => ⟨fun hu => ?_, fun hu => ?_⟩⟩⟩
  · rw [if_neg h, if_pos ((rest _).mpr hr)]
  · rw [if_neg h, if_neg (none_of _ hr), if_pos ((rest _).mpr hu)]
  · rw [if_neg h, if_neg (none_of _ hr), if_neg (none_of _ hu)]

end Sys2Proof.Machine
end


section
/-! A step and the issue of a bundle (O57). -/
-- One proof after the other: elaborated side by side, the whole text's proofs need more memory than the check has.
set_option Elab.async false
namespace Sys2Proof.Machine
open Sys2Proof.Claims

/-! ### A decoded instruction runs as a slot (R43, R65) -/

/-- An instruction with a slot word runs by its meaning in a slot. -/
theorem exec_of_encode {i : Instr} (h : (encode i).isSome = true) (s : State) : exec i s = runSlot (slotSem i) s := by
  cases i <;> first | rfl | cases h

/-- The triggers of a row of 32 destinations have words. -/
def rowHasWords (g : BitVec 7) (a : BitVec 12) (k : Nat) : Bool :=
  (List.range 32).all fun i => (triggerOf g (32 * k + i) a).all fun i => (encode i).isSome

theorem rowHasWords_all (g : BitVec 7) (a : BitVec 12) {k : Nat} (h : k < 32) : rowHasWords g a k = true := by
  interval_cases k <;> rfl

theorem triggerOf_low {g : BitVec 7} {d : Nat} {a : BitVec 12} {i : Instr} (h : triggerOf g d a = some i) : d < 0x400 := by
  unfold triggerOf at h
  split at h
  case h_16 => cases h
  all_goals omega

theorem encode_of_trigger {g : BitVec 7} {d : Nat} {a : BitVec 12} {i : Instr} (h : triggerOf g d a = some i) : (encode i).isSome = true := by
  have hlow := triggerOf_low h
  have hd := List.all_eq_true.mp (rowHasWords_all g a (k := d / 32) (by omega)) (d % 32) (List.mem_range.mpr (Nat.mod_lt _ (by omega)))
  rw [Nat.div_add_mod, h] at hd
  exact hd

theorem encode_moveOf (g : BitVec 7) (d : BitVec 11) (a : BitVec 12) : (encode (moveOf g d a)).isSome = true := by
  unfold moveOf
  split
  · exact encode_of_trigger ‹_›
  · split_ifs <;> rfl

theorem encode_of_decodeSlot {k : Nat} {w : BitVec 32} {i : Instr} (h : decodeSlot k w = .ok i) : (encode i).isSome = true := by
  unfold decodeSlot at h
  split at h
  · cases h
    exact encode_moveOf ..
  · cases h
    rfl
  · cases h
  · split_ifs at h
    · unfold decodeHeader at h
      split at h <;> cases h
      rfl
    · unfold decodeControl at h
      dsimp only at h
      split at h <;> cases h <;> rfl

theorem encode_of_decodeBundle {b : BitVec 128} {is : List Instr} (h : decodeBundle b = some is) : ∀ i ∈ is, (encode i).isSome = true := by
  unfold decodeBundle at h
  split at h
  next i j k l h0 h1 h2 h3 =>
    cases h
    simp [encode_of_decodeSlot h0, encode_of_decodeSlot h1, encode_of_decodeSlot h2, encode_of_decodeSlot h3]
  next => cases h

theorem execAll_slots (is : List Instr) (h : ∀ i ∈ is, (encode i).isSome = true) (s : State) :
    execAll is s = .next (commitSlots is s) := by
  induction is generalizing s with
  | nil => rfl
  | cons i is ih =>
    rw [execAll, exec_of_encode (h i (.head _))]
    exact ih (fun j hj => h j (.tail _ hj)) _

/-! ### The bytes of a fetched bundle (R43, R86) -/

/-- Byte `i` of a little-endian number. -/
theorem leNat_byte (bs : List Byte) (i : Nat) : leNat bs / 2 ^ (8 * i) % 2 ^ 8 = (bs.getD i 0).toNat := by
  induction bs generalizing i with
  | nil => simp [leNat]
  | cons b bs ih =>
    have hb : b.toNat < 256 := b.isLt
    cases i with
    | zero =>
      simp [leNat]
      omega
    | succ i =>
      have hdiv : (b.toNat + 256 * leNat bs) / 2 ^ (8 * (i + 1)) = leNat bs / 2 ^ (8 * i) := by
        rw [Nat.mul_succ, Nat.pow_add, Nat.mul_comm (2 ^ (8 * i)), ← Nat.div_div_eq_div_mul]
        congr 1
        omega
      rw [leNat, hdiv, ih]
      rfl

/-- A byte of a slot word of a bundle, as its bytes give it. -/
theorem slotWord_byte (bs : List Byte) {k j : Nat} (hk : k < 4) (hj : j < 4) :
    (slotWord (BitVec.ofNat 128 (leNat bs)) k).extractLsb' (8 * j) 8 = bs.getD (4 * k + j) 0 := by
  apply BitVec.eq_of_toNat_eq
  rw [← leNat_byte, slotWord]
  simp only [BitVec.extractLsb'_toNat, BitVec.toNat_ofNat, Nat.shiftRight_eq_div_pow]
  generalize leNat bs = n
  rw [show 8 * (4 * k + j) = 32 * k + 8 * j by omega]
  apply Nat.eq_of_testBit_eq
  intro i
  simp only [Nat.testBit_mod_two_pow, Nat.testBit_div_two_pow]
  by_cases hi : i < 8
  · simp only [hi, show i + 8 * j < 32 by omega, show i + 8 * j + 32 * k < 128 by omega, decide_true, Bool.true_and]
    congr 1
    omega
  · simp [hi]

theorem State.fetch_bundle {c q pa : Nat} {s : State} (h : s.resolve c q .fetch (s.seq c q).pc.toNat = .at (.mem pa))
    (hp : s.poisonedAt pa 16 = false) (hc : s.cut (dieOf c) pa = false) :
    s.fetch c q (s.seq c q).pc = .bundle (BitVec.ofNat 128 (leNat (s.readMem pa 16))) := by
  simp [State.fetch, h, State.readLoc, State.homeRead, hp, hc]

theorem State.readMem_getD (s : State) (pa : Nat) {n i : Nat} (h : i < n) : (s.readMem pa n).getD i 0 = s.readByte (pa + i) := by
  simp [State.readMem, h]

/-! ### A granted bundle issues or traps (R22, R23, R64, R65) -/

theorem State.dropGrant_seq (s : State) (c q k u : Nat) : (s.dropGrant c q).seq k u = s.seq k u := by
  by_cases h : k = c
  · subst h
    simp [State.seq, State.dropGrant, Core.seq]
  · simp [State.seq, State.dropGrant, State.core_modCore_ne _ _ h]

theorem State.resetLost_seq (s : State) (c q k u : Nat) : (s.resetLost c q).seq k u = s.seq k u := by
  unfold State.resetLost
  split
  · by_cases h : k = c
    · subst h
      simp [State.seq, Core.seq]
    · simp [State.seq, State.core_modCore_ne _ _ h]
  · rfl

theorem State.readyBundle_slots {d : State} {c q : Nat} {b : BitVec 128} {is : List Instr}
    (hf : d.fetch c q (d.seq c q).pc = .bundle b)
    (hc : (d.startIssue c q (bundleExt b)).bundleCheck b (d.seq c q).slot = none) (hd : decodeBundle b = some is)
    (hz : firstFreeze ((is.drop (d.seq c q).slot).map slotSem) (d.startIssue c q (bundleExt b)) = none) :
    d.readyBundle c q = .slots b is := by
  simp only [State.readyBundle, hf, hc, hd, hz]

theorem State.readyBundle_bad {d : State} {c q : Nat} {b : BitVec 128} {k : Cause} (hf : d.fetch c q (d.seq c q).pc = .bundle b)
    (hc : (d.startIssue c q (bundleExt b)).bundleCheck b (d.seq c q).slot = some k) : d.readyBundle c q = .bad b k := by
  simp only [State.readyBundle, hf, hc]

section
variable {s : State} {c q : Nat} (hq : q < 2) (hg : q ∈ (s.core c).grants) (hrun : (s.seq c q).run = .running)
  (hhold : (s.seq c q).hold = none) (hrec : (s.seq c q).recordDue = false)
include hq hg hrun hhold hrec

/-- What the issue of a granted bundle comes to, by what its fetch and its checks answer. -/
theorem execBundleIssue_granted : let d := (s.dropGrant c q).resetLost c q
    (∀ b is, d.readyBundle c q = .slots b is → execBundleIssue c q s = .next (d.issueSlots c q b is)) ∧
    ∀ b k, d.readyBundle c q = .bad b k →
      execBundleIssue c q s = .next ((d.traceStallEnd c q).takeTrap c q k 0 0 none false (s.seq c q).pc) := by
  have hany : (s.core c).grants.any (fun g => g % 2 == q) = true :=
    List.any_eq_true.mpr ⟨q, hg, by simpa using Nat.mod_eq_of_lt hq⟩
  have hin : (s.core c).grants.contains q = true := by simpa using hg
  have hmay : (s.seq c q).issuesGranted = true := by simp [Seq.issuesGranted, hrun, hhold, hrec]
  have hpc : (((s.dropGrant c q).resetLost c q).seq c q) = s.seq c q := by rw [State.resetLost_seq, State.dropGrant_seq]
  refine ⟨fun b is h => ?_, fun b k h => ?_⟩ <;>
    simp only [execBundleIssue, hany, if_true, State.bundleIssue, hmay, hin, Bool.not_true, Bool.false_eq_true, if_false, h, hpc]

end

end Sys2Proof.Machine

namespace Sys2Proof.Proofs
open Sys2Proof Sys2Proof.Machine Sys2Proof.Claims

/-- Settles O57: what the checks answer is `State.bundleCheck_causes`; the issue follows from what the fetch and the checks come to. -/
theorem stepRunsBundle : Obligations.StepRunsBundle := by
  unfold Obligations.StepRunsBundle
  refine ⟨fun s k i rest hin hk hd => ?input, fun s m hin hm => ?move, fun c q pa s hr hp hc => ?fetch,
    fun c q b s hq hg hrun hhold hrec => ?issue, State.bundleCheck_causes, fun w => ?placed⟩
  case input => simp [step, hin, hk, hd]
  case move => simp [step, hin, hm, runMove]
  case fetch =>
    refine ⟨_, State.fetch_bundle hr hp hc, fun k hk j hj => ?_⟩
    rw [slotWord_byte _ hk hj, State.readMem_getD _ _ (by omega), Nat.add_assoc]
  case issue =>
    obtain ⟨hslots, hbad⟩ := execBundleIssue_granted hq hg hrun hhold hrec
    intro d first u hfetch
    have hd : d.seq c q = s.seq c q := by rw [State.resetLost_seq, State.dropGrant_seq]
    refine ⟨fun is hcheck hdec hfree => ?_, ?_, fun k hk => ?_⟩
    · refine ⟨_, execAll_slots _ (fun i hi => encode_of_decodeBundle hdec i (List.mem_of_mem_drop hi)) _, ?_⟩
      rw [exec_bundleIssue, hslots b is (State.readyBundle_slots (by rwa [hd]) (by rwa [hd]) hdec (by rwa [hd])), State.issueSlots, hd]
    · split
      next h1 => simp [d, State.resetLost, h1]
      next h1 => exact if_neg h1
    · exact hbad b k (State.readyBundle_bad (by rwa [hd]) (by rwa [hd]))
  case placed =>
    have hm : (State.reset.withFetchWord 32 w).moves = [execBundleIssue 0 0] := by
      simp only [State.withFetchWord, State.placeWord, State.moves, State.granted, State.coreIds, State.modCore, State.setCore,
        State.core, State.writeMem_cores]
      rfl
    rw [step]
    exact congrArg (runMove _) hm

end Sys2Proof.Proofs
end


section
/-! Tile operations wait for their tiles (O32). -/
-- One proof after the other: elaborated side by side, the whole text's proofs need more memory than the check has.
set_option Elab.async false
namespace Sys2Proof.Machine
open Sys2Proof.Claims

/-! ### Triggers of leased units, and the waits for tiles (R14, R167) -/

/-- A trigger of a leased unit that goes ahead does what its meaning does with the value read. -/
theorem leased_trigS {u : UnitId} {s s' : State} {g : BitVec 7} {a : BitVec 12} {v : Value} {f : Word → Sem}
    (h : Leased u s g a v s') : leased u (trigS g a f) s = f v.toS s' := by
  obtain ⟨hu, -, hg, hr⟩ := h
  rw [leased, owned, if_pos hu, trigS_on hg hr]

theorem runSlot_leased_wait {u : UnitId} {s s' : State} {g : BitVec 7} {a : BitVec 12} {v : Value} {f : Word → Sem} {w : Hold}
    (h : Leased u s g a v s') (hf : f v.toS s' = .wait w s') : runSlot (leased u (trigS g a f)) s = waitAt s s' w :=
  runSlot_wait h.2.1 ((leased_trigS h).trans hf)

theorem Core.tilesFree_iff (k : Core) (w r : List Nat) (tf : Bool) :
    k.tilesFree w r tf = true ↔ TilesFree k w r (if tf then k.tfOps else k.mxOps) (if tf then 8 else 4) := by
  cases tf <;> simp [Core.tilesFree, TilesFree, and_assoc]

theorem withTiles_busy_mx {s : State} {w r : List Nat} {f : SlotRes} (h : ¬ TilesFree s.myCore w r s.myCore.mxOps 4) :
    withTiles w r false s f = .wait (.tiles w r false) s :=
  if_neg fun hf => h ((s.myCore.tilesFree_iff w r false).mp hf)

theorem withTiles_busy_tf {s : State} {w r : List Nat} {f : SlotRes} (h : ¬ TilesFree s.myCore w r s.myCore.tfOps 8) :
    withTiles w r true s f = .wait (.tiles w r true) s :=
  if_neg fun hf => h ((s.myCore.tilesFree_iff w r true).mp hf)

/-! ### Fields of a trigger value (R170) -/

theorem bits_eq (n hi lo : Nat) : bits n hi lo = n / 2 ^ lo % 2 ^ (hi + 1 - lo) := rfl

theorem mxD_eq (t : Word) : mxD t = t.toNat % 16 := by simp [mxD, bits_eq]
theorem mxA_eq (t : Word) : mxA t = t.toNat / 16 % 16 := by simp [mxA, bits_eq]
theorem mxB_eq (t : Word) : mxB t = t.toNat / 256 % 16 := by simp [mxB, bits_eq]
theorem mxPairs_eq (t : Word) : mxPairs t = t.toNat / 8192 % 4 + 1 := by simp [mxPairs, bits_eq]
theorem mxX_eq (t : Word) : mxX t = t.toNat / 32768 % 16 := by simp [mxX, bits_eq]

end Sys2Proof.Machine

namespace Sys2Proof.Proofs
open Sys2Proof Sys2Proof.Machine Sys2Proof.Claims

/-- Settles O32: every operation of mx and tf looks for its tiles first, and a wait puts back what the source popped. -/
theorem tileOperationsWait : Obligations.TileOperationsWait := by
  unfold Obligations.TileOperationsWait
  intro g a s s' v t k pairs held
  have hlow : bits v.toS.toNat 3 0 = t % 16 := by simp [t, bits_eq]
  have hsrc : bits v.toS.toNat 11 8 = t / 256 % 16 := by simp [t, bits_eq]
  have hd : mxD v.toS = t % 16 := mxD_eq _
  refine ⟨fun h => ⟨fun hb => ?mdrain, fun hb => ?mzero, fun hb => ?mma, fun hb => ?mmas, fun hb => ?mmag⟩,
    fun h => ⟨fun hb => ⟨?tld, ?tbind, ?trel⟩, fun hroom hb => ?tst, fun hb => ?tcvt⟩⟩ <;>
    refine runSlot_leased_wait h ?_
  case mdrain =>
    rw [mdrainTrigger, hd]
    exact withTiles_busy_mx hb
  case mzero =>
    rw [mzeroTrigger, hd]
    exact withTiles_busy_mx hb
  case mma =>
    rw [mmaTrigger, hd, mxPairs_eq, mxA_eq, mxB_eq]
    exact withTiles_busy_mx hb
  case mmas =>
    rw [mmasTrigger, hd, mxPairs_eq, mxA_eq, mxB_eq, mxX_eq]
    exact withTiles_busy_mx hb
  case mmag =>
    rw [mmagTrigger, hd, mxA_eq, mxB_eq, mxX_eq, Nat.mod_mod_of_dvd _ (by decide : 8 ∣ 16)]
    exact withTiles_busy_mx hb
  case tld =>
    rw [tileLoad, hlow]
    exact withTiles_busy_tf hb
  case tbind =>
    rw [tileBind, hlow]
    exact withTiles_busy_tf hb
  case trel =>
    rw [tileRelease, hlow]
    exact withTiles_busy_tf hb
  case tst =>
    rw [tileStore, hlow, withStoreRoom_room hroom]
    exact withTiles_busy_tf hb
  case tcvt =>
    rw [tileConvert, hlow, hsrc]
    exact withTiles_busy_tf hb

end Sys2Proof.Proofs
end


section
/-! Lease, guard and source come before a trigger (O42). -/
-- One proof after the other: elaborated side by side, the whole text's proofs need more memory than the check has.
set_option Elab.async false
namespace Sys2Proof.Machine
open Sys2Proof.Claims

/-! ### Results that freeze no bundle for room (R64, R99, R230) -/

/-- The result is no freeze for room in the store queue or in a send buffer, so that a source's trap or wait comes first. -/
structure SlotRes.Calm (f : SlotRes) : Prop where
  roomOr : ∀ r, f.roomOr r = r

namespace SlotRes.Calm

@[simp] theorem ok {s : State} : (SlotRes.ok s).Calm := ⟨fun _ => rfl⟩
@[simp] theorem trap {c : Cause} {w : Word} {h : Option HeadRecord} {s : State} : (SlotRes.trap c w h s).Calm := ⟨fun _ => rfl⟩
@[simp] theorem wait {h : Hold} {s : State} : (SlotRes.wait h s).Calm := ⟨fun _ => rfl⟩
@[simp] theorem walk {asid va : Nat} : (SlotRes.freeze (.walk asid va)).Calm := ⟨fun _ => rfl⟩

@[simp] theorem ite {p : Prop} [Decidable p] {f g : SlotRes} (hf : f.Calm) (hg : g.Calm) : (if p then f else g).Calm := by
  split
  · exact hf
  · exact hg

variable {s : State}

theorem loadRoom {f : SlotRes} (h : f.Calm) : (withLoadRoom s f).Calm := by
  unfold withLoadRoom
  exact ite (ite h (trap)) (ite h (trap))

theorem checkAll {r : Right} {vas : List Nat} {f : List Loc → SlotRes} (h : ∀ ls, (f ls).Calm) : (checkAll s r vas f).Calm := by
  unfold Machine.checkAll
  dsimp only
  split
  · exact walk
  · split <;> first | exact trap | exact h _

theorem checkOne {r : Right} {va n : Nat} {f : Loc → SlotRes} (h : ∀ l, (f l).Calm) : (checkOne s r va n f).Calm := by
  unfold Machine.checkOne
  refine ite (trap) (checkAll fun ls => ?_)
  split
  · exact h _
  · exact trap

theorem withStamp {va : Nat} {ls : List Loc} {f : Option StampCheck → SlotRes} (h : ∀ k, (f k).Calm) : (withStamp s va ls f).Calm := by
  unfold Machine.withStamp
  split
  · exact h _
  · exact ite (h _) (trap)

theorem queryLines {vas : List Nat} {f : List Loc → SlotRes} (h : ∀ ls, (f ls).Calm) : (queryLines s vas f).Calm := by
  unfold Machine.queryLines
  dsimp only
  split
  · exact walk
  · split
    · exact trap
    · exact h _

theorem checkRuns {d : Stream} {r : Right} {runs : List (Nat × Nat)} {f : List (Loc × Nat) → SlotRes} (h : ∀ ps, (f ps).Calm) :
    (checkRuns s d r runs f).Calm := by
  unfold Machine.checkRuns
  dsimp only
  split
  · exact walk
  · split <;> first | exact trap | exact h _

theorem syncPlace {r : Right} {t : Word} {f : Nat → SlotRes} (h : ∀ pa, (f pa).Calm) : (syncPlace s r t f).Calm := by
  unfold Machine.syncPlace
  refine ite (trap) (ite (trap) (checkAll fun ls => ?_))
  split
  · exact h _
  · exact trap

theorem kvTrap (e : KvFail) : (kvTrap s e).Calm := by
  unfold Machine.kvTrap
  split
  · exact trap
  · split
    · exact walk
    · exact trap
  · exact walk
  · exact trap

theorem kvThen {α : Type} {r : Except KvFail α} {f : α → SlotRes} (h : ∀ a, (f a).Calm) : (kvThen s r f).Calm := by
  unfold Machine.kvThen
  split
  · exact h _
  · exact kvTrap _

theorem streamTrap (n : Nat) (e : KvFail) : (streamTrap s n e).Calm := by
  unfold Machine.streamTrap
  split <;> exact kvTrap _

theorem streamStart {t : Word} {f : Nat → Stream → Word × Option (KvDesc × Nat) → State → SlotRes} (h : ∀ n d r u, (f n d r u).Calm) :
    (streamStart t s f).Calm := by
  unfold Machine.streamStart
  refine ite (trap) ?_
  split
  · exact streamTrap ..
  · exact h ..

theorem readRecord {va : Word} {f : List Byte → SlotRes} (h : ∀ b, (f b).Calm) : (readRecord va s f).Calm := by
  unfold Machine.readRecord
  split
  · exact trap
  · exact h _
  · exact loadRoom (checkOne fun _ => wait)

theorem tileRecord {f : Shape → SlotRes} (h : ∀ d, (f d).Calm) : (tileRecord s f).Calm := by
  unfold Machine.tileRecord
  exact readRecord fun b => ite (trap) (ite (trap) (h _))

theorem withTiles {w r : List Nat} {tf : Bool} {f : SlotRes} (h : f.Calm) : (withTiles w r tf s f).Calm := ite h (wait)

theorem cregCheck {t : Word} {f : Nat → SlotRes} (h : ∀ a, (f a).Calm) : (cregCheck t s f).Calm := ite (trap) (ite (trap) (h _))

/-! ### The meanings of the triggers, one by one -/

variable (t : Word) (s)

theorem tlbinv (a : State) (b : State) (p : Prop) [Decidable p] (h : Hold) : (if p then SlotRes.wait h a else .ok b).Calm := ite (wait) (ok)

theorem invalidateRange (va n : Nat) : (invalidateRange va n s).Calm := by
  unfold Machine.invalidateRange
  dsimp only
  split
  · exact wait
  · exact ite (wait) (ok)

theorem pushCount : (pushCount t s).Calm := ite (ok) (trap)

theorem queryOne : (queryOne t s).Calm := by
  unfold Machine.queryOne
  refine loadRoom (queryLines fun ls => ?_)
  split
  · exact ok
  · exact trap

theorem queryRun (p : Region → Bool) (k : Region → LoadKind) (c : Cls) : (queryRun t s p k c).Calm := by
  unfold Machine.queryRun
  refine loadRoom (ite (trap) (queryLines fun ls => ?_))
  split
  · exact ite (ok) (trap)
  · exact trap

theorem regionTrigger : (regionTrigger t s).Calm := ite (trap) (ite (ite (trap) (ok)) (wait))

theorem streamLoad : (streamLoad t s).Calm := streamStart fun _ _ _ _ => loadRoom (ite (trap) (checkRuns fun _ => withStamp fun _ => ok))

theorem streamStore : (streamStore t s).Calm := by
  unfold Machine.streamStore
  refine streamStart fun n d row u => ?_
  split
  · exact streamTrap ..
  · exact checkRuns fun _ => ok

theorem acquireTrigger : (acquireTrigger t s).Calm := loadRoom (syncPlace fun _ => ok)
theorem barrierWait : (barrierWait t s).Calm := loadRoom (ok)
theorem superstep : (superstep s).Calm := ite (ok) (wait)

theorem repTrigger : (repTrigger t s).Calm := loadRoom (ok)
theorem mapLoad : (mapLoad t s).Calm := loadRoom (ok)

theorem kvOp (op : KvOp) : (kvOp s op).Calm := by
  unfold Machine.kvOp
  refine ite ?_ (wait)
  split
  · exact ok
  · exact kvThen fun _ => ok

theorem tileLoad : (tileLoad t s).Calm := withTiles (tileRecord fun _ => ite (trap) (ite (trap) (kvThen fun _ => loadRoom
  (checkRuns fun _ => withStamp fun _ => ite (trap) (ite (trap) (ok))))))

theorem tileBind : (tileBind t s).Calm := withTiles (tileRecord fun _ => ite (trap) (kvThen fun _ => loadRoom
  (checkRuns fun _ => ite (trap) (ite (trap) (ite (trap) (ok))))))

theorem tileConvert : (tileConvert t s).Calm := withTiles (ite (trap) (ite (trap) (ok)))
theorem tileRelease : (tileRelease t s).Calm := withTiles (ok)

theorem mmaTrigger : (mmaTrigger t s).Calm := by
  unfold Machine.mmaTrigger
  refine withTiles ?_
  dsimp only
  split
  · exact trap
  · exact ite (ok) (trap)

theorem mmasTrigger : (mmasTrigger t s).Calm := withTiles (ite (ite (ok) (trap)) (trap))

theorem mmagTrigger : (mmagTrigger t s).Calm := by
  unfold Machine.mmagTrigger
  refine withTiles ?_
  dsimp only
  split
  · exact trap
  · exact ite (ite (ok) (trap)) (trap)

theorem mzeroTrigger : (mzeroTrigger t s).Calm := withTiles (ite (ok) (trap))
theorem mdrainTrigger : (mdrainTrigger t s).Calm := withTiles (ite (trap) (ite (ok) (ok)))

end SlotRes.Calm

/-! ### Those that look for room in the store queue first (R99) -/

/-- A result that freezes the bundle while the store queue of `s` is full, and else for no room. -/
def StoresFirst (s : State) (f : SlotRes) : Prop := ∃ g : SlotRes, f = withStoreRoom s g ∧ g.Calm

theorem StoresFirst.roomOr {s : State} {f : SlotRes} (h : StoresFirst s f) (r : SlotRes) :
    f.roomOr r = if s.me.stores.length < 64 then r else .freeze .storeRoom := by
  obtain ⟨g, rfl, hg⟩ := h
  rw [withStoreRoom_roomOr, hg.roomOr]

namespace StoresFirst
variable (t : Word) (s : State)

theorem rebuildTrigger : StoresFirst s (rebuildTrigger t s) := by
  refine ⟨_, rfl, ?_⟩
  dsimp only
  split
  · exact .ok
  · exact .trap

theorem atomicTrigger (op : AtomicOp) : StoresFirst s (atomicTrigger op t s) := ⟨_, rfl, .loadRoom (.checkOne fun _ => .ok)⟩
theorem releaseTrigger : StoresFirst s (releaseTrigger t s) := ⟨_, rfl, .syncPlace fun _ => .ok⟩
theorem barrierGet : StoresFirst s (barrierGet t s) := ⟨_, rfl, .loadRoom (.ok)⟩
theorem barrierArrive : StoresFirst s (barrierArrive t s) := ⟨_, rfl, .ok⟩
theorem barrierFree : StoresFirst s (barrierFree t s) := ⟨_, rfl, .ok⟩
theorem spawnTrigger : StoresFirst s (spawnTrigger t s) := ⟨_, rfl, .checkOne fun _ => .ok⟩
theorem gradTrigger : StoresFirst s (gradTrigger t s) := ⟨_, rfl, .ite (.trap) (.checkAll fun _ => .ok)⟩

theorem tileStore : StoresFirst s (tileStore t s) :=
  ⟨_, rfl, .withTiles (.tileRecord fun _ => .ite (.trap) (.kvThen fun _ => .checkRuns fun _ => .kvThen fun _ => .ok))⟩

theorem kickTrigger : StoresFirst s (kickTrigger t s) := by
  refine ⟨_, rfl, ?_⟩
  dsimp only
  refine .ite (.wait) ?_
  split
  · exact .trap
  · split
    · exact .trap
    · exact .walk
    · refine .ite (.trap) ?_
      split
      · exact .trap
      · exact .ok

/-- `ep.done` with a bitmap in `ep.o` is an atomic (R301). -/
theorem doneTrigger (h : s.myCore.epo ≠ 0) : StoresFirst s (doneTrigger t s) := by
  unfold Machine.doneTrigger
  rw [if_neg h]
  exact ⟨_, rfl, .loadRoom (.checkOne fun _ => .ok)⟩

end StoresFirst

theorem doneTrigger_calm (t : Word) (s : State) (h : s.myCore.epo = 0) : (doneTrigger t s).Calm := by
  unfold doneTrigger
  rw [if_pos h]
  exact .loadRoom .ok

/-! ### The gates of one trigger (R14, R55, R64) -/

section
variable {f : BitVec 7 → BitVec 12 → Instr} {m : BitVec 7 → BitVec 12 → Sem} {F : Word → Sem} {s : State}
  (he : ∀ g a, exec (f g a) s = runSlot (m g a) s) (hm : ∀ g a, m g a s = trigS g a F s)
include he hm

open Classical in
/-- A class-S trigger with its meaning: what freezes the bundle before its source's trap is what `stores` says. -/
theorem ScalarGate.of_meaning {stores : State → Prop}
    (hF : ∀ s' r, (F Value.zero.toS s').roomOr r = if stores s' ∧ 64 ≤ s'.me.stores.length then .freeze .storeRoom else r) :
    ScalarGate f stores s := by
  refine fun g a hl => ⟨fun hg => ?_, fun s' c w h hg hr => ⟨fun hs => ?_, fun hs => ?_⟩⟩ <;> rw [he]
  · exact runSlot_ok hl ((hm g a).trans (trigS_off hg)) hl
  · exact runSlot_freeze hl (by rw [hm, trigS_trap hg hr, hF, if_pos hs])
  · exact runSlot_trap hl (by rw [hm, trigS_trap hg hr, hF, if_neg hs])

theorem ScalarGate.of_calm (hF : ∀ s', (F Value.zero.toS s').Calm) : ScalarGate f (fun _ => False) s :=
  ScalarGate.of_meaning he hm fun s' r => by rw [(hF s').roomOr, if_neg And.left]

theorem ScalarGate.of_stores (hF : ∀ s', StoresFirst s' (F Value.zero.toS s')) : ScalarGate f (fun _ => True) s :=
  ScalarGate.of_meaning he hm fun s' r => by simp only [(hF s').roomOr, true_and, ← Nat.not_lt, ite_not]

end

/-! ### The wrappers that several triggers share -/

theorem scalarGate_iaOp {f : BitVec 7 → BitVec 12 → Instr} {s : State} (u : BitVec 1) (h : Word → Word → Word)
    (he : ∀ g a, exec (f g a) s = runSlot (iaOp g u a h) s) : ScalarGate f (fun _ => False) s :=
  ScalarGate.of_calm he (fun _ _ => rfl) (by exact fun _ => .ok)

theorem scalarGate_imOp {f : BitVec 7 → BitVec 12 → Instr} {s : State} (h : Word → Word → Word → Word)
    (he : ∀ g a, exec (f g a) s = runSlot (imOp g a h) s) : ScalarGate f (fun _ => False) s :=
  ScalarGate.of_calm he (fun _ _ => rfl) (by exact fun _ => .ok)

theorem scalarGate_imDivOp {f : BitVec 7 → BitVec 12 → Instr} {s : State} (h : Word → Word → Word × Word)
    (he : ∀ g a, exec (f g a) s = runSlot (imDivOp g a h) s) : ScalarGate f (fun _ => False) s :=
  ScalarGate.of_calm he (fun _ _ => rfl) (by exact fun _ => .ok)

theorem scalarGate_loadRun {f : BitVec 7 → BitVec 12 → Instr} {s : State} (n : Nat) (k : LoadKind) (c : Cls)
    (he : ∀ g a, exec (f g a) s = runSlot (loadRun g a n k c) s) : ScalarGate f (fun _ => False) s :=
  ScalarGate.of_calm he (fun _ _ => rfl) (by exact fun _ => .loadRoom (.checkOne fun _ => .withStamp fun _ => .ok))

theorem scalarGate_storeScalar {f : BitVec 7 → BitVec 12 → Instr} {s : State} (n : Nat)
    (he : ∀ g a, exec (f g a) s = runSlot (storeScalar g a n) s) : ScalarGate f (fun _ => True) s :=
  ScalarGate.of_stores he (fun _ _ => rfl) (by exact fun _ => ⟨_, rfl, .checkOne fun _ => .ok⟩)

/-! ### Every trigger of the sequencer's own units -/

theorem scalarGate_ia : ∀ e ∈ iaRules, ∀ (u : BitVec 1) (s : State), ScalarGate (fun g a => e.1 g u a) (fun _ => False) s := by
  simp only [iaRules, List.forall_mem_append, List.forall_mem_cons, List.not_mem_nil, false_implies, implies_true, and_true]
  and_intros <;> exact fun u s => scalarGate_iaOp u _ fun _ _ => rfl

theorem scalarGate_own : ∀ f ∈ ownTriggers, ∀ s, ScalarGate f (fun _ => False) s := by
  simp only [ownTriggers, List.forall_mem_append, List.forall_mem_map, List.forall_mem_cons, List.not_mem_nil, false_implies,
    implies_true, and_true]
  refine ⟨⟨⟨fun e he => scalarGate_ia e he 0, fun e he => scalarGate_ia e he 1⟩, ?_⟩, ?_⟩
  · refine ⟨?imMul, ?imMulhi, ?imMulhn, ?imDiv, ?imDivn, ?imRem, ?imRemn, ?imMad, ?ldb, ?ldbs, ?ldh, ?ldhs, ?ldw, ?ldws, ?ldd,
      ?vld, ?vldbf, ?vldhf, ?vldb, ?mark, ?sld, ?sst, ?srld, ?sset, ?sadv, ?rfence, ?push, ?rd, ?wr, ?tlbinv, ?cinv, ?trace⟩
    case imMul | imMulhi | imMulhn | imMad => exact fun s => scalarGate_imOp _ fun _ _ => rfl
    case imDiv | imDivn | imRem | imRemn => exact fun s => scalarGate_imDivOp _ fun _ _ => rfl
    case ldb | ldbs | ldh | ldhs | ldw | ldws | ldd | vld | vldbf | vldhf | vldb =>
      exact fun s => scalarGate_loadRun _ _ _ fun _ _ => rfl
    all_goals refine fun s => ScalarGate.of_calm (fun _ _ => rfl) (fun _ _ => rfl) (fun s' => ?_)
    case mark | rfence | trace | sadv => exact .ok
    case sld => exact .streamLoad s' _
    case sst => exact .streamStore s' _
    case srld => exact .readRecord fun b => .ite .ok .trap
    case sset =>
      dsimp only
      split
      · exact .ok
      · exact .trap
    case push => exact .pushCount s' _
    case rd | wr => exact .cregCheck fun _ => .ok
    case tlbinv => exact .ite .wait .ok
    case cinv => exact .ite .ok (.ite .wait (.invalidateRange s' _ _))
  · refine ⟨?dq, ?dqr, ?dqz, ?dfence, ?dregion, ?acq, ?bwait, ?sstep⟩ <;>
      refine fun s => ScalarGate.of_calm (fun _ _ => rfl) (fun _ _ => rfl) (fun s' => ?_)
    case dq => exact .queryOne s' _
    case dqr | dqz => exact .queryRun s' _ _ _ _
    case dfence => exact .ok
    case dregion => exact .regionTrigger s' _
    case acq => exact .acquireTrigger s' _
    case bwait => exact .barrierWait s' _
    case sstep => exact .superstep s'

theorem scalarGate_storing : ∀ f ∈ storingTriggers, ∀ s, ScalarGate f (fun _ => True) s := by
  simp only [storingTriggers, List.forall_mem_cons, List.not_mem_nil, false_implies, implies_true, and_true]
  refine ⟨?stb, ?sth, ?stw, ?std, ?rebuild, ?aadd, ?amin, ?amax, ?aminn, ?amaxn, ?aand, ?aor, ?axor, ?aswp, ?acas, ?aincb,
    ?rel, ?bget, ?barv, ?bfree, ?spawn⟩
  case stb | sth | stw | std => exact fun s => scalarGate_storeScalar _ fun _ _ => rfl
  all_goals refine fun s => ScalarGate.of_stores (fun _ _ => rfl) (fun _ _ => rfl) (fun s' => ?_)
  case rebuild => exact .rebuildTrigger _ s'
  case rel => exact .releaseTrigger _ s'
  case bget => exact .barrierGet _ s'
  case barv => exact .barrierArrive _ s'
  case bfree => exact .barrierFree _ s'
  case spawn => exact .spawnTrigger _ s'
  all_goals exact .atomicTrigger _ s' _

/-! ### The triggers of the leased units -/

theorem leased_of_reach {u : UnitId} {s : State} {m : Sem} (h : s.mayReach (some u) = true) : leased u m s = m s := if_pos h

theorem runSlot_leased_reach {u : UnitId} {s : State} {m : Sem} (h : s.mayReach (some u) = true) :
    runSlot (leased u m) s = runSlot m s := by
  rw [runSlot, slotStep, leased_of_reach h]
  rfl

theorem runSlot_not_owned {u : UnitId} {s : State} {m : Sem} (hl : s.cur.live = true) (h : s.mayReach (some u) = false) :
    runSlot (leased u m) s = trapNow s .unitNotOwned 0 :=
  runSlot_trap hl (if_neg (by simp [h]))

section
variable {u : UnitId} {f : BitVec 7 → BitVec 12 → Instr} {F : Word → Sem} {s : State}
  (he : ∀ g a, exec (f g a) s = runSlot (leased u (trigS g a F)) s) (hu : s.mayReach (some u) = true)
include he hu

theorem ScalarGate.leased_calm (hn : ∀ s', ¬ storesLeased f s') (hF : ∀ s', (F Value.zero.toS s').Calm) :
    ScalarGate f (storesLeased f) s :=
  ScalarGate.of_meaning (F := F) (fun g a => (he g a).trans (runSlot_leased_reach hu)) (fun _ _ => rfl) fun s' r => by
    rw [(hF s').roomOr, if_neg fun h => hn s' h.1]

theorem ScalarGate.leased_stores (hn : ∀ s', storesLeased f s') (hF : ∀ s', StoresFirst s' (F Value.zero.toS s')) :
    ScalarGate f (storesLeased f) s :=
  ScalarGate.of_meaning (F := F) (fun g a => (he g a).trans (runSlot_leased_reach hu)) (fun _ _ => rfl) fun s' r => by
    rw [(hF s').roomOr]
    simp only [hn s', true_and, ← Nat.not_lt, ite_not]

end

/-- `ep.done` takes an entry of the store queue when `ep.o` holds a bitmap (R301). -/
theorem scalarGate_epDone {s : State} (hu : s.mayReach (some .ep) = true) : ScalarGate .epDone (storesLeased .epDone) s := by
  refine ScalarGate.of_meaning (F := doneTrigger) (m := fun g a => leased .ep (trigS g a doneTrigger)) (fun _ _ => rfl)
    (fun _ _ => leased_of_reach hu) fun s' r => ?_
  have hs : storesLeased .epDone s' ↔ s'.myCore.epo ≠ 0 := by simp [storesLeased]
  by_cases h : s'.myCore.epo = 0
  · rw [(doneTrigger_calm _ s' h).roomOr, if_neg fun hn => hs.mp hn.1 h]
  · simp only [(StoresFirst.doneTrigger _ s' h).roomOr, hs.mpr h, true_and, ← Nat.not_lt, ite_not]

theorem scalarGate_leased : ∀ e ∈ leasedScalar, ∀ s, s.mayReach (some e.1) = true → ScalarGate e.2 (storesLeased e.2) s := by
  simp only [leasedScalar, List.forall_mem_cons, List.not_mem_nil, false_implies, implies_true, and_true]
  refine ⟨?mma, ?mmas, ?mmag, ?mzero, ?mdrain, ?tld, ?tbind, ?tst, ?trel, ?tcvt, ?fork, ?free, ?app, ?map, ?rep,
    fun s hu => scalarGate_epDone hu, ?grad, ?kick⟩
  case tst =>
    exact fun s hu => ScalarGate.leased_stores (fun _ _ => rfl) hu (fun s' => by simp [storesLeased]) (StoresFirst.tileStore _)
  case grad =>
    exact fun s hu => ScalarGate.leased_stores (fun _ _ => rfl) hu (fun s' => by simp [storesLeased]) (StoresFirst.gradTrigger _)
  case kick =>
    exact fun s hu => ScalarGate.leased_stores (fun _ _ => rfl) hu (fun s' => by simp [storesLeased]) (StoresFirst.kickTrigger _)
  all_goals refine fun s hu => ScalarGate.leased_calm (fun _ _ => rfl) hu (fun s' => by simp [storesLeased]) (fun s' => ?_)
  case mma => exact .mmaTrigger s' _
  case mmas => exact .mmasTrigger s' _
  case mmag => exact .mmagTrigger s' _
  case mzero => exact .mzeroTrigger s' _
  case mdrain => exact .mdrainTrigger s' _
  case tld => exact .tileLoad s' _
  case tbind => exact .tileBind s' _
  case trel => exact .tileRelease s' _
  case tcvt => exact .tileConvert s' _
  case fork | free | app => exact .kvOp s' _
  case map => exact .mapLoad s' _
  case rep => exact .repTrigger s' _

/-- The trigger belongs to the leased unit `u`. -/
def TriggerOf (u : UnitId) (f : BitVec 7 → BitVec 12 → Instr) : Prop :=
  ∃ m : BitVec 7 → BitVec 12 → Sem, ∀ g a s, exec (f g a) s = runSlot (leased u (m g a)) s

theorem TriggerOf.not_owned {u : UnitId} {f : BitVec 7 → BitVec 12 → Instr} (h : TriggerOf u f) (g : BitVec 7) (a : BitVec 12)
    {s : State} (hl : s.cur.live = true) (hu : s.mayReach (some u) = false) : exec (f g a) s = trapNow s .unitNotOwned 0 := by
  obtain ⟨m, hm⟩ := h
  rw [hm, runSlot_not_owned hl hu]

theorem triggerOf_leasedScalar : ∀ e ∈ leasedScalar, TriggerOf e.1 e.2 := by
  simp only [leasedScalar, List.forall_mem_cons, List.not_mem_nil, false_implies, implies_true, and_true]
  and_intros <;> exact ⟨_, fun _ _ _ => rfl⟩

/-! ### Triggers of class V (R55, R78) -/

/-- A class-V trigger of the leased unit `u`. -/
def VectorTriggerOf (u : UnitId) (f : BitVec 7 → BitVec 12 → Instr) : Prop :=
  ∃ F : Word → Vec → Sem, ∀ g a s, exec (f g a) s = runSlot (leased u (trigV g a F)) s

theorem VectorTriggerOf.triggerOf {u : UnitId} {f : BitVec 7 → BitVec 12 → Instr} (h : VectorTriggerOf u f) : TriggerOf u f := by
  obtain ⟨F, hF⟩ := h
  exact ⟨fun g a => trigV g a F, hF⟩

/-- With the guard's bit clear a trigger of class V or P that would pop the count queue does nothing (log entry 131). -/
theorem runSlot_pop_off {m : Sem} {g : BitVec 7} {s : State} {f : SlotRes} (hl : s.cur.live = true)
    (hg : (s.guardMask g).getLsbD 0 = false) (hm : m s = guardedPop g 0x0AC s f) : runSlot m s = .next s.slotDone :=
  runSlot_ok hl (hm.trans (guardedPop_off f hg)) hl

theorem VectorTriggerOf.pop_off {u : UnitId} {f : BitVec 7 → BitVec 12 → Instr} (h : VectorTriggerOf u f) {g : BitVec 7} {s : State}
    (hl : s.cur.live = true) (hg : (s.guardMask g).getLsbD 0 = false) (hu : s.mayReach (some u) = true) :
    exec (f g 0x0AC) s = .next s.slotDone := by
  obtain ⟨F, hF⟩ := h
  rw [hF, runSlot_leased_reach hu]
  exact runSlot_pop_off hl hg rfl

section
variable {f : BitVec 7 → BitVec 12 → Instr}

theorem vectorTrigger_vxTrig (F : Word → Vec → Sem) (he : ∀ g a s, exec (f g a) s = runSlot (vxTrig g a F) s) :
    VectorTriggerOf .vx f :=
  ⟨F, he⟩

theorem vectorTrigger_vxLanes (l : Nat) (h : State → Vec → Nat → Flagged Lane)
    (he : ∀ g a s, exec (f g a) s = runSlot (vxLanes l g a h) s) : VectorTriggerOf .vx f :=
  vectorTrigger_vxTrig _ he

theorem vectorTrigger_vxInt (h : Lane → Lane → Lane) (he : ∀ g a s, exec (f g a) s = runSlot (vxInt g a h) s) :
    VectorTriggerOf .vx f :=
  vectorTrigger_vxLanes _ _ he

theorem vectorTrigger_vxCmpOp (l : Nat) (h : Lane → Lane → Bool × Flags)
    (he : ∀ g a s, exec (f g a) s = runSlot (vxCmpOp l g a h) s) : VectorTriggerOf .vx f :=
  vectorTrigger_vxTrig _ he

theorem vectorTrigger_vxCmp (h : Lane → Lane → Bool) (he : ∀ g a s, exec (f g a) s = runSlot (vxCmp g a h) s) :
    VectorTriggerOf .vx f :=
  vectorTrigger_vxCmpOp _ _ he

theorem vectorTrigger_vxFloat (h : RM → Lane → Lane → Lane → Flagged Lane)
    (he : ∀ g a s, exec (f g a) s = runSlot (vxFloat g a h) s) : VectorTriggerOf .vx f :=
  vectorTrigger_vxLanes _ _ he

theorem vectorTrigger_vxUnary (h : RM → Lane → Flagged Lane) (he : ∀ g a s, exec (f g a) s = runSlot (vxUnary g a h) s) :
    VectorTriggerOf .vx f :=
  vectorTrigger_vxLanes _ _ he

theorem vectorTrigger_vxQuantise (h : Hx) (he : ∀ g a s, exec (f g a) s = runSlot (vxQuantise h g a) s) : VectorTriggerOf .vx f :=
  vectorTrigger_vxTrig _ he

theorem vectorTrigger_vxDequantise (h : Hx) (he : ∀ g a s, exec (f g a) s = runSlot (vxDequantise h g a) s) :
    VectorTriggerOf .vx f :=
  vectorTrigger_vxLanes _ _ he

theorem vectorTrigger_vxPermute (h : Vec → Vec → Nat → Lane) (he : ∀ g a s, exec (f g a) s = runSlot (vxPermute g a h) s) :
    VectorTriggerOf .vx f :=
  vectorTrigger_vxLanes _ _ he

theorem vectorTrigger_vxReduce (n : Lane) (b : Bool) (h : RM → Lane → Lane → Flagged Lane)
    (he : ∀ g a s, exec (f g a) s = runSlot (vxReduce g a n b h) s) : VectorTriggerOf .vx f :=
  vectorTrigger_vxTrig _ he

theorem vectorTrigger_vxScan (n : Lane) (i : Lane → Flagged Lane) (h : RM → Lane → Lane → Flagged Lane)
    (he : ∀ g a s, exec (f g a) s = runSlot (vxScan g a n i h) s) : VectorTriggerOf .vx f :=
  vectorTrigger_vxTrig _ he

end

theorem vectorTrigger_lane : ∀ e ∈ laneRules, VectorTriggerOf .vx e.1 := by
  simp only [laneRules, List.forall_mem_append, List.forall_mem_cons, List.not_mem_nil, false_implies, implies_true, and_true]
  and_intros <;> exact vectorTrigger_vxInt _ fun _ _ _ => rfl

theorem vectorTrigger_compare : ∀ e ∈ compareRules, VectorTriggerOf .vx e.1 := by
  simp only [compareRules, List.forall_mem_append, List.forall_mem_cons, List.not_mem_nil, false_implies, implies_true, and_true]
  refine ⟨?ints, ?floats⟩
  case ints => and_intros <;> exact vectorTrigger_vxCmp _ fun _ _ _ => rfl
  case floats => and_intros <;> exact vectorTrigger_vxCmpOp _ _ fun _ _ _ => rfl

theorem vectorTrigger_float : ∀ e ∈ floatRules, VectorTriggerOf .vx e.1 := by
  simp only [floatRules, List.forall_mem_append, List.forall_mem_cons, List.not_mem_nil, false_implies, implies_true, and_true]
  refine ⟨⟨?arithmetic, ?functions⟩, ?conversions⟩
  case arithmetic => and_intros <;> exact vectorTrigger_vxFloat _ fun _ _ _ => rfl
  case functions => and_intros <;> exact vectorTrigger_vxUnary _ fun _ _ _ => rfl
  case conversions => and_intros <;> exact vectorTrigger_vxUnary _ fun _ _ _ => rfl

theorem vectorTrigger_quant : ∀ e ∈ quantRules, VectorTriggerOf .vx e.1 := by
  simp only [quantRules, List.forall_mem_cons, List.not_mem_nil, false_implies, implies_true, and_true]
  and_intros <;> exact vectorTrigger_vxQuantise _ fun _ _ _ => rfl

theorem vectorTrigger_dequant : ∀ e ∈ dequantRules, VectorTriggerOf .vx e.1 := by
  simp only [dequantRules, List.forall_mem_cons, List.not_mem_nil, false_implies, implies_true, and_true]
  and_intros <;> exact vectorTrigger_vxDequantise _ fun _ _ _ => rfl

theorem vectorTrigger_permute : ∀ e ∈ permuteRules, VectorTriggerOf .vx e.1 := by
  simp only [permuteRules, List.forall_mem_cons, List.not_mem_nil, false_implies, implies_true, and_true]
  and_intros <;> exact vectorTrigger_vxPermute _ fun _ _ _ => rfl

theorem vectorTrigger_reduce : ∀ e ∈ reduceRules, VectorTriggerOf .vx e.1 := by
  simp only [reduceRules, List.forall_mem_cons, List.not_mem_nil, false_implies, implies_true, and_true]
  and_intros <;> exact vectorTrigger_vxReduce _ _ _ fun _ _ _ => rfl

theorem vectorTrigger_tree : ∀ e ∈ treeRules, VectorTriggerOf .vx e.1 := by
  simp only [treeRules, List.forall_mem_cons, List.not_mem_nil, false_implies, implies_true, and_true]
  and_intros <;> exact vectorTrigger_vxReduce _ _ _ fun _ _ _ => rfl

theorem vectorTrigger_vx : ∀ f ∈ vectorTriggers, VectorTriggerOf .vx f := by
  simp only [vectorTriggers, List.forall_mem_append, List.forall_mem_map, List.forall_mem_cons, List.not_mem_nil, false_implies,
    implies_true, and_true]
  exact ⟨⟨⟨⟨⟨⟨⟨⟨vectorTrigger_lane, vectorTrigger_compare⟩, vectorTrigger_float⟩, vectorTrigger_quant⟩, vectorTrigger_dequant⟩,
    vectorTrigger_permute⟩, vectorTrigger_reduce⟩, vectorTrigger_tree⟩, vectorTrigger_vxScan _ _ _ fun _ _ _ => rfl,
    vectorTrigger_vxScan _ _ _ fun _ _ _ => rfl, vectorTrigger_vxTrig _ fun _ _ _ => rfl, vectorTrigger_vxTrig _ fun _ _ _ => rfl⟩

theorem vectorTriggerOf_leasedVector : ∀ e ∈ leasedVector, VectorTriggerOf e.1 e.2 := by
  simp only [leasedVector, List.forall_mem_append, List.forall_mem_map, List.forall_mem_cons, List.not_mem_nil, false_implies,
    implies_true, and_true]
  refine ⟨?_, vectorTrigger_vx⟩
  and_intros <;> exact ⟨_, fun _ _ _ => rfl⟩

/-- The triggers of classes V and P of the sequencer's own units: a pop of the count queue is asked for by the guard. -/
theorem ownWide_pop_off {g : BitVec 7} {s : State} (hl : s.cur.live = true) (hg : (s.guardMask g).getLsbD 0 = false) :
    ∀ f ∈ ownWide, exec (f g 0x0AC) s = .next s.slotDone := by
  simp only [ownWide, plRules, List.forall_mem_append, List.forall_mem_map, List.forall_mem_cons, List.not_mem_nil, false_implies,
    implies_true, and_true]
  and_intros <;> exact runSlot_pop_off hl hg rfl

end Sys2Proof.Machine

namespace Sys2Proof.Proofs
open Sys2Proof Sys2Proof.Machine Sys2Proof.Claims

/-- Settles O42: the lease, the guard and the source come before whatever the trigger does, by the class of the trigger. -/
theorem triggerGates : Obligations.TriggerGates := by
  unfold Obligations.TriggerGates
  refine ⟨scalarGate_own, scalarGate_storing, scalarGate_leased, fun e he g a s hl hu => ?_,
    fun g s hl hg => ⟨ownWide_pop_off hl hg, fun e he hu => (vectorTriggerOf_leasedVector e he).pop_off hl hg hu⟩⟩
  rcases List.mem_append.mp he with he | he
  · exact (triggerOf_leasedScalar e he).not_owned g a hl hu
  · exact (vectorTriggerOf_leasedVector e he).triggerOf.not_owned g a hl hu

end Sys2Proof.Proofs
end


section
/-! Control registers, invalidation and the trace (O23). -/
-- One proof after the other: elaborated side by side, the whole text's proofs need more memory than the check has.
set_option Elab.async false
namespace Sys2Proof.Machine
open Sys2Proof.Claims

/-! ### Bits of the control registers' words (R79) -/

theorem getLsbD_maskBits {hi lo : Nat} (h : lo ≤ hi + 1) (b : Nat) :
    (maskBits hi lo).getLsbD b = decide (b < 64 ∧ lo ≤ b ∧ b ≤ hi) := by
  have hm : 2 ^ (hi + 1) - 2 ^ lo = (2 ^ (hi + 1 - lo) - 1) * 2 ^ lo := by
    rw [Nat.sub_mul, ← Nat.pow_add, Nat.sub_add_cancel h, Nat.one_mul]
  rw [maskBits, hm, BitVec.getLsbD_ofNat, Nat.testBit_mul_two_pow, Nat.testBit_two_pow_sub_one]
  simp only [← Bool.decide_and]
  congr 1
  simp only [eq_iff_iff]
  omega

theorem getLsbD_mergeMask (m o v : Word) {b : Nat} (hb : b < 64) :
    (mergeMask m o v).getLsbD b = if m.getLsbD b then v.getLsbD b else o.getLsbD b := by
  cases h : m.getLsbD b <;> simp [mergeMask, hb, h, -BitVec.getLsbD_eq_getElem]

/-- Bit `i` of a list of bits read as a number. -/
theorem testBit_bitsNat (bs : List Bool) (i : Nat) : (bitsNat bs).testBit i = bs.getD i false := by
  induction bs generalizing i with
  | nil => simp [bitsNat]
  | cons b bs ih =>
    have h : bitsNat (b :: bs) = Nat.bit b (bitsNat bs) := by cases b <;> simp [bitsNat, Nat.bit]; omega
    cases i with
    | zero => simp [h]
    | succ i => simp [h, ih, Nat.testBit_bit_succ]

theorem bitsNat_lt (bs : List Bool) : bitsNat bs < 2 ^ bs.length := by
  induction bs with
  | nil => simp [bitsNat]
  | cons b bs ih => cases b <;> simp [bitsNat, Nat.pow_succ] <;> omega

/-- A number whose base-4 digits are given, digit by digit. -/
theorem foldl_digits (d : Nat → Nat) (hd : ∀ b, d b < 4) (n : Nat) :
    (List.range n).foldl (fun a b => a + d b * 4 ^ b) 0 < 4 ^ n ∧
    ∀ b < n, (List.range n).foldl (fun a b => a + d b * 4 ^ b) 0 / 4 ^ b % 4 = d b := by
  induction n with
  | zero => simp
  | succ n ih =>
    obtain ⟨hlt, hdig⟩ := ih
    rw [List.range_succ, List.foldl_append, List.foldl_cons, List.foldl_nil]
    generalize (List.range n).foldl (fun a b => a + d b * 4 ^ b) 0 = a at hlt hdig
    have hn := hd n
    refine ⟨by rw [Nat.pow_succ]; nlinarith, fun b hb => ?_⟩
    rcases Nat.lt_succ_iff_lt_or_eq.mp hb with h | rfl
    · have : d n * 4 ^ n = 4 ^ b * (4 * (d n * 4 ^ (n - b - 1))) := by
        rw [show n = b + (1 + (n - b - 1)) by omega, Nat.pow_add, Nat.pow_add]
        simp
        ring
      rw [this, Nat.add_mul_div_left _ _ (Nat.pow_pos (by decide)), Nat.add_mul_mod_self_left, hdig b h]
    · rw [Nat.add_mul_div_right _ _ (Nat.pow_pos (by decide)), Nat.div_eq_of_lt hlt, Nat.zero_add, Nat.mod_eq_of_lt hn]

/-! ### What the control registers read as (R16, R79, R190, R266) -/

theorem Core.heldMask_lt (k : Core) (q : Nat) : k.heldMask q < 128 := by
  simpa [Core.heldMask] using bitsNat_lt ((List.range 7).map fun b => k.holds q b)

theorem Core.testBit_heldMask (k : Core) (q : Nat) {b : Nat} (hb : b < 7) : (k.heldMask q).testBit b = k.holds q b := by
  simp [Core.heldMask, testBit_bitsNat, hb]

theorem boolBit_eq (b : Bool) (i : Nat) : boolBit b i = b.toNat * 2 ^ i := by cases b <;> simp [boolBit]

/-- SQS is a sum of fields that do not overlap (R266). -/
theorem sqsValue_toNat (k : Core) (q : Nat) (h : (k.seq q).loops.length ≤ 6) :
    (sqsValue k q).toNat = (k.seq q).cause.code.toNat + (k.seq q).rslot.toNat * 64 + (k.seq q).handler.toNat * 2 ^ 8 +
      (k.seq q).step.toNat * 2 ^ 9 + (k.seq q).loops.length * 2 ^ 10 + (k.seq q).defer.toNat * 2 ^ 13 +
      (k.seq q).clrHead.toNat * 2 ^ 14 + k.heldMask q * 2 ^ 15 + (k.seq q).fpage.toNat * 2 ^ 24 := by
  have hc := (k.seq q).cause.code.isLt
  have hr := (k.seq q).rslot.isLt
  have hp := (k.seq q).fpage.isLt
  have hm := k.heldMask_lt q
  have hh := (k.seq q).handler.toNat_lt
  have hs := (k.seq q).step.toNat_lt
  have hd := (k.seq q).defer.toNat_lt
  have hl := (k.seq q).clrHead.toNat_lt
  simp only [sqsValue, boolBit_eq, BitVec.toNat_ofNat]
  rw [Nat.mod_eq_of_lt (by omega)]

theorem getLsbD_of_toNat {w : Word} {i : Nat} {p : Bool} (h : w.toNat / 2 ^ i % 2 = p.toNat) : w.getLsbD i = p := by
  rw [BitVec.getLsbD, Nat.testBit_eq_decide_div_mod_eq, h]
  cases p <;> simp

/-- A field at the low end of what is left of a word, and what is left beyond it. -/
theorem peel_field {w k n a u : Nat} (h : w / 2 ^ k = a + 2 ^ n * u) (ha : a < 2 ^ n) : w / 2 ^ k % 2 ^ n = a ∧ w / 2 ^ (k + n) = u := by
  rw [Nat.pow_add, ← Nat.div_div_eq_div_mul, h, Nat.add_mul_mod_self_left, Nat.mod_eq_of_lt ha, Nat.add_mul_div_left _ _ (Nat.two_pow_pos n),
    Nat.div_eq_of_lt ha, Nat.zero_add]
  exact ⟨rfl, rfl⟩

theorem extractLsb_of_toNat {w : Word} {k n : Nat} {a : BitVec n} (h : w.toNat / 2 ^ k % 2 ^ n = a.toNat) : w.extractLsb' k n = a :=
  BitVec.eq_of_toNat_eq (by rw [BitVec.extractLsb'_toNat, Nat.shiftRight_eq_div_pow, h])

/-- The fields of a word that is laid out as SQS is (R266). -/
theorem sqs_fields {w : Word} {c : BitVec 6} {r : BitVec 2} {h s d e : Bool} {l m : Nat} {p : BitVec 40}
    (hn : w.toNat = c.toNat + r.toNat * 64 + h.toNat * 2 ^ 8 + s.toNat * 2 ^ 9 + l * 2 ^ 10 + d.toNat * 2 ^ 13 + e.toNat * 2 ^ 14 +
      m * 2 ^ 15 + p.toNat * 2 ^ 24) (hl : l ≤ 6) (hm : m < 128) :
    w.extractLsb' 0 6 = c ∧ w.extractLsb' 6 2 = r ∧ w.getLsbD 8 = h ∧ w.getLsbD 9 = s ∧ (w.extractLsb' 10 3).toNat = l ∧
    w.getLsbD 13 = d ∧ w.getLsbD 14 = e ∧ (∀ b < 7, w.getLsbD (15 + b) = m.testBit b) ∧ w.extractLsb' 22 2 = 0 ∧
    w.extractLsb' 24 40 = p := by
  have hall : w.toNat / 2 ^ 0 = c.toNat + 2 ^ 6 * (r.toNat + 2 ^ 2 * (h.toNat + 2 ^ 1 * (s.toNat + 2 ^ 1 * (l + 2 ^ 3 * (d.toNat + 2 ^ 1 *
      (e.toNat + 2 ^ 1 * (m + 2 ^ 7 * (0 + 2 ^ 2 * p.toNat)))))))) := by
    rw [hn, Nat.pow_zero, Nat.div_one]
    ring
  obtain ⟨hc, h6⟩ := peel_field hall c.isLt
  obtain ⟨hr, h8⟩ := peel_field h6 r.isLt
  obtain ⟨hh, h9⟩ := peel_field h8 h.toNat_lt
  obtain ⟨hs, h10⟩ := peel_field h9 s.toNat_lt
  obtain ⟨hloops, h13⟩ := peel_field h10 (show l < 2 ^ 3 by omega)
  obtain ⟨hd, h14⟩ := peel_field h13 d.toNat_lt
  obtain ⟨he, h15⟩ := peel_field h14 e.toNat_lt
  obtain ⟨-, h22⟩ := peel_field h15 hm
  obtain ⟨hnone, h24⟩ := peel_field h22 (show 0 < 2 ^ 2 by decide)
  refine ⟨extractLsb_of_toNat hc, extractLsb_of_toNat hr, getLsbD_of_toNat hh, getLsbD_of_toNat hs, ?loops, getLsbD_of_toNat hd,
    getLsbD_of_toNat he, fun b hb => ?held, extractLsb_of_toNat hnone, extractLsb_of_toNat ?page⟩
  case loops => rw [BitVec.extractLsb'_toNat, Nat.shiftRight_eq_div_pow, hloops]
  case held =>
    have h7 : 2 ^ 7 = 2 ^ b * 2 * 2 ^ (6 - b) := by
      rw [Nat.mul_assoc, ← Nat.pow_succ', ← Nat.pow_add]
      congr 1
      omega
    rw [BitVec.getLsbD, Nat.testBit_eq_decide_div_mod_eq, Nat.testBit_eq_decide_div_mod_eq, Nat.pow_add, ← Nat.div_div_eq_div_mul, h15, h7,
      Nat.mul_assoc, Nat.mul_assoc, Nat.add_mul_div_left _ _ (Nat.two_pow_pos b), Nat.add_mul_mod_self_left]
  case page => rw [h24, Nat.mod_eq_of_lt p.isLt]

/-- The bits of LEASE (R16). -/
theorem getLsbD_leaseValue (k : Core) {b : Nat} (hb : b < 64) :
    (leaseValue k).getLsbD b = if b < 8 then k.hold.getLsbD b && k.claim.getLsbD b else k.claim.getLsbD (b - 8) := by
  have hlt : (k.hold &&& k.claim).toNat < 2 ^ 8 := by omega
  rw [leaseValue, BitVec.getLsbD_ofNat, Nat.add_comm, Nat.mul_comm, show (256 : Nat) = 2 ^ 8 from rfl, Nat.testBit_two_pow_mul_add _ hlt]
  simp only [hb, decide_true, Bool.true_and, ← BitVec.testBit_toNat, BitVec.toNat_and, Nat.testBit_and]

/-- The role of each bank, in BANKROLE (R190). -/
theorem bankRoleValue_role (k : Core) {b : Nat} (hb : b < 32) : ((bankRoleValue k).extractLsb' (2 * b) 2).toNat = k.role b := by
  have hr : ∀ b, k.role b < 4 := fun b => by unfold Core.role; split <;> [decide; (split <;> decide)]
  obtain ⟨hlt, hdig⟩ := foldl_digits k.role hr 32
  have h := hdig b hb
  rw [bankRoleValue, BitVec.extractLsb'_toNat, BitVec.toNat_ofNat, Nat.mod_eq_of_lt (b := 2 ^ 64) hlt,
    Nat.shiftRight_eq_div_pow, Nat.pow_mul]
  exact h

theorem cregReads (s : State) (c q : Nat) : CregReads s c q := by
  refine ⟨fun h => ?sqs, rfl, rfl, rfl, rfl, rfl, fun b hb => ⟨fun hc => ?hold, ?claim⟩, fun b hb h => ?none, fun b hb => ?role,
    rfl, rfl, rfl⟩
  case sqs =>
    obtain ⟨h1, h2, h3, h4, h5, h6, h7, h8, h9, h10⟩ := sqs_fields (sqsValue_toNat _ q h) h ((s.core c).heldMask_lt q)
    exact ⟨h1, h2, h3, h4, h5, h6, h7, fun b hb => (h8 b hb).trans ((s.core c).testBit_heldMask q hb), h9, h10⟩
  case hold => exact (getLsbD_leaseValue _ (by omega)).trans (by rw [if_pos (by omega), hc, Bool.and_true])
  case claim =>
    refine (getLsbD_leaseValue _ (by omega)).trans ?_
    rw [if_neg (by omega)]
    congr 1
    omega
  case none =>
    refine (getLsbD_leaseValue _ hb).trans ?_
    split
    · rw [BitVec.getLsbD_of_ge _ b (by omega), Bool.false_and]
    · exact BitVec.getLsbD_of_ge _ _ (by omega)
  case role =>
    refine (bankRoleValue_role _ hb).trans ?_
    unfold Core.role
    congr 2
    simp only [eq_iff_iff]
    omega

/-! ### What a write of a control register leaves (R80, R129, R265, R266, R275) -/

theorem fpctlWrite_bit (o v : Word) {b : Nat} (hb : b < 64) : (fpctlWrite o v).getLsbD b =
    if (b < 3 ∧ v.toNat % 8 < 5) ∨ (4 ≤ b ∧ b ≤ 10) then v.getLsbD b else o.getLsbD b := by
  have hm : bits v.toNat 2 0 = v.toNat % 8 := by simp [bits]
  unfold fpctlWrite
  simp only [hm]
  by_cases h : v.toNat % 8 < 5
  · simp only [h, if_true, getLsbD_mergeMask _ _ _ hb, getLsbD_maskBits (show 0 ≤ 2 + 1 by decide), getLsbD_maskBits (show 4 ≤ 10 + 1 by decide)]
    by_cases h1 : b < 3 <;> by_cases h2 : 4 ≤ b ∧ b ≤ 10 <;> simp [h1, h2, hb] <;> omega
  · simp only [h, if_false, getLsbD_mergeMask _ _ _ hb, getLsbD_maskBits (show 4 ≤ 10 + 1 by decide)]
    simp [hb]

@[simp] theorem State.seq_tracePut (s : State) (c q off w d r : Nat) : (s.tracePut c q off w).seq d r = s.seq d r :=
  State.seq_of_cores (State.tracePut_cores ..) d r

theorem State.traceStart_tracectl (s : State) (c q : Nat) :
    ((s.traceStart c q).seq c q).tracectl = (s.seq c q).tracectl ||| 1 := by
  simp [State.traceStart]

/-- TRACECTL, whichever way its EN bit goes (R275). -/
theorem writeCreg_tracectl (s : State) (c q : Nat) (v : Word) :
    ((s.writeCreg c q 0x030 v).seq c q).tracectl = v &&& (maskBits 55 8 ||| 5 ||| (if s.featAcc.getLsbD 5 then 2 else 0)) := by
  simp only [State.writeCreg]
  split
  next h =>
    have h0 : v.getLsbD 0 = true := (Bool.and_eq_true_iff.mp h).1
    rw [State.traceStart_tracectl, State.seq_setSeq]
    ext i hi
    by_cases hi0 : i = 0
    · subst hi0
      simp at h0
      simp [h0]
    · simp [hi0]
  next => split <;> simp

theorem cregWrites (s : State) (c q : Nat) (v : Word) : CregWrites s c q v := by
  have low : ∀ hi lo, lo ≤ hi + 1 → ∀ b < 64, (v &&& maskBits hi lo).getLsbD b = (decide (lo ≤ b ∧ b ≤ hi) && v.getLsbD b) :=
    fun hi lo h b hb => by simp only [BitVec.getLsbD_and, getLsbD_maskBits h, hb, true_and, Bool.and_comm]
  refine ⟨fun h => ⟨?_, ?_⟩, fun h => ⟨?sqs, ?xpc, fun b hb => ?xpcBits⟩, ⟨?fpctl, fun b hb => ?fpctlBits⟩,
    ⟨?trapvec, fun b hb => ?trapvecBits⟩, ⟨?remtime, fun b hb => ?remtimeBits⟩, fun b hb => ?tracectl, fun a ha => ?fixed, rfl, rfl⟩
  case refine_1 | refine_2 => simp [State.applyOne, State.writeCreg, h]
  case sqs =>
    simp only [State.applyOne, State.writeCreg, h, if_true, State.seq_setSeq]
    congr 1
  case xpc => simp [State.applyOne, State.writeCreg, h]
  case xpcBits =>
    simp only [State.applyOne, State.writeCreg, h, if_true, State.seq_setSeq]
    exact low 55 4 (by decide) b hb
  case fpctl | trapvec | remtime => simp [State.applyOne, State.writeCreg]
  case fpctlBits =>
    simp only [State.applyOne, State.writeCreg, State.seq_setSeq]
    exact fpctlWrite_bit _ _ hb
  case trapvecBits =>
    simp only [State.applyOne, State.writeCreg, State.seq_setSeq]
    exact low 55 4 (by decide) b hb
  case remtimeBits =>
    simp only [State.applyOne, State.writeCreg, State.seq_setSeq]
    exact (low 31 0 (by decide) b hb).trans (by simp [Nat.lt_succ_iff])
  case tracectl =>
    refine (congrArg (·.getLsbD b) (writeCreg_tracectl s c q v)).trans ?_
    simp only [BitVec.getLsbD_and, BitVec.getLsbD_or, getLsbD_maskBits (show 8 ≤ 55 + 1 by decide)]
    have h5 : (5 : Word).getLsbD b = decide (b = 0 ∨ b = 2) := (by decide : ∀ b < 64, (5 : Word).getLsbD b = decide (b = 0 ∨ b = 2)) b hb
    have h2 : (if s.featAcc.getLsbD 5 then (2 : Word) else 0).getLsbD b = (b == 1 && s.featAcc.getLsbD 5) := by
      have h1 := (by decide : ∀ b < 64, (2 : Word).getLsbD b = (b == 1)) b hb
      cases s.featAcc.getLsbD 5
      · simp
      · simpa using h1
    rw [h5, h2, Bool.and_comm]
    congr 2
    simp only [hb, true_and, Bool.decide_and, Bool.decide_or]
    rw [Bool.or_comm, Bool.or_assoc]
  case fixed =>
    simp only [List.mem_cons, List.not_mem_nil, or_false] at ha
    rcases ha with rfl | rfl | rfl <;> rfl

/-! ### The end of the cycle (R67, R80, R131) -/

theorem State.writeMem_clock (s : State) (pa : Nat) (bs : List (Option Byte)) : (s.writeMem pa bs).clock = s.clock := by
  induction bs generalizing s pa with
  | nil => rfl
  | cons b bs ih => cases b <;> simp [State.writeMem, ih]

@[simp] theorem State.dropSigs_clock (s : State) (pa : Nat) (bs : List (Option Byte)) : (s.dropSigs pa bs).clock = s.clock := by
  unfold State.dropSigs
  dsimp only
  split <;> simp [State.setSigEntries]

@[simp] theorem State.mergeDigest_clock (s : State) (pa : Nat) : (s.mergeDigest pa).clock = s.clock := by
  unfold State.mergeDigest
  split <;> simp

@[simp] theorem State.spoilRecords_clock (s : State) (pa : Nat) (bs : List (Option Byte)) : (s.spoilRecords pa bs).clock = s.clock :=
  foldl_same State.clock _ (by intros; simp) _ _

@[simp] theorem State.homeUse_clock (s : State) (pa : Nat) : (s.homeUse pa).clock = s.clock := by
  unfold State.homeUse
  split <;> simp

@[simp] theorem State.mergeHome_clock (s : State) (pa : Nat) (bs : List (Option Byte)) : (s.mergeHome pa bs).clock = s.clock := by
  unfold State.mergeHome
  split <;> simp [State.writeMem_clock]

@[simp] theorem State.mergeRun_clock (s : State) (pa : Nat) (bs : List Byte) : (s.mergeRun pa bs).clock = s.clock :=
  foldl_same State.clock _ (by intros; simp) _ _

@[simp] theorem State.tracePut_clock (s : State) (c q off w : Nat) : (s.tracePut c q off w).clock = s.clock := by
  unfold State.tracePut
  dsimp only
  split <;> simp

@[simp] theorem State.tracePuts_clock (s : State) (c q off : Nat) (ws : List Nat) : (s.tracePuts c q off ws).clock = s.clock := by
  unfold State.tracePuts
  simpa using foldl_same State.clock _ (by intros; simp) _ _

@[simp] theorem State.traceRaw_clock (s : State) (c q : Nat) (ws : List Nat) : (s.traceRaw c q ws).clock = s.clock := by
  unfold State.traceRaw
  dsimp only
  (repeat' split) <;> simp

@[simp] theorem State.traceFlush_clock (s : State) (c q : Nat) : (s.traceFlush c q).clock = s.clock := by
  unfold State.traceFlush
  dsimp only
  split <;> simp

theorem State.writeCreg_clock (s : State) (c q a : Nat) (v : Word) : (s.writeCreg c q a v).clock = s.clock := by
  unfold State.writeCreg State.writeRemways State.writeDigbase State.traceStart State.traceStop
  dsimp only
  (repeat' split) <;> simp

theorem State.applyOne_clock (s : State) (c q : Nat) (e : Late) : (s.applyOne c q e).clock = s.clock := by
  cases e with
  | creg a v => exact State.writeCreg_clock ..
  | drop all va => rfl

theorem finishCycle_leaves (s : State) (c q : Nat) (n : Word) :
    let x := s.seq c q
    let u := x.late.foldl (fun s e => s.applyOne c q e) s
    let (t, y, z) := (s.finishCycle c q n, (s.finishCycle c q n).seq c q, u.seq c q)
    y.late = [] ∧ y.lateFlags = 0 ∧ y.pc = n ∧ y.fpctl = orFlags (orFlags z.fpctl x.lateFlags) (z.flagsOf s.clock) ∧
      y.trapvec = z.trapvec ∧ y.xpc = z.xpc ∧ y.remtime = z.remtime ∧ y.tracectl = z.tracectl ∧ y.cause = z.cause ∧ y.rslot = z.rslot ∧
      y.step = z.step ∧ y.clrHead = z.clrHead ∧ t.digbase = u.digbase ∧ t.dies = u.dies := by
  intro x u
  have hu : u.clock = s.clock := foldl_same State.clock _ (fun s e => s.applyOne_clock c q e) _ _
  have ht : s.finishCycle c q n = (u.modSeq c q fun y => { y with
      fpctl := orFlags (orFlags y.fpctl x.lateFlags) (y.flagsOf u.clock), late := [], lateFlags := 0 }).modSeq c q fun x =>
    let x := (x.nextCycle n).presentAll
    if x.stepping && !x.handler then { x with stepping := false, pending := x.pending ++ [.singleStep] } else x := rfl
  rw [hu] at ht
  dsimp only
  rw [ht]
  simp only [State.seq_modSeq, Seq.nextCycle, Seq.presentAll]
  refine ⟨?_, ?_, ?_, ?_, ?_, ?_, ?_, ?_, ?_, ?_, ?_, ?_, rfl, rfl⟩ <;> split <;> split <;> rfl

/-! ### Translations dropped (R81, R204) -/

theorem applyOne_drop_leaves (c q va : Nat) (all : Bool) (s : State) :
    let x := s.seq c q
    let y := (s.applyOne c q (.drop all va)).seq c q
    y.tlb = x.tlb.filter (fun p => !(p.asid == x.asid && (all || p.covers x.asid va))) ∧
    (∀ e ∈ y.streams, ∀ p, e.2.page = some p → (p.asid == x.asid && (all || p.covers x.asid va)) = false) ∧
    y.loads = x.loads ∧ y.handlerLoads = x.handlerLoads ∧ y.stores = x.stores ∧ y.results = x.results := by
  intro x y
  have hy : y = x.dropTranslations x.asid all va := State.seq_setSeq ..
  rw [hy]
  refine ⟨rfl, fun e he p hp => ?_, rfl, rfl, rfl, rfl⟩
  obtain ⟨d, -, rfl⟩ := List.mem_map.mp he
  dsimp only at hp
  split at hp
  next r hr =>
    split at hp
    next => cases hp
    next hd =>
      rw [hr] at hp
      cases hp
      exact Bool.not_eq_true _ ▸ hd
  next hr => cases hr.symm.trans hp

/-! ### The cr unit's operations (R80 to R83) -/

section
variable {s s' : State} {g : BitVec 7} {a : BitVec 12} {v : Value} (h : Triggers s g a v s') {F : Word → Sem}
include h

theorem trigS_of_triggers : trigS g a F s = F v.toS s' := trigS_on h.2.1 h.2.2

theorem live_of_triggers : s'.cur.live = true := by
  rw [readSrc_cur h.2.2]
  exact h.1

theorem runSlot_triggers_ok {t : State} (hF : F v.toS s' = .ok t) (ht : t.cur = s'.cur) :
    runSlot (trigS g a F) s = .next t.slotDone :=
  runSlot_ok h.1 ((trigS_of_triggers h).trans hF) (ht ▸ live_of_triggers h)

theorem runSlot_triggers_trap {c : Cause} (hF : F v.toS s' = .plain c s') : runSlot (trigS g a F) s = trapAt s s' c 0 :=
  runSlot_trap h.1 ((trigS_of_triggers h).trans hF)

theorem runSlot_triggers_wait {w : Hold} {t : State} (hF : F v.toS s' = .wait w t) :
    runSlot (trigS g a F) s = waitAt s t w :=
  runSlot_wait h.1 ((trigS_of_triggers h).trans hF)

end

theorem cregCheck_reserved {t : Word} {s : State} {f : Nat → SlotRes} (h : cregListed t.toNat = false) :
    cregCheck t s f = .plain .reservedPort s := by
  rw [cregCheck, if_pos (by simp [h])]

theorem cregCheck_privilege {t : Word} {s : State} {f : Nat → SlotRes} (hc : t.toNat = 0x100 ∨ t.toNat = 0x101) (ha : s.me.asid ≠ 0) :
    cregCheck t s f = .plain .privilege s := by
  have hl : (decide (0x1000 ≤ t.toNat) || !cregListed t.toNat) = false := by rcases hc with h | h <;> simp [h, cregListed]
  rw [cregCheck, hl, if_neg Bool.false_ne_true, if_pos (by simp [hc, ha])]

theorem cregCheck_ok {t : Word} {s : State} {f : Nat → SlotRes} (h : cregListed t.toNat = true)
    (ha : t.toNat = 0x100 ∨ t.toNat = 0x101 → s.me.asid = 0) : cregCheck t s f = f t.toNat := by
  have hlt : t.toNat < 0x1000 := by
    simp only [cregListed, Bool.or_eq_true, beq_iff_eq] at h
    omega
  rw [cregCheck, if_neg (by simp [h, hlt]), if_neg]
  simp only [Bool.and_eq_true, Bool.or_eq_true, decide_eq_true_eq, bne_iff_ne]
  exact fun ⟨hc, hn⟩ => hn (ha hc)

theorem cregListed_iff (a : Nat) : cregListed a = true ↔
    a ∈ [0x000, 0x001, 0x002, 0x003, 0x004, 0x010, 0x020, 0x030, 0x040, 0x100, 0x101] := by
  simp [cregListed, or_assoc]

theorem State.mem_inSpace (s : State) (asid : Nat) (u : Nat × Nat) :
    u ∈ s.inSpace asid ↔ u.1 ∈ s.coreIds ∧ u.2 < 2 ∧ (s.seq u.1 u.2).asid = asid := by
  obtain ⟨c, q⟩ := u
  simp only [State.inSpace, List.mem_filter, List.mem_flatten, List.mem_map, beq_iff_eq]
  constructor
  · rintro ⟨⟨l, ⟨d, hd, rfl⟩, hm⟩, ha⟩
    simp only [List.mem_cons, Prod.mk.injEq, List.not_mem_nil, or_false] at hm
    rcases hm with ⟨rfl, rfl⟩ | ⟨rfl, rfl⟩ <;> exact ⟨hd, by omega, ha⟩
  · rintro ⟨hc, hq, ha⟩
    refine ⟨⟨_, ⟨c, hc, rfl⟩, ?_⟩, ha⟩
    obtain rfl | rfl : q = 0 ∨ q = 1 := by omega
    · simp
    · simp

theorem State.mem_rangeLines (s : State) (c q va n w : Nat) : w ∈ s.rangeLines c q va n ↔ (∃ l ∈ (s.core c).cache, l.line = w) ∧
    (4194304 < min (va + n) (2 ^ 56) - va ∨ ∃ p ∈ cinvPieces va n, ∃ x, (s.seq c q).tlbHit p.1 = some x ∧
      s.inMemory (x.phys p.1) = true ∧ w ∈ unitsOf 256 (x.phys p.1) p.2) := by
  have hp : ∀ p, w ∈ s.pieceLines (s.seq c q) p ↔ ∃ x, (s.seq c q).tlbHit p.1 = some x ∧ s.inMemory (x.phys p.1) = true ∧
      w ∈ unitsOf 256 (x.phys p.1) p.2 := fun p => by
    unfold State.pieceLines
    cases hx : (s.seq c q).tlbHit p.1 with
    | none => simp
    | some x => by_cases hm : s.inMemory (x.phys p.1) = true <;> simp [hm]
  simp only [State.rangeLines]
  split
  next h => simp only [h, true_or, and_true, List.mem_map]
  next h => simp only [h, false_or, List.mem_filter, List.mem_map, List.contains_iff_mem, List.mem_flatten, exists_exists_and_eq_and, hp]

theorem Seq.allPerformed_iff (x : Seq) :
    x.allPerformed = true ↔ x.stores = [] ∧ ∀ e ∈ x.loads ++ x.handlerLoads, e.performed = true := by
  simp [Seq.allPerformed, Seq.allLoads, or_imp, forall_and]

/-- `cr.cinv` over a range, once everything triggered before it is performed (R82). -/
theorem invalidateRange_cases (va n : Nat) (s : State) :
    let lines := s.rangeLines s.cur.core s.cur.q va n
    let dirty := lines.filter s.myCore.lineDirty
    if ∃ p ∈ cinvPieces va n, s.me.tlbHit p.1 = none ∧ s.me.walkFailed s.me.asid p.1 = false then
      ∃ p ∈ cinvPieces va n, (s.me.tlbHit p.1 = none ∧ s.me.walkFailed s.me.asid p.1 = false) ∧
        invalidateRange va n s = .wait (.walk s.me.asid (p.1 / 65536 * 65536)) s
    else if dirty = [] then invalidateRange va n s =
      .ok ((s.modMyCore fun k => { k with cache := k.cache.filter fun l => !lines.contains l.line }).pushCr 0)
    else invalidateRange va n s = .wait (.cinv dirty) s := by
  intro lines dirty
  have hp : ∀ p : Nat × Nat, ((s.me.tlbHit p.1).isNone && !s.me.walkFailed s.me.asid p.1) = true ↔
      s.me.tlbHit p.1 = none ∧ s.me.walkFailed s.me.asid p.1 = false := by simp
  simp only [invalidateRange]
  cases hf : (cinvPieces va n).find? fun g => (s.me.tlbHit g.1).isNone && !s.me.walkFailed s.me.asid g.1 with
  | some p =>
    have hm := List.mem_of_find?_eq_some hf
    have hq := (hp p).mp (by simpa using List.find?_some hf)
    rw [if_pos ⟨p, hm, hq⟩]
    exact ⟨p, hm, hq, rfl⟩
  | none =>
    rw [if_neg fun ⟨p, hm, hq⟩ => List.find?_eq_none.mp hf p hm ((hp p).mpr hq)]
    by_cases hd : dirty = []
    · rw [if_pos hd]
      exact if_neg (by simp [dirty, lines] at hd ⊢; exact hd)
    · rw [if_neg hd]
      exact if_pos (by simpa [dirty, lines] using hd)

/-- What the operations of cr do with a value that their source delivers (R80 to R83). -/
theorem crTriggers {g : BitVec 7} {a : BitVec 12} {s s' : State} {v : Value} (h : Triggers s g a v s') :
    let c := v.toS.toNat
    (c ∈ [0x000, 0x001, 0x002, 0x003, 0x004, 0x010, 0x020, 0x030, 0x040, 0x100, 0x101] →
      (c = 0x100 ∨ c = 0x101 → s'.me.asid = 0) →
      exec (.crRd g a) s = .next (s'.pushRes ResPorts.onCrr 2 (.s (s'.creg s'.cur.core s'.cur.q c))).slotDone ∧
      exec (.crWr g a) s = .next ((s'.pushRes ResPorts.onCrr 2 (.s (s'.creg s'.cur.core s'.cur.q c))).modMe
        fun x => { x with late := x.late ++ [.creg c x.ports.cro] }).slotDone) ∧
    (c ∉ [0x000, 0x001, 0x002, 0x003, 0x004, 0x010, 0x020, 0x030, 0x040, 0x100, 0x101] →
      exec (.crRd g a) s = trapAt s s' .reservedPort 0 ∧ exec (.crWr g a) s = trapAt s s' .reservedPort 0) ∧
    (c = 0x100 ∨ c = 0x101 → s'.me.asid ≠ 0 →
      exec (.crRd g a) s = trapAt s s' .privilege 0 ∧ exec (.crWr g a) s = trapAt s s' .privilege 0) := by
  intro c
  refine ⟨fun hc ha => ?_, fun hc => ?_, fun hc ha => ?_⟩
  · have hl := (cregListed_iff c).mpr hc
    exact ⟨runSlot_triggers_ok h (cregCheck_ok hl ha) rfl, runSlot_triggers_ok h (cregCheck_ok hl ha) rfl⟩
  · have hl := Bool.not_eq_true _ ▸ mt (cregListed_iff c).mp hc
    exact ⟨runSlot_triggers_trap h (cregCheck_reserved hl), runSlot_triggers_trap h (cregCheck_reserved hl)⟩
  · exact ⟨runSlot_triggers_trap h (cregCheck_privilege hc ha), runSlot_triggers_trap h (cregCheck_privilege hc ha)⟩

/-- `cr.cinv` with a range (R82). -/
theorem crCinv_cases {g : BitVec 7} {a : BitVec 12} {s s' : State} {v : Value} (h : Triggers s g a v s') (ho : s'.me.ports.cro ≠ 0) :
    let c := v.toS.toNat
    let n := s'.me.ports.cro.toNat
    let lines := s'.rangeLines s'.cur.core s'.cur.q c n
    let dirty := lines.filter s'.myCore.lineDirty
    if s'.me.stores = [] ∧ ∀ e ∈ s'.me.loads ++ s'.me.handlerLoads, e.performed = true then
      if ∃ p ∈ cinvPieces c n, s'.me.tlbHit p.1 = none ∧ s'.me.walkFailed s'.me.asid p.1 = false then
        ∃ p ∈ cinvPieces c n, s'.me.tlbHit p.1 = none ∧ s'.me.walkFailed s'.me.asid p.1 = false ∧
          exec (.crCinv g a) s = waitAt s s' (.walk s'.me.asid (p.1 / 65536 * 65536))
      else if dirty = [] then exec (.crCinv g a) s =
        .next ((s'.modMyCore fun k => { k with cache := k.cache.filter fun l => !lines.contains l.line }).pushRes ResPorts.onCrr 2 (.s 0)).slotDone
      else exec (.crCinv g a) s = waitAt s s' (.cinv dirty)
    else exec (.crCinv g a) s = waitAt s s' (.cinv []) := by
  have hcases := invalidateRange_cases v.toS.toNat s'.me.ports.cro.toNat s'
  dsimp only at hcases ⊢
  simp only [← Seq.allPerformed_iff]
  by_cases hp : s'.me.allPerformed = true
  · have hn : ¬ (!s'.me.allPerformed) = true := by simp [hp]
    rw [if_pos hp]
    by_cases hmiss : ∃ p ∈ cinvPieces v.toS.toNat s'.me.ports.cro.toNat,
        s'.me.tlbHit p.1 = none ∧ s'.me.walkFailed s'.me.asid p.1 = false
    · rw [if_pos hmiss] at hcases ⊢
      obtain ⟨p, hm, ⟨hhit, hwalk⟩, hw⟩ := hcases
      exact ⟨p, hm, hhit, hwalk, runSlot_triggers_wait h ((if_neg ho).trans ((if_neg hn).trans hw))⟩
    · rw [if_neg hmiss] at hcases ⊢
      split at hcases
      next hd => exact (if_pos hd).mpr (runSlot_triggers_ok h ((if_neg ho).trans ((if_neg hn).trans hcases)) rfl)
      next hd => exact (if_neg hd).mpr (runSlot_triggers_wait h ((if_neg ho).trans ((if_neg hn).trans hcases)))
  · rw [if_neg hp]
    exact runSlot_triggers_wait h ((if_neg ho).trans (if_pos (by simp [hp])))

theorem traceOp_cur (t : Word) (s : State) : (traceOp t s).cur = s.cur := by
  unfold traceOp
  split
  · exact State.traceRec_cur ..
  · simp [State.traceStart]
  · simp [State.traceStop]
  · rfl

/-- `cr.trace` (R83). -/
theorem crTrace_cases {g : BitVec 7} {a : BitVec 12} {s s' : State} {v : Value} (h : Triggers s g a v s') :
    exec (.crTrace g a) s = .next ((match v.toS.toNat % 4 with
      | 0 => s'.traceMarker s'.cur.core s'.cur.q (s'.me.ports.cro.toNat % 2 ^ 32)
      | 1 => s'.traceStart s'.cur.core s'.cur.q
      | 2 => s'.traceStop s'.cur.core s'.cur.q
      | _ => s').pushRes ResPorts.onCrr 2 (.s 0)).slotDone := by
  have he : exec (.crTrace g a) s = .next ((traceOp v.toS s').pushCr 0).slotDone :=
    runSlot_triggers_ok h rfl ((State.pushRes_cur ..).trans (traceOp_cur v.toS s'))
  have hb : bits v.toS.toNat 1 0 = v.toS.toNat % 4 := by simp [bits]
  rw [he, traceOp, hb, State.pushCr] <;> rfl

end Sys2Proof.Machine

namespace Sys2Proof.Proofs
open Sys2Proof Sys2Proof.Machine Sys2Proof.Claims

/-- Settles O23: the operations slot by slot, the registers' words bit by bit, and the end of the cycle. -/
theorem controlRegisterResults : Obligations.ControlRegisterResults := by
  unfold Obligations.ControlRegisterResults
  refine ⟨fun g a s s' v h => ?_, fun c q s => ⟨cregReads s c q, cregWrites s c q, finishCycle_leaves s c q⟩, applyOne_drop_leaves⟩
  obtain ⟨hok, hres, hpriv⟩ := crTriggers h
  refine ⟨hok, hres, hpriv, fun ho => ?now, fun ho hd => ?wait, fun ho => ?nothing, fun ho => ?range,
    State.mem_rangeLines s' _ _ _ _, ?trace⟩
  case now =>
    refine runSlot_triggers_ok h (if_neg ?_) rfl
    rcases ho with ho | ho <;>
      simp only [ho, Bool.false_and, Bool.not_true, Bool.and_false, Bool.false_eq_true, not_false_eq_true]
  case wait =>
    refine ⟨(s'.inSpace s'.me.asid).filter (· != (s'.cur.core, s'.cur.q)), fun u => ?_,
      runSlot_triggers_wait h (if_pos (by simp only [ho, hd, Bool.not_false, Bool.and_self]))⟩
    rw [List.mem_filter, State.mem_inSpace, bne_iff_ne, and_comm]
  case nothing => exact runSlot_triggers_ok h (if_pos ho) rfl
  case range => exact crCinv_cases h ho
  case trace => exact crTrace_cases h

end Sys2Proof.Proofs
end


section
/-! halt, trap, brk, wake, cede and wait (O27). -/
-- One proof after the other: elaborated side by side, the whole text's proofs need more memory than the check has.
set_option Elab.async false
namespace Sys2Proof.Machine
open Sys2Proof.Claims

/-! ### Leases of a core as a mask (R13, R16) -/

theorem bitAt_eq_testBit (n i : Nat) : bitAt n i = n.testBit i := by
  rw [bitAt, Nat.testBit_eq_decide_div_mod_eq]
  rfl

theorem heldBits_eq (k : Core) (q : Nat) : heldBits k q = BitVec.ofNat 7 (k.heldMask q) := by
  have h : ∀ a b c d e f g : Bool, (((List.range 7).filter fun i => [a, b, c, d, e, f, g].getD i false).map (2 ^ ·)).sum =
      bitsNat [a, b, c, d, e, f, g] := by decide
  unfold heldBits Core.heldMask
  congr 1
  have h' := h (k.holds q 0) (k.holds q 1) (k.holds q 2) (k.holds q 3) (k.holds q 4) (k.holds q 5) (k.holds q 6)
  simpa [List.range_succ, List.filter_cons] using h'

theorem bitAt_heldMask (k : Core) (q : Nat) {b : Nat} (hb : b < 7) : bitAt (k.heldMask q) b = (heldBits k q).getLsbD b := by
  rw [bitAt_eq_testBit, heldBits_eq, BitVec.getLsbD_ofNat, decide_eq_true hb, Bool.true_and]

theorem toNat_heldBits (k : Core) (q : Nat) : (heldBits k q).toNat = k.heldMask q := by
  rw [heldBits_eq, BitVec.toNat_ofNat, Nat.mod_eq_of_lt (k.heldMask_lt q)]

/-! ### Units handed over (R19) -/

/-- Only vx and mx hold results. -/
theorem overBits_results (mask : Nat) {f : Core → Nat → Core} (hf : ∀ k b, f k (b + 2) = k) (k : Core) :
    overBits mask f k = (fun k => if bitAt mask 1 then f k 1 else k) (if bitAt mask 0 then f k 0 else k) := by
  have h2 := fun k => hf k 0
  have h3 := fun k => hf k 1
  have h4 := fun k => hf k 2
  have h5 := fun k => hf k 3
  have h6 := fun k => hf k 4
  simp only [Nat.zero_add, Nat.reduceAdd] at h2 h3 h4 h5 h6
  simp only [overBits, show List.range 7 = [0, 1, 2, 3, 4, 5, 6] from rfl, List.foldl_cons, List.foldl_nil, h2, h3, h4, h5, h6, ite_self]

/-- The newest of some results is one of them, and none is newer. -/
theorem newest_mem (l : List Res) (r : Res) :
    l.foldl Res.newer r ∈ r :: l ∧ ∀ x ∈ r :: l, x.trig ≤ (l.foldl Res.newer r).trig := by
  induction l generalizing r with
  | nil => simp
  | cons a l ih =>
    obtain ⟨hm, hmax⟩ := ih (r.newer a)
    rw [List.foldl_cons]
    have hr : r.newer a = r ∨ r.newer a = a := by unfold Res.newer; split <;> simp
    have hle : r.trig ≤ (r.newer a).trig ∧ a.trig ≤ (r.newer a).trig := by unfold Res.newer; split <;> omega
    have htop := hmax _ (.head _)
    refine ⟨?_, fun x hx => ?_⟩
    · rcases List.mem_cons.mp hm with h | h
      · rw [h]
        rcases hr with h | h <;> simp [h]
      · exact .tail _ (.tail _ h)
    · rcases List.mem_cons.mp hx with rfl | hx
      · exact hle.1.trans htop
      · rcases List.mem_cons.mp hx with rfl | hx
        · exact hle.2.trans htop
        · exact hmax x (.tail _ hx)

theorem Port.settle_newest (p : Port) (n : Nat) :
    let now := p.current n :: p.queue.filter (fun r => decide (n < r.vis))
    (p.settle n).queue = [] ∧ ∃ r ∈ now, (p.settle n).cur.val = r.val ∧ ∀ x ∈ now, x.trig ≤ r.trig := by
  obtain ⟨hm, hmax⟩ := newest_mem (p.queue.filter fun r => decide (n < r.vis)) (p.current n)
  exact ⟨rfl, _, hm, rfl, hmax⟩

/-- What a hand-over leaves of a core (R19, R25). -/
theorem Core.handOver_eq (k : Core) (q : Nat) (m : BitVec 7) :
    let n := (k.seq q).cycle
    k.handOver q m.toNat = { k with
      vxr := if m.getLsbD 0 then k.vxr.settle n else k.vxr, vxm := if m.getLsbD 0 then k.vxm.settle n else k.vxm,
      vxs := if m.getLsbD 0 then k.vxs.settle n else k.vxs, drain := if m.getLsbD 1 then none else k.drain,
      nextHold := if q = 0 then k.nextHold ||| m else k.nextHold &&& ~~~m, nextHeld := k.nextHeld ||| m } := by
  intro n
  have hb : ∀ b, bitAt m.toNat b = m.getLsbD b := fun b => bitAt_eq_testBit ..
  rw [Core.handOver, overBits_results _ fun _ _ => rfl, BitVec.ofNat_toNat, BitVec.setWidth_eq, hb, hb]
  cases m.getLsbD 0 <;> cases m.getLsbD 1 <;> rfl

theorem Core.handedOver_handOver (k : Core) (q : Nat) (m : BitVec 7) : HandedOver k (k.handOver q m.toNat) q m := by
  have h := k.handOver_eq q m
  dsimp only at h
  refine ⟨fun b hb => ?_, fun p hp => ?_, by rw [h]⟩
  · rw [h]
    dsimp only
    by_cases hq : q = 0 <;> cases hm : m.getLsbD b <;> simp [hq, hm, hb, -BitVec.getLsbD_eq_getElem]
  · simp only [vxPorts, List.mem_cons, List.not_mem_nil, or_false] at hp
    cases hm : m.getLsbD 0
    · rcases hp with rfl | rfl | rfl <;> simp only [h, hm, Bool.false_eq_true, if_false]
    · rcases hp with rfl | rfl | rfl <;> simp only [h, hm, if_true] <;> exact Port.settle_newest ..

/-- What the end of a unit leaves of its core when no other unit takes its leases (R20, R90). -/
theorem Core.passLeases_kept (k : Core) (q : Nat) (h : ¬ ((k.seq (1 - q)).run = .running ∨ (k.seq (1 - q)).run = .parked)) :
    let n := (k.seq q).cycle
    let m := heldBits k q
    k.passLeases q true = { k with
      vxr := if m.getLsbD 0 then k.vxr.discard n else k.vxr, vxm := if m.getLsbD 0 then k.vxm.discard n else k.vxm,
      vxs := if m.getLsbD 0 then k.vxs.discard n else k.vxs, drain := if m.getLsbD 1 then none else k.drain } := by
  intro n m
  have hb := fun b hb => bitAt_heldMask k q (b := b) hb
  rw [Core.passLeases]
  dsimp only
  rw [if_neg (by simpa using h), overBits_results _ fun _ _ => rfl, hb 0 (by decide), hb 1 (by decide)]
  cases (heldBits k q).getLsbD 0 <;> cases (heldBits k q).getLsbD 1 <;> rfl

theorem Core.passLeases_other (k : Core) (q : Nat) (b : Bool) (h : (k.seq (1 - q)).run = .running ∨ (k.seq (1 - q)).run = .parked) :
    k.passLeases q b = k.handOver q (heldBits k q).toNat := by
  rw [toNat_heldBits, Core.passLeases]
  exact if_pos (by simpa using h)

/-- A core without its sequencers. -/
def Core.rest (k : Core) : Core := { k with seqs := [] }

theorem rest_vxPort {p : Core → Port} (h : p ∈ vxPorts) (k : Core) : p k.rest = p k := by
  simp only [vxPorts, List.mem_cons, List.not_mem_nil, or_false] at h
  rcases h with rfl | rfl | rfl <;> rfl

/-- A hand-over reads of a core its ports, its leases and the cycle of the sequencer, and writes no sequencer. -/
theorem handedOver_congr {k k' u u' : Core} {q : Nat} {m : BitVec 7} (hk : k'.rest = k.rest)
    (hc : (k'.seq q).cycle = (k.seq q).cycle) (hu : u'.rest = u.rest) (h : HandedOver k' u q m) : HandedOver k u' q m := by
  obtain ⟨hleases, hports, hdrain⟩ := h
  have same : ∀ {β : Type} {a b : Core} (p : Core → β), (∀ k, p k.rest = p k) → a.rest = b.rest → p a = p b :=
    fun p hp hr => by rw [← hp, hr, hp]
  have hHold := fun {a b : Core} => same (a := a) (b := b) (·.nextHold) fun _ => rfl
  have hHeld := fun {a b : Core} => same (a := a) (b := b) (·.nextHeld) fun _ => rfl
  have hDrain := fun {a b : Core} => same (a := a) (b := b) (·.drain) fun _ => rfl
  refine ⟨fun b hb => ?_, fun p hp => ?_, ?_⟩
  · rw [hHold hu, hHeld hu, ← hHold hk, ← hHeld hk]
    exact hleases b hb
  · have h := hports p hp
    rw [← rest_vxPort hp u', hu, rest_vxPort hp u, ← rest_vxPort hp k, ← hk, rest_vxPort hp k', ← hc]
    exact h
  · rw [hDrain hu, ← hDrain hk]
    exact hdrain

/-! ### What the trace and the end of a cycle write of the sequencers and their cores (R80, R276) -/

/-- From `s` to `t` no sequencer but `q` of core `c` changes, and of that one no store and no cycle number, and nothing else
of any core. -/
structure State.Local (c q : Nat) (s t : State) : Prop where
  cur : t.cur = s.cur
  rest : ∀ d, (t.core d).rest = (s.core d).rest
  other : ∀ k u, k ≠ c ∨ u ≠ q → t.seq k u = s.seq k u
  stores : (t.seq c q).stores = (s.seq c q).stores
  cycle : (t.seq c q).cycle = (s.seq c q).cycle

namespace State.Local
variable {c q : Nat} {s t u : State}

theorem of_cores (h : t.cores = s.cores) (hc : t.cur = s.cur) : State.Local c q s t where
  cur := hc
  rest d := by rw [State.core, h, ← State.core]
  other k u _ := State.seq_of_cores h k u
  stores := by rw [State.seq_of_cores h]
  cycle := by rw [State.seq_of_cores h]

theorem refl (s : State) : State.Local c q s s := of_cores rfl rfl

theorem trans (h : State.Local c q s t) (h' : State.Local c q t u) : State.Local c q s u where
  cur := h'.cur.trans h.cur
  rest d := (h'.rest d).trans (h.rest d)
  other k r hk := (h'.other k r hk).trans (h.other k r hk)
  stores := h'.stores.trans h.stores
  cycle := h'.cycle.trans h.cycle

theorem modSeq (s : State) {f : Seq → Seq} (hs : (f (s.seq c q)).stores = (s.seq c q).stores)
    (hc : (f (s.seq c q)).cycle = (s.seq c q).cycle) : State.Local c q s (s.modSeq c q f) where
  cur := rfl
  rest d := State.modSeq_core (p := Core.rest) (fun _ _ => rfl) d s c q f
  other _ _ hk := State.seq_modSeq_ne s f hk
  stores := by rw [State.seq_modSeq, hs]
  cycle := by rw [State.seq_modSeq, hc]

theorem setSeq (s : State) {x : Seq} (hs : x.stores = (s.seq c q).stores) (hc : x.cycle = (s.seq c q).cycle) :
    State.Local c q s (s.setSeq c q x) :=
  modSeq (f := fun _ => x) s hs hc

theorem foldl {α : Type} {f : State → α → State} (h : ∀ s a, State.Local c q s (f s a)) (l : List α) (s : State) :
    State.Local c q s (l.foldl f s) := by
  induction l generalizing s with
  | nil => exact refl s
  | cons a l ih => exact (h s a).trans (ih _)

theorem traceRaw (s : State) (ws : List Nat) : State.Local c q s (s.traceRaw c q ws) :=
  of_cores (State.traceRaw_cores ..) (State.traceRaw_cur ..)

theorem traceFlush (s : State) : State.Local c q s (s.traceFlush c q) := by
  unfold State.traceFlush
  dsimp only
  split
  · exact refl s
  · exact (traceRaw s _).trans (modSeq _ rfl rfl)

theorem traceRec (s : State) (ws : List Nat) : State.Local c q s (s.traceRec c q ws) := by
  unfold State.traceRec
  split
  · exact (traceFlush s).trans (traceRaw _ ws)
  · exact refl s

theorem traceDecision (s : State) (b : Bool) : State.Local c q s (s.traceDecision c q b) := by
  unfold State.traceDecision
  dsimp only
  split
  · split
    · refine trans ?_ (traceFlush _)
      exact setSeq s rfl rfl
    · exact setSeq s rfl rfl
  · exact refl s

theorem traceStallEnd (s : State) : State.Local c q s (s.traceStallEnd c q) := by
  unfold State.traceStallEnd
  dsimp only
  split
  · exact (foldl (fun s w => traceRec s [w]) _ s).trans (modSeq _ rfl rfl)
  · exact refl s

theorem traceEnd (s : State) : State.Local c q s (s.traceEnd c q) := by
  unfold State.traceEnd
  dsimp only
  split
  · exact (traceStallEnd s).trans (traceFlush _)
  · exact traceStallEnd s

theorem traceStart (s : State) : State.Local c q s (s.traceStart c q) := by
  unfold State.traceStart
  refine trans (modSeq s ?_ ?_) (of_cores (by simp; rfl) (by simp)) <;> rfl

theorem traceStop (s : State) : State.Local c q s (s.traceStop c q) := (traceFlush s).trans (modSeq _ rfl rfl)

theorem writeCreg (s : State) (a : Nat) (v : Word) : State.Local c q s (s.writeCreg c q a v) := by
  unfold State.writeCreg
  dsimp only
  split
  case h_1 | h_2 => split <;> [exact setSeq s rfl rfl; exact refl s]
  case h_3 | h_4 | h_5 => exact setSeq s rfl rfl
  case h_6 =>
    split
    · refine trans ?_ (traceStart _)
      exact setSeq s rfl rfl
    · split
      · exact (traceStop s).trans (modSeq _ rfl rfl)
      · exact setSeq s rfl rfl
  case h_7 =>
    unfold State.writeRemways
    dsimp only
    split <;> exact of_cores rfl rfl
  case h_8 =>
    unfold State.writeDigbase
    dsimp only
    split <;> split <;> exact of_cores rfl rfl
  case h_9 => exact refl s

theorem applyOne (s : State) (e : Late) : State.Local c q s (s.applyOne c q e) := by
  cases e with
  | creg a v => exact writeCreg s a v
  | drop all va =>
    exact (modSeq (f := fun x => x.dropTranslations (s.seq c q).asid all va) s rfl rfl).trans (of_cores rfl rfl)

theorem applyLate (s : State) : State.Local c q s (s.applyLate c q) := by
  unfold State.applyLate
  dsimp only
  refine trans (foldl applyOne (s.seq c q).late s) ?_
  exact modSeq _ rfl rfl

theorem decided (s : State) (i : BitVec 6) (n : BitVec 1) (b : Bool) : State.Local s.cur.core s.cur.q s (Claims.decided s i n b) := by
  unfold Claims.decided
  split
  · exact refl s
  · exact traceDecision s b

end State.Local

/-! ### Control words whose condition holds (R85) -/

theorem condition_taken {c : BitVec 6} {i : BitVec 1} {s : State} (h : conditionOf s c i = Word.ones) (f : Sem) :
    condition c i s f = f (decided s c i true) := by
  refine (if_pos h).trans (congrArg f ?_)
  unfold decided
  dsimp only
  by_cases hc : c = 0 ∧ i = 0
  · rw [if_pos hc, if_pos (by simp [hc])]
  · rw [if_neg hc, if_neg (by simpa using hc)]

@[simp] theorem decided_cur (s : State) (c : BitVec 6) (i : BitVec 1) (b : Bool) : (decided s c i b).cur = s.cur :=
  (State.Local.decided s c i b).cur

theorem runSlot_after {m : Sem} {s t : State} {c : Cause} (hl : s.cur.live = true) (hm : m s = .after c t) :
    let u := (t.modMe fun x => { x with stepping := false }).finishCycle t.cur.core t.cur.q (t.cur.addr + 16)
    runSlot m s = .next (u.takeTrap u.cur.core u.cur.q c 0 0 none false (u.cur.addr + 16)).endIssue := by
  simp only [runSlot, slotStep, hl, hm, if_true]

theorem State.finishCycle_cur (s : State) (c q : Nat) (n : Word) : (s.finishCycle c q n).cur = s.cur :=
  (State.Local.applyLate (c := c) (q := q) s).cur

/-- `trap` and `brk` trap at the next bundle, when their own has ended (R91). -/
theorem runSlot_trapAfter {cond : BitVec 6} {i : BitVec 1} {s : State} {k : Cause} (hl : s.cur.live = true)
    (hc : conditionOf s cond i = Word.ones) :
    let b := (decided s cond i true).modMe fun x => { x with stepping := false }
    runSlot (fun s => condition cond i s fun t => .after k t) s =
      .next ((b.finishCycle b.cur.core b.cur.q (s.cur.addr + 16)).takeTrap s.cur.core s.cur.q k 0 0 none false (s.cur.addr + 16)).endIssue := by
  have h := runSlot_after (m := fun s => condition cond i s fun t => .after k t) hl (condition_taken hc _)
  dsimp only at h ⊢
  rw [h]
  simp only [State.finishCycle_cur, State.modMe, State.modSeq_cur, decided_cur]

/-! ### The end of a unit (R20, R90) -/

theorem exec_halt_taken {c : BitVec 6} {i : BitVec 1} {s : State} (hl : s.cur.live = true) (hc : conditionOf s c i = Word.ones) :
    exec (.halt c i) s = .next (haltUnit (decided s c i true)) :=
  runSlot_ended hl (condition_taken hc _) rfl

theorem State.core_endIssue (s : State) (c : Nat) : s.endIssue.core c = s.core c := rfl

theorem leftovers_silent {l : List LoadEntry} {e : LoadEntry} (h : e ∈ leftovers l) : e.silent = true := by
  obtain ⟨_, -, rfl⟩ := List.mem_map.mp h
  rfl

/-- What `halt` leaves of its core: only its own sequencer changes, but for the leases and results of the units it holds. -/
theorem haltUnit_leaves {s : State} {b : State} (hb : State.Local s.cur.core s.cur.q s b) :
    let t := haltUnit b
    t.cur.live = false ∧
      let k := s.myCore
      let u := t.core s.cur.core
      let y := u.seq s.cur.q
      let m := heldBits k s.cur.q
      let other := (k.seq (1 - s.cur.q)).run
      y.run = .ending ∧ y.countQueue = [] ∧ y.loops = [] ∧ y.handlerLoops = [] ∧ y.handlerLoads = [] ∧ y.handler = false ∧
        y.hold = none ∧ y.stores = s.me.stores ∧ (∀ e ∈ y.loads, e.silent = true) ∧ u.seq (1 - s.cur.q) = k.seq (1 - s.cur.q) ∧
        if other = .running ∨ other = .parked then HandedOver k u s.cur.q m
        else u.nextHold = k.nextHold ∧ u.nextHeld = k.nextHeld ∧ (m.getLsbD 0 = true →
          ∀ p ∈ vxPorts, p u = { cur := { trig := 0, vis := 0, val := ((p k).current (k.seq s.cur.q).cycle).val }, queue := [] }) := by
  intro t
  have hne : 1 - s.cur.q ≠ s.cur.q := by omega
  have hloc := hb.trans ((State.Local.applyLate b).trans (State.Local.traceEnd _))
  have ht : t = ((((b.applyLate s.cur.core s.cur.q).traceEnd s.cur.core s.cur.q).modCore s.cur.core fun k =>
      (k.passLeases s.cur.q true).setSeq s.cur.q ((k.passLeases s.cur.q true).seq s.cur.q).ended).endIssue) := by
    simp only [t, haltUnit, hb.cur]
  generalize (b.applyLate s.cur.core s.cur.q).traceEnd s.cur.core s.cur.q = b' at hloc ht
  refine ⟨rfl, ?_⟩
  have hu : t.core s.cur.core = ((b'.core s.cur.core).passLeases s.cur.q true).setSeq s.cur.q
      ((b'.core s.cur.core).seq s.cur.q).ended := by
    rw [ht, State.core_endIssue, State.core_modCore, Core.seq, Core.passLeases_seqs, ← Core.seq]
  have hrest : (b'.core s.cur.core).rest = s.myCore.rest := hloc.rest _
  have hother : (b'.core s.cur.core).seq (1 - s.cur.q) = s.myCore.seq (1 - s.cur.q) := hloc.other _ _ (.inr hne)
  have hcycle : ((b'.core s.cur.core).seq s.cur.q).cycle = (s.myCore.seq s.cur.q).cycle := hloc.cycle
  have hstores : ((b'.core s.cur.core).seq s.cur.q).stores = s.me.stores := hloc.stores
  generalize b'.core s.cur.core = k' at hu hrest hother hcycle hstores
  have hm : heldBits k' s.cur.q = heldBits s.myCore s.cur.q :=
    show heldBits k'.rest s.cur.q = heldBits s.myCore.rest s.cur.q by rw [hrest]
  dsimp only
  rw [hu, Core.seq_setSeq, Core.seq_setSeq_ne _ _ hne]
  refine ⟨rfl, rfl, rfl, rfl, rfl, rfl, rfl, hstores, fun e he => leftovers_silent he, ?_, ?_⟩
  · rw [Core.seq, Core.passLeases_seqs, ← Core.seq, hother]
  · by_cases hrun : (k'.seq (1 - s.cur.q)).run = .running ∨ (k'.seq (1 - s.cur.q)).run = .parked
    · rw [if_pos (hother ▸ hrun), Core.passLeases_other _ _ _ hrun, hm]
      exact handedOver_congr (u := k'.handOver s.cur.q _) hrest hcycle rfl (Core.handedOver_handOver ..)
    · rw [if_neg (hother ▸ hrun)]
      have hk := Core.passLeases_kept k' s.cur.q hrun
      dsimp only at hk
      rw [hk]
      refine ⟨show k'.rest.nextHold = s.myCore.rest.nextHold by rw [hrest], show k'.rest.nextHeld = s.myCore.rest.nextHeld by rw [hrest],
        fun h0 p hp => ?_⟩
      rw [← hcycle, ← rest_vxPort hp s.myCore, ← hrest, rest_vxPort hp, hm, h0]
      simp only [vxPorts, List.mem_cons, List.not_mem_nil, or_false] at hp
      rcases hp with rfl | rfl | rfl <;> rfl

/-! ### A unit that wakes (R32, R33, R93) -/

theorem freshUnit_startSeq (l : Launch) (pos : Nat) (entry : Word) (old : Seq) (j : Bool) :
    FreshUnit { startSeq l pos entry old with stepJoin := j } l pos entry := by
  have hs : ∀ n, ({ startSeq l pos entry old with stepJoin := j } : Seq).sreg n =
      if n = 2 then BitVec.ofNat 64 l.hdr.cores else if n = 1 then BitVec.ofNat 64 pos else if n = 0 then l.vec.arg else 0 := fun n => by
    simp only [Seq.sreg, startSeq, mapGet_set]
    rfl
  refine ⟨rfl, rfl, rfl, rfl, rfl, hs 0, hs 1, hs 2, fun n hn => ?_, fun n => rfl, fun n hn => ?_, fun n => rfl, rfl, rfl, rfl,
    rfl, rfl, rfl, rfl, rfl, rfl, rfl, rfl, rfl, rfl⟩
  · rw [hs, if_neg (by omega), if_neg (by omega), if_neg (by omega)]
  · rw [Seq.preg, pregIn, if_neg (by omega)]
    rfl

theorem relative_eq (s : State) (off : BitVec 18) : relative s off = BitVec.ofInt 64 (s.cur.addr.toInt + 16 * off.toInt) := by
  rw [relative, BitVec.shiftLeft_eq_mul_twoPow, BitVec.ofInt_add, BitVec.ofInt_toInt, BitVec.ofInt_mul, BitVec.mul_comm]
  rfl

/-- A core whose sequencer `o` a `wake` has started (R32, R33). -/
def wokenCore (l : Launch) (entry : Word) (o : Nat) (k : Core) : Core :=
  let k' := k.setSeq o { startSeq l k.position entry (k.seq o) with stepJoin := l.stepping.isSome }
  if o = 1 then { k' with lost := 0 } else k'

theorem wokenCore_leaves (l : Launch) (entry : Word) (o : Nat) (k : Core) :
    FreshUnit ((wokenCore l entry o k).seq o) l k.position entry ∧ (∀ q ≠ o, (wokenCore l entry o k).seq q = k.seq q) ∧
    (o = 1 → (wokenCore l entry o k).lost = 0) ∧ (wokenCore l entry o k).nextHold = k.nextHold ∧
    (wokenCore l entry o k).nextHeld = k.nextHeld := by
  have hf : FreshUnit ((k.setSeq o { startSeq l k.position entry (k.seq o) with stepJoin := l.stepping.isSome }).seq o) l k.position entry := by
    rw [Core.seq_setSeq]
    exact freshUnit_startSeq ..
  unfold wokenCore
  dsimp only
  split
  next h => exact ⟨hf, fun q hq => Core.seq_setSeq_ne k _ hq, fun _ => rfl, rfl, rfl⟩
  next h => exact ⟨hf, fun q hq => Core.seq_setSeq_ne k _ hq, fun h1 => absurd h1 h, rfl, rfl⟩

theorem wakeUnit_leaves {b : State} {id : Nat} {l : Launch} (hi : b.myCore.launch = some id) (hl : b.launch id = some l) (entry : Word) :
    let t := wakeUnit entry b
    let o := 1 - b.cur.q
    t.cur = b.cur ∧ FreshUnit ((t.core b.cur.core).seq o) l b.myCore.position entry ∧
      t.launch id = some { l with counter := l.counter + 1 } ∧ t.me = b.me ∧ t.mem = b.mem ∧
      (o = 1 → t.myCore.lost = 0) ∧ t.myCore.nextHold = b.myCore.nextHold ∧ t.myCore.nextHeld = b.myCore.nextHeld := by
  have ht : wakeUnit entry b =
      (b.modCore b.cur.core (wokenCore l entry (1 - b.cur.q))).setLaunch id { l with counter := l.counter + 1 } := by
    simp only [wakeUnit, hi, hl]
    rfl
  rw [ht]
  have hk : ((b.modCore b.cur.core (wokenCore l entry (1 - b.cur.q))).setLaunch id { l with counter := l.counter + 1 }).core b.cur.core =
      wokenCore l entry (1 - b.cur.q) b.myCore := State.core_modCore ..
  obtain ⟨hfresh, hother, hlost, hhold, hheld⟩ := wokenCore_leaves l entry (1 - b.cur.q) b.myCore
  refine ⟨rfl, hk ▸ hfresh, State.launch_setLaunch .., ?_, rfl, fun h => ?_, ?_, ?_⟩
  · exact (congrArg (Core.seq · b.cur.q) hk).trans (hother _ (by omega))
  · exact (congrArg Core.lost hk).trans (hlost h)
  · exact (congrArg Core.nextHold hk).trans hhold
  · exact (congrArg Core.nextHeld hk).trans hheld

/-! ### Units ceded, and what a `wait` looks for (R18, R19, R94) -/

theorem waitMask_bits (ld st : BitVec 1) (tiles : BitVec 16) :
    let m : BitVec 18 := ld ++ (st ++ tiles : BitVec 17)
    (∀ t < 16, m.getLsbD t = tiles.getLsbD t) ∧ m.getLsbD 16 = decide (st = 1) ∧ m.getLsbD 17 = decide (ld = 1) := by
  have one : ∀ b : BitVec 1, b.getLsbD 0 = decide (b = 1) := by decide
  intro m
  refine ⟨fun t ht => ?_, (BitVec.getLsbD_append ..).trans ?_, (BitVec.getLsbD_append ..).trans (one ld)⟩
  · rw [BitVec.getLsbD_append, if_pos (by omega), BitVec.getLsbD_append, if_pos ht]
  · rw [if_pos (by decide), BitVec.getLsbD_append, if_neg (by decide)]
    exact one st

theorem waitOver_iff (k : Core) (q : Nat) (m : BitVec 18) :
    waitOver k q m = true ↔ (∀ t < 16, m.getLsbD t = true → mapGet false k.notReady t = false) ∧
      (m.getLsbD 16 = true → (k.seq q).stores = []) ∧ (m.getLsbD 17 = true → ∀ e ∈ (k.seq q).loadQueue, e.arrived = true) := by
  simp only [waitOver, Bool.and_eq_true, List.all_eq_true, List.mem_range, Bool.or_eq_true, Bool.not_eq_true', List.isEmpty_iff,
    and_assoc, ← Bool.not_eq_true, ← imp_iff_not_or]

theorem waitOver_word_iff (k : Core) (q : Nat) (ld st : BitVec 1) (tiles : BitVec 16) :
    waitOver k q (ld ++ (st ++ tiles : BitVec 17)) = true ↔ (∀ t < 16, tiles.getLsbD t = true → mapGet false k.notReady t = false) ∧
      (st = 1 → (k.seq q).stores = []) ∧ (ld = 1 → ∀ e ∈ (k.seq q).loadQueue, e.arrived = true) := by
  obtain ⟨ht, hs, hl⟩ := waitMask_bits ld st tiles
  rw [waitOver_iff, hs, hl, decide_eq_true_iff, decide_eq_true_iff]
  refine and_congr_left fun _ => forall₂_congr fun t h16 => ?_
  rw [ht t h16]

end Sys2Proof.Machine

namespace Sys2Proof.Proofs
open Sys2Proof Sys2Proof.Machine Sys2Proof.Claims

/-- Settles O27: the words of the control slot that start, end and hold up units, one by one. -/
theorem unitControlResults : Obligations.UnitControlResults := by
  unfold Obligations.UnitControlResults
  refine ⟨fun c i s hl hc => ⟨⟨_, exec_halt_taken hl hc, haltUnit_leaves (State.Local.decided s c i true)⟩, fun x => ⟨?trap, ?brk⟩⟩,
    fun c i off s hl hc => ?wake, fun m s hl => ⟨fun hm => ?none, fun hm ho => ?notOwned, fun hm hh ho => ?cede⟩,
    fun ld st tiles s hl => ⟨fun hp => ?done, fun hp => ?wait⟩⟩
  case trap => exact runSlot_trapAfter hl hc
  case brk => exact runSlot_trapAfter hl hc
  case wake =>
    have hcur := decided_cur s c i true
    have hcond := condition_taken hc (fun t => match (t.myCore.seq (1 - t.cur.q)).run with
      | .running | .parked => .ok t
      | .ending => .wait .wake s
      | .idle => .ok (wakeUnit (relative t off) t))
    dsimp only
    generalize hb : decided s c i true = b at hcur hcond
    have hlive : b.cur.live = true := hcur ▸ hl
    cases hr : (b.myCore.seq (1 - b.cur.q)).run with
    | running | parked => 
      rw [hr] at hcond
      exact runSlot_ok hl hcond hlive
    | ending =>
      rw [hr] at hcond
      exact runSlot_wait hl hcond
    | idle =>
      rw [hr] at hcond
      intro id l hi hn
      obtain ⟨htcur, hrest⟩ := wakeUnit_leaves hi hn (relative b off)
      refine ⟨_, runSlot_ok hl hcond (htcur ▸ hlive), ?_⟩
      rw [relative_eq, hcur] at hrest ⊢
      exact hrest
  case none => exact runSlot_ok hl (if_pos hm) hl
  case notOwned =>
    refine runSlot_trap hl ((if_neg hm).trans (if_pos ?_))
    simpa using ho
  case cede =>
    have hown : ¬ (s.me.handler || (List.range 7).any fun b => m.getLsbD b && !s.myCore.holds s.cur.q b) = true := by
      simpa [hh] using ho
    split
    next hf => exact runSlot_wait hl ((if_neg hm).trans ((if_neg hown).trans (if_pos (by simpa using hf))))
    next hf =>
      have hk : (s.modMyCore fun k => k.handOver s.cur.q m.toNat).myCore = s.myCore.handOver s.cur.q m.toNat := State.myCore_modMyCore ..
      refine ⟨_, runSlot_ok hl ((if_neg hm).trans ((if_neg hown).trans (if_neg (by simpa using hf)))) hl, ?_⟩
      have he := s.myCore.handOver_eq s.cur.q m
      dsimp only at he
      rw [hk]
      refine ⟨Core.handedOver_handOver .., ?_⟩
      rw [he]
      exact ⟨rfl, rfl, rfl, rfl, rfl, rfl, rfl⟩
  case done => exact runSlot_ok hl (if_pos ((waitOver_word_iff _ _ _ _ _).mpr hp)) hl
  case wait => exact runSlot_wait hl (if_neg (mt (waitOver_word_iff _ _ _ _ _).mp hp))

end Sys2Proof.Proofs
end


section
/-! Walks and the ends of holds (O44). -/
-- One proof after the other: elaborated side by side, the whole text's proofs need more memory than the check has.
set_option Elab.async false
namespace Sys2Proof.Machine
open Sys2Proof.Claims

/-! ### What the misses of a sequencer are read from (R203, R283, R288) -/

/-- `t` is `s` but for other sequencers and a choice, and the other sequencer of the core stands as before to the kv
operations of `q`. -/
structure State.Alike (c q : Nat) (s t : State) : Prop where
  fields : ∃ cs n, t = { s with cores := cs, choices := n }
  rest : ∀ d, (t.core d).rest = (s.core d).rest
  me : t.seq c q = s.seq c q
  behind : ∀ n, (t.core c).kvBehind q n = (s.core c).kvBehind q n
  finished : ((t.core c).seq (1 - q)).kvOver = ((s.core c).seq (1 - q)).kvOver

namespace State.Alike
variable {c q : Nat} {s t : State}

theorem of_rest {β : Type} (h : State.Alike c q s t) (p : Core → β) (hp : ∀ k, p k.rest = p k) (d : Nat) :
    p (t.core d) = p (s.core d) := by
  rw [← hp, h.rest, hp]

theorem resolve (h : State.Alike c q s t) (r : Right) (va : Nat) : t.resolve c q r va = s.resolve c q r va := by
  have hl : t.launch = s.launch := by
    obtain ⟨cs, n, rfl⟩ := h.fields
    rfl
  have hp : ∀ (p : Page), p.resolve t = p.resolve s := by
    obtain ⟨cs, n, rfl⟩ := h.fields
    exact fun _ => rfl
  simp only [State.resolve, State.resolveAperture, h.me, hp, hl, h.of_rest Core.spadBytes (fun _ => rfl),
    h.of_rest Core.launch (fun _ => rfl), h.of_rest Core.position (fun _ => rfl)]

theorem kvPlace (h : State.Alike c q s t) (r : Right) (va n : Nat) : t.kvPlace c q r va n = s.kvPlace c q r va n := by
  rw [State.kvPlace, State.kvPlace, h.resolve]

theorem kvGet (h : State.Alike c q s t) (va n : Nat) : t.kvGet c q va n = s.kvGet c q va n := by
  have hr : ∀ l, t.readHome c l n = s.readHome c l n := fun l => by
    cases l with
    | mem pa =>
      obtain ⟨cs, n, rfl⟩ := h.fields
      rfl
    | spad d off =>
      exact congrArg₂ Prod.mk (h.of_rest (·.readSpad off n) (fun _ => rfl) d) (h.of_rest (·.spadPoisonedAt off n) (fun _ => rfl) d)
  rw [State.kvGet, State.kvGet, h.kvPlace]
  unfold State.kvGetAt
  simp only [hr]

theorem kvAt (h : State.Alike c q s t) : t.kvAt c q = s.kvAt c q := by
  have hd : t.ctxKvDesc = s.ctxKvDesc := by
    obtain ⟨cs, n, rfl⟩ := h.fields
    rfl
  rw [State.kvAt, State.kvAt, h.me, hd]

theorem recordMiss (h : State.Alike c q s t) (n : Nat) : t.recordMiss c q n = s.recordMiss c q n := by
  simp only [State.recordMiss, h.resolve]

theorem kvMiss (h : State.Alike c q s t) : t.kvMiss c q = s.kvMiss c q := by
  have hk : (t.core c).kvTurn = (s.core c).kvTurn := h.of_rest Core.kvTurn (fun _ => rfl) c
  have hready : (t.core c).kvReady q = (s.core c).kvReady q := by
    rw [Core.kvReady, Core.kvReady, hk, h.behind, h.finished, show (t.core c).seq q = (s.core c).seq q from h.me]
  have hmoved : t.kvMoved c q = s.kvMoved c q := by
    rw [State.kvMoved, State.kvMoved, h.me, h.kvAt, h.kvGet]
  have hacts : ∀ as, t.actsMiss c q as = s.actsMiss c q as := fun as => by
    simp only [State.actsMiss, h.kvPlace]
  simp only [State.kvMiss, h.me, hready, h.kvAt, h.kvGet, hmoved, hacts, h.recordMiss]

theorem bundleMiss (h : State.Alike c q s t) : t.bundleMiss c q = s.bundleMiss c q := by
  rw [State.bundleMiss, State.bundleMiss, h.me, h.kvMiss]

theorem nextMap (h : State.Alike c q s t) : t.nextMap c q = s.nextMap c q := by
  have hw : (t.core c).mapWaits q = (s.core c).mapWaits q := by
    funext e
    simp only [Core.mapWaits, h.behind, h.finished]
  rw [State.nextMap, State.nextMap, h.me, hw]

/-- The sequencer as a `kv.map` translates is read alike. -/
theorem mapView (h : State.Alike c q s t) (e : LoadEntry) : State.Alike c q (s.mapView c q e) (t.mapView c q e) := by
  have hne : 1 - q ≠ q := by omega
  have hother : ∀ u : State, ((u.mapView c q e).core c).seq (1 - q) = (u.core c).seq (1 - q) := fun u =>
    State.seq_modSeq_ne u _ (.inr hne)
  have hrest : ∀ (u : State) d, ((u.mapView c q e).core d).rest = (u.core d).rest := fun u d =>
    State.modSeq_core (p := Core.rest) (fun _ _ => rfl) d u c q _
  have hbehind : ∀ (u : State) n, ((u.mapView c q e).core c).kvBehind q n = (u.core c).kvBehind q n := fun u n => by
    rw [Core.kvBehind, Core.kvBehind, hother]
  refine ⟨?_, fun d => ?_, ?_, fun n => ?_, ?_⟩
  · obtain ⟨cs, n, rfl⟩ := h.fields
    exact ⟨_, _, rfl⟩
  · rw [hrest, hrest, h.rest]
  · rw [State.mapView, State.mapView, State.seq_modSeq, State.seq_modSeq, h.me]
  · rw [hbehind, hbehind, h.behind]
  · rw [hother, hother, h.finished]

theorem mapMiss (h : State.Alike c q s t) : t.mapMiss c q = s.mapMiss c q := by
  have hm : ∀ e, t.mapMissOf c q e = s.mapMissOf c q e := fun e => by
    have hl : t.mapLook c q e = s.mapLook c q e := by rw [State.mapLook, State.mapLook, h.kvAt]
    simp only [State.mapMissOf, hl, (h.mapView e).kvGet, (h.mapView e).recordMiss]
  simp only [State.mapMiss, h.nextMap, hm, h.me]

theorem refl (s : State) : State.Alike c q s s := ⟨⟨s.cores, s.choices, rfl⟩, fun _ => rfl, rfl, fun _ => rfl, rfl⟩

theorem trans {u : State} (h : State.Alike c q s t) (h' : State.Alike c q t u) : State.Alike c q s u := by
  refine ⟨?_, fun d => (h'.rest d).trans (h.rest d), h'.me.trans h.me, fun n => (h'.behind n).trans (h.behind n),
    h'.finished.trans h.finished⟩
  obtain ⟨cs, n, rfl⟩ := h.fields
  obtain ⟨cs', n', rfl⟩ := h'.fields
  exact ⟨cs', n', rfl⟩

end State.Alike

/-! ### A walk answers one sequencer (R203) -/

/-- What an answer makes of the sequencer's translations. -/
def TlbAnswered (found : Option Page) (old new : List Page) : Prop :=
  match found with
  | some p => (old.length < 64 → new = p :: old) ∧ (64 ≤ old.length → ∃ i < 64, new = p :: old.eraseIdx i)
  | none => new = old

theorem Seq.mapTurn_answered (x : Seq) (found : Option Page) (b m : Option (Nat × Nat)) (o : Nat) (p : Nat → Bool) :
    (x.answered found b m o).allLoads.any (fun e => e.mapTurn.any p) = x.allLoads.any (fun e => e.mapTurn.any p) := by
  simp only [Seq.allLoads, Seq.answered, List.any_append]
  congr 1
  cases m with
  | none => rfl
  | some m =>
    rw [List.any_map]
    congr 1
    funext e
    simp only [Function.comp]
    split <;> rfl

section
variable (s : State) (w : Walker) (found : Option Page) (u : Nat × Nat)

/-- The sequencer that a walk answers, but for its translations. -/
def State.answeredSeq : Seq :=
  (s.seq u.1 u.2).answered found ((s.bundleMiss u.1 u.2).filter (w.answers found)) ((s.mapMiss u.1 u.2).filter (w.answers found))
    (((s.nextMap u.1 u.2).map (·.order)).getD 0)

theorem State.answer_eq : ∃ tlb n, TlbAnswered found (s.seq u.1 u.2).tlb tlb ∧
    s.answer w found u = { s.setSeq u.1 u.2 { s.answeredSeq w found u with tlb := tlb } with choices := n } := by
  cases found with
  | none => exact ⟨_, s.choices, rfl, rfl⟩
  | some p =>
    have h : s.answer w (some p) u = s.tlbFill u.1 u.2 p (s.answeredSeq w (some p) u) := rfl
    rw [h, State.tlbFill]
    split
    next hl => exact ⟨_, s.choices, ⟨fun _ => rfl, fun hn => absurd hl (Nat.not_lt.mpr hn)⟩, rfl⟩
    next hl => exact ⟨_, s.choices + 1, ⟨fun hn => absurd hn hl, fun _ => ⟨_, Nat.mod_lt _ (by decide), rfl⟩⟩, rfl⟩

theorem State.answer_seq : ∃ tlb, TlbAnswered found (s.seq u.1 u.2).tlb tlb ∧
    (s.answer w found u).seq u.1 u.2 = { s.answeredSeq w found u with tlb := tlb } := by
  obtain ⟨tlb, n, ht, h⟩ := s.answer_eq w found u
  exact ⟨tlb, ht, h ▸ State.seq_setSeq ..⟩

/-- To every other sequencer the state is then as before. -/
theorem State.answer_alike {v : Nat × Nat} (hv : v ≠ u) : State.Alike v.1 v.2 s (s.answer w found u) := by
  obtain ⟨tlb, n, -, h⟩ := s.answer_eq w found u
  have hne : v.1 ≠ u.1 ∨ v.2 ≠ u.2 := by
    by_contra hc
    exact hv (Prod.ext (by omega) (by omega))
  have hseq : (s.answer w found u).seq v.1 (1 - v.2) = s.seq v.1 (1 - v.2) ∨ (v.1 = u.1 ∧ 1 - v.2 = u.2 ∧
      (s.answer w found u).seq v.1 (1 - v.2) = { s.answeredSeq w found u with tlb := tlb }) := by
    by_cases ho : v.1 = u.1 ∧ 1 - v.2 = u.2
    · rw [ho.1, ho.2, h]
      exact .inr ⟨rfl, rfl, State.seq_setSeq ..⟩
    · rw [h]
      exact .inl (State.seq_setSeq_ne s _ (by omega))
  refine ⟨⟨_, n, h⟩, fun d => ?_, ?_, fun m => ?_, ?_⟩
  · rw [h]
    exact State.modSeq_core (p := Core.rest) (fun _ _ => rfl) d s u.1 u.2 fun _ => _
  · rw [h]
    exact State.seq_setSeq_ne s _ hne
  · change ((s.answer w found u).seq v.1 (1 - v.2)).allLoads.any _ = (s.seq v.1 (1 - v.2)).allLoads.any _
    rcases hseq with hs | ⟨h1, h2, hs⟩
    · rw [hs]
    · rw [hs, h1, h2]
      exact Seq.mapTurn_answered _ found ((s.bundleMiss u.1 u.2).filter (w.answers found)) _ _ _
  · change ((s.answer w found u).seq v.1 (1 - v.2)).kvOver = (s.seq v.1 (1 - v.2)).kvOver
    rcases hseq with hs | ⟨h1, h2, hs⟩
    · rw [hs]
    · rw [hs, h1, h2]
      rfl

end

/-- Answers to several sequencers: to each that is not among them the state is as before. -/
theorem foldl_answer_alike (w : Walker) (found : Option Page) {v : Nat × Nat} (l : List (Nat × Nat)) (s : State) (hv : v ∉ l) :
    State.Alike v.1 v.2 s (l.foldl (fun s u => s.answer w found u) s) := by
  induction l generalizing s with
  | nil => exact .refl s
  | cons a l ih =>
    rw [List.mem_cons, not_or] at hv
    exact (s.answer_alike w found a hv.1).trans (ih _ hv.2)

/-- Each sequencer among them is answered once, in a state that is to it as the first one. -/
theorem foldl_answer_seq (w : Walker) (found : Option Page) {v : Nat × Nat} (l : List (Nat × Nat)) (s : State) (hl : l.Nodup) (hv : v ∈ l) :
    ∃ t, State.Alike v.1 v.2 s t ∧
      (l.foldl (fun s u => s.answer w found u) s).seq v.1 v.2 = (t.answer w found v).seq v.1 v.2 := by
  induction l generalizing s with
  | nil => cases hv
  | cons a l ih =>
    obtain ⟨ha, hl⟩ := List.nodup_cons.mp hl
    by_cases h : v = a
    · subst h
      exact ⟨s, .refl s, (foldl_answer_alike w found l _ ha).me⟩
    · obtain ⟨t, ht, hs⟩ := ih (s.answer w found a) hl ((List.mem_cons.mp hv).resolve_left h)
      exact ⟨t, (s.answer_alike w found a h).trans ht, hs⟩

/-! ### The end of a walk (R203) -/

theorem State.mem_dieUnits (s : State) (d : Nat) (u : Nat × Nat) :
    u ∈ s.dieUnits d ↔ u.1 ∈ s.coreIds ∧ dieOf u.1 = d ∧ u.2 < 2 := by
  obtain ⟨c, q⟩ := u
  simp only [State.dieUnits, List.mem_flatten, List.mem_map, List.mem_eraseDups, List.mem_filter, beq_iff_eq]
  constructor
  · rintro ⟨l, ⟨e, ⟨he, hd⟩, rfl⟩, hm⟩
    simp only [List.mem_cons, Prod.mk.injEq, List.not_mem_nil, or_false] at hm
    rcases hm with ⟨rfl, rfl⟩ | ⟨rfl, rfl⟩ <;> exact ⟨he, hd, by omega⟩
  · rintro ⟨hc, hd, hq⟩
    refine ⟨_, ⟨c, ⟨hc, hd⟩, rfl⟩, ?_⟩
    obtain rfl | rfl : q = 0 ∨ q = 1 := by omega
    · simp
    · simp

theorem nodup_eraseDups {α : Type} [BEq α] [LawfulBEq α] : (l : List α) → l.eraseDups.Nodup
  | [] => by simp
  | a :: l => by
    rw [List.eraseDups_cons, List.nodup_cons, List.mem_eraseDups]
    exact ⟨by simp, nodup_eraseDups _⟩
termination_by l => l.length
decreasing_by exact Nat.lt_succ_of_le (List.length_filter_le _ _)

theorem State.nodup_dieUnits (s : State) (d : Nat) : (s.dieUnits d).Nodup := by
  refine List.nodup_flatten.mpr ⟨fun l hl => ?_, ?_⟩
  · obtain ⟨c, -, rfl⟩ := List.mem_map.mp hl
    simp
  · refine List.Pairwise.map _ (fun a b hab => ?_) (nodup_eraseDups _)
    simp [hab.symm]

theorem Walker.answers_iff (w : Walker) (found : Option Page) (m : Nat × Nat) : w.answers found m = true ↔ Reaches w found m := by
  cases found <;> simp [Walker.answers, Reaches]

theorem State.mem_misses (s : State) (c q : Nat) (m : Nat × Nat) :
    m ∈ s.misses c q ↔ s.bundleMiss c q = some m ∨ s.mapMiss c q = some m := by
  simp [State.misses, Option.mem_toList]

theorem State.mem_waiters (s : State) (d : Nat) (w : Walker) (found : Option Page) (u : Nat × Nat) :
    u ∈ s.waiters d w found ↔ Missing s d w found u := by
  simp only [State.waiters, List.mem_filter, State.mem_dieUnits, Bool.and_eq_true, Bool.not_eq_true', List.contains_eq_mem,
    decide_eq_false_iff_not, List.any_eq_true, State.mem_misses, Walker.answers_iff, Missing, and_assoc]

/-- What an answer leaves of a sequencer whose misses it reaches. -/
theorem answered_of_seq {s t t' : State} {w : Walker} {found : Option Page} {u : Nat × Nat} (ha : State.Alike u.1 u.2 s t')
    (h : t.seq u.1 u.2 = (t'.answer w found u).seq u.1 u.2) : Answered s t w found u := by
  obtain ⟨tlb, htlb, hseq⟩ := t'.answer_seq w found u
  rw [ha.me] at htlb
  rw [hseq, State.answeredSeq, ha.me, ha.bundleMiss, ha.mapMiss, ha.nextMap] at h
  have hans : ∀ m, w.answers found m = true ↔ Reaches w found m := fun m => w.answers_iff found m
  have hno : ∀ {o : Option (Nat × Nat)}, (∀ m, o = some m → ¬ Reaches w found m) → o.filter (w.answers found) = none := fun {o} ho => by
    cases o with
    | none => rfl
    | some m => exact Option.filter_some_neg (Bool.not_eq_true _ ▸ mt (hans m).mp (ho m rfl))
  have hyes : ∀ {o : Option (Nat × Nat)} {m}, o = some m → Reaches w found m → o.filter (w.answers found) = some m := fun ho hm => by
    rw [ho]
    exact Option.filter_some_pos ((hans _).mpr hm)
  unfold Answered
  simp only [h, Seq.answered]
  refine ⟨trivial, fun m hm hr => ?_, fun hn => ?_, fun m e hm hr he => ?_, fun hn => ?_, htlb⟩
  · rw [hyes hm hr]
    rfl
  · rw [hno hn]
    rfl
  · rw [hyes hm hr, he]
    rfl
  · rw [hno hn]

/-- A walk that ends answers every miss that it reaches, and is no longer under way. -/
theorem State.endWalk_answers (s : State) (d : Nat) (w : Walker) (found : Option Page) :
    w ∉ ((s.endWalk d w found).die d).walkers ∧ ∀ u, Missing s d w found u → Answered s (s.endWalk d w found) w found u := by
  refine ⟨fun hw => ?_, fun u hu => ?_⟩
  · rw [State.endWalk, State.die_modDie] at hw
    simpa using (List.mem_filter.mp hw).2
  · obtain ⟨t', ha, hs⟩ := foldl_answer_seq w found (s.waiters d w found) s ((s.nodup_dieUnits d).filter _) ((s.mem_waiters d w found u).mpr hu)
    exact answered_of_seq ha hs

theorem tlbWalk_answers (c q : Nat) (s : State) (w : Walker) (h : s.walkerOf c q = some w) :
    let ends := fun found => ∃ t : State, exec (.tlbWalk c q) s = .next t ∧ t.mem = s.mem ∧ w ∉ (t.die (dieOf c)).walkers ∧
      ∀ u, Missing s (dieOf c) w found u → Answered s t w found u
    (c, q) ∉ w.barred ∧ w ∈ (s.die (dieOf c)).walkers ∧
      (∃ m, (s.bundleMiss c q = some m ∨ s.mapMiss c q = some m) ∧ w.asid = m.1 ∧ w.granule = m.2 / 65536) ∧
      match s.walkerNext w with
      | .down _ => exec (.tlbWalk c q) s = .next s
      | .found p => ends (some p)
      | .failed => ends none := by
  intro ends
  obtain ⟨m, hm, hf⟩ := List.exists_of_findSome?_eq_some h
  have hw := List.find?_some hf
  simp only [Bool.and_eq_true, beq_iff_eq, Bool.not_eq_true', List.contains_eq_mem, decide_eq_false_iff_not] at hw
  obtain ⟨⟨hasid, hgran⟩, hbar⟩ := hw
  refine ⟨hbar, List.mem_of_find?_eq_some hf, ⟨m, (s.mem_misses c q m).mp hm, hasid, hgran⟩, ?_⟩
  have he : exec (.tlbWalk c q) s = if (s.walkerNext w).last then .next (s.walkStep (dieOf c) w) else .next s := by
    change execTlbWalk c q s = _
    rw [execTlbWalk, h]
  have hmem := s.walkStep_mem (dieOf c) w
  rw [State.walkStep] at he hmem
  cases hn : s.walkerNext w with
  | down t =>
    rw [hn] at he
    exact he
  | found p =>
    rw [hn] at he hmem
    exact ⟨_, he, hmem, s.endWalk_answers (dieOf c) w (some p)⟩
  | failed =>
    rw [hn] at he hmem
    exact ⟨_, he, hmem, s.endWalk_answers (dieOf c) w none⟩

/-! ### The ends of holds (R41) -/

section
variable {c q : Nat} {s : State} {h : Hold} (hh : (s.seq c q).hold = some h)
include hh

theorem freezeEnd_of (ho : freezeOver (s.core c) (s.seq c q) h = true) :
    exec (.freezeEnd c q) s = .next (s.setSeq c q { s.seq c q with hold := none }) := by
  change execFreezeEnd c q s = _
  simp only [execFreezeEnd, hh, ho, if_true]

theorem flagWaitEnd_of (ho : waitEnds (s.core c) q (s.seq c q) h = true) :
    exec (.flagWaitEnd c q) s = .next (s.setSeq c q ((s.seq c q).endWait h)) := by
  change execFlagWaitEnd c q s = _
  simp only [execFlagWaitEnd, hh, ho, if_true]

end

/-- A sequencer drops what another's `cr.tlbinv` invalidates (R204). -/
theorem dropOther_leaves {c q : Nat} {s : State} {all : Bool} {va : Nat} {left : List (Nat × Nat)}
    (hh : (s.seq c q).hold = some (.invalidate all va left)) {u : Nat × Nat} (hu : u ∈ left) (hne : u ≠ (c, q)) :
    let t := s.dropOther c q u
    let y := s.seq u.1 u.2
    t.mem = s.mem ∧ t.seq c q = { s.seq c q with hold := some (.invalidate all va (left.erase u)) } ∧
      (t.seq u.1 u.2).tlb = y.tlb.filter fun p => !(p.asid == y.asid && (all || p.covers y.asid va)) := by
  have ht : s.dropOther c q u =
      (s.dropIn u.1 u.2 all va).modSeq c q fun x => { x with hold := some (.invalidate all va (left.erase u)) } := by
    simp only [State.dropOther, hh, List.contains_iff_mem.mpr hu, if_true]
  have hne' : c ≠ u.1 ∨ q ≠ u.2 := by
    by_contra hc
    exact hne (Prod.ext (by omega) (by omega))
  have hdrop : ∀ c q, (s.dropIn u.1 u.2 all va).seq c q =
      (s.modSeq u.1 u.2 fun x => x.dropTranslations (s.seq u.1 u.2).asid all va).seq c q := fun _ _ => rfl
  have hme : (s.dropIn u.1 u.2 all va).seq c q = s.seq c q := (hdrop c q).trans (State.seq_modSeq_ne s _ hne')
  have hother : (s.dropIn u.1 u.2 all va).seq u.1 u.2 = (s.seq u.1 u.2).dropTranslations (s.seq u.1 u.2).asid all va :=
    (hdrop _ _).trans (State.seq_modSeq ..)
  dsimp only
  rw [ht]
  refine ⟨rfl, ?_, ?_⟩
  · rw [State.seq_modSeq, hme]
  · rw [State.seq_modSeq_ne _ _ (by omega), hother]
    rfl

end Sys2Proof.Machine

namespace Sys2Proof.Proofs
open Sys2Proof Sys2Proof.Machine Sys2Proof.Claims

/-- Settles O44: a walk's end answers the misses that it reaches, and each hold ends by what its rule names. -/
theorem holdsEnd : Obligations.HoldsEnd := by
  unfold Obligations.HoldsEnd
  refine ⟨tlbWalk_answers, fun c q asid va s hh ha => ?miss, fun c q s h hh => ?holds⟩
  case miss => simp only [State.bundleMiss, hh, ha, if_true]
  case holds =>
    intro x k free ready drained
    have hd : drained ↔ x.allPerformed = true := (Seq.allPerformed_iff x).symm
    refine ⟨fun asid va e hw => ?walk, fun e hl => ?storeRoom, fun e hl => ?sendRoom, fun e hn => ?circuit, fun l r e hp ha => ?pop,
      fun w r tf e hf => ?tiles, fun tag e hn hr => ?stopk, fun m e ht hs hl => ?wait, fun e hn => ?wake, fun e hp => ?rft,
      fun e hn => ?sstep, fun e hn => ?record, fun ls e hp hn => ?cinv, fun m e => ?cede, fun e hp => ?acts, fun op e hp => ?kv,
      fun all va left e => ⟨fun hn => ?dropped, fun u hu hne => ?drop⟩⟩
    case acts =>
      rcases e with rfl | rfl <;> exact flagWaitEnd_of hh (hd.mp hp)
    all_goals subst e
    case walk =>
      refine freezeEnd_of hh ?_
      simpa [freezeOver, Seq.awaits] using hw
    case storeRoom => exact freezeEnd_of hh (decide_eq_true hl)
    case sendRoom => exact freezeEnd_of hh (decide_eq_true hl)
    case circuit => exact freezeEnd_of hh (by simpa [freezeOver] using hn)
    case pop => exact freezeEnd_of hh (by simp [freezeOver, hp, ha, x])
    case tiles => exact flagWaitEnd_of hh ((Core.tilesFree_iff _ _ _ _).mpr hf)
    case stopk => exact flagWaitEnd_of hh (by simp [waitEnds, k, hn, hr])
    case wait => exact flagWaitEnd_of hh ((waitOver_iff _ _ _).mpr ⟨ht, hs, hl⟩)
    case wake => exact flagWaitEnd_of hh (bne_iff_ne.mpr hn)
    case rft => exact flagWaitEnd_of hh (List.all_eq_true.mpr hp)
    case sstep => exact flagWaitEnd_of hh hn
    case record => exact flagWaitEnd_of hh hn
    case cinv =>
      have hall : (s.seq c q).allPerformed = true := hd.mp hp
      refine flagWaitEnd_of hh ?_
      simpa [waitEnds, hall] using hn
    case cede => exact flagWaitEnd_of hh rfl
    case kv =>
      refine flagWaitEnd_of hh (Bool.or_eq_true_iff.mpr ?_)
      rcases hp with hp | ⟨hn, hp, hb, hk⟩
      · exact .inl (beq_iff_eq.mpr hp)
      · have hall : ((s.core c).seq q).allPerformed = true := hd.mp hp
        have hover : ((s.core c).seq (1 - q)).kvOver = true := by rw [Seq.kvOver, hk]; rfl
        have hnone : (s.seq c q).kvLeft = none := hn
        exact .inr (by simp [hnone, Core.kvReady, hall, hover, show (s.core c).kvBehind q (s.core c).kvTurn = false from hb])
    case dropped => exact flagWaitEnd_of hh (by simp [waitEnds, hn])
    case drop => exact dropOther_leaves hh hu hne

end Sys2Proof.Proofs
end


section
/-! Traps, their handlers and cancels (O49). -/
-- One proof after the other: elaborated side by side, the whole text's proofs need more memory than the check has.
set_option Elab.async false
namespace Sys2Proof.Machine
open Sys2Proof.Claims Sys2Proof.Laws

/-! ### A sequencer that does not record (R276) -/

/-- A sequencer whose trace has noted that no stall is open. -/
def Seq.noStall (x : Seq) : Seq := { x with trace := { x.trace with stallFrom := none } }

/-- With recording off the end of a stall is only noted. -/
theorem State.traceStallEnd_off (s : State) (c q : Nat) (h : (s.seq c q).traceOn = false) :
    s.traceStallEnd c q = s ∨ s.traceStallEnd c q = s.modSeq c q Seq.noStall := by
  have hrec : ∀ ws : List Nat, ws.foldl (fun s w => s.traceRec c q [w]) s = s := fun ws =>
    foldl_keeps (· = s) _ (fun t w ht => by rw [ht, State.traceRec_off _ h]) ws s rfl
  unfold State.traceStallEnd
  dsimp only
  split
  · exact .inr (congrArg (State.modSeq · c q Seq.noStall) (hrec _))
  · exact .inl rfl

/-! ### Taking a trap (R37, R268, R269) -/

theorem Cause.hasPage_iff (c : Cause) : c.hasPage = true ↔ c ∈ [.misaligned, .translation, .protection, .scratchBounds, .digestRegion] := by
  cases c <;> simp [Cause.hasPage]

/-- XPC keeps the low 56 bits of the address of a bundle (R269). -/
theorem toNat_and_bundleMask (w : Word) : (w &&& maskBits 55 4).toNat = w.toNat / 16 * 16 % 2 ^ 56 := by
  refine Nat.eq_of_testBit_eq fun i => ?_
  have hw : w.toNat / 16 * 16 = w.toNat >>> 4 <<< 4 := by rw [Nat.shiftRight_eq_div_pow, Nat.shiftLeft_eq]
  rw [Nat.testBit_mod_two_pow, hw, Nat.testBit_shiftLeft, Nat.testBit_shiftRight, BitVec.testBit_toNat, BitVec.getLsbD_and,
    getLsbD_maskBits (by decide)]
  by_cases h4 : 4 ≤ i
  · rw [Nat.add_sub_cancel' h4, BitVec.testBit_toNat]
    have hi : (decide (i ≤ 55) && decide (i < 64)) = decide (i < 56) := by rw [← Bool.decide_and]; exact decide_eq_decide.mpr (by omega)
    simp [h4, hi, Bool.and_comm]
  · simp [h4]

/-- The page of a fault's address (R269). -/
theorem pageOf_fault (w : Word) : BitVec.ofNat 40 (bits w.toNat 55 16) = w.extractLsb' 16 40 := by
  refine BitVec.eq_of_toNat_eq ?_
  simp [bits, Nat.shiftRight_eq_div_pow]

/-- The handler starts as R269 says, whatever the trace holds. -/
theorem handlerEntered_enterHandler (x : Seq) (tr : Trace) (c : Cause) (k : Nat) (fault : Word) (h : Option HeadRecord) (d : Bool)
    (n : Nat) : HandlerEntered x (({ x with trace := tr } : Seq).enterHandler c k fault h d x.pc n) c k fault d n := by
  refine ⟨rfl, rfl, rfl, rfl, toNat_and_bundleMask x.pc, rfl, rfl, rfl, ?page, rfl, rfl, rfl, rfl, rfl, rfl, rfl, rfl, rfl, rfl, rfl, rfl,
    rfl, rfl, rfl, ?budget⟩
  case page => simp only [Seq.enterHandler, pageOf_fault, Cause.hasPage_iff]
  case budget => simp only [Seq.enterHandler, Bool.or_eq_true, decide_eq_true_eq]

/-- A running sequencer whose trace is off enters its handler (R269). -/
theorem takeTrap_enters (s : State) (c q : Nat) (cause : Cause) (k : Nat) (fault : Word) (h : Option HeadRecord) (d : Bool)
    (hb : (s.seq c q).budget = none) (hh : (s.seq c q).handler = false) (hv : (s.seq c q).trapvec ≠ 0)
    (ht : (s.seq c q).traceOn = false) : let t := s.takeTrap c q cause k fault h d (s.seq c q).pc
    HandlerEntered (s.seq c q) (t.seq c q) cause k fault d s.clock ∧ t.mem = s.mem ∧
      (t.seq c q).pending = if d then (s.seq c q).pending.erase cause else (s.seq c q).pending := by
  have hon : ((s.traceStallEnd c q).seq c q).traceOn = false :=
    (State.traceStallEnd_seq (p := Seq.traceOn) (fun _ _ => rfl) c q s c q).trans ht
  have htrap : s.takeTrap c q cause k fault h d (s.seq c q).pc =
      (s.traceStallEnd c q).modSeq c q fun x => x.enterHandler cause k fault h d (s.seq c q).pc (s.traceStallEnd c q).clock := by
    simp only [State.takeTrap, hb, hh, hv, Option.isSome_none, Bool.false_eq_true, if_false, State.traceTrap, State.traceRec_off _ hon]
  dsimp only
  rw [htrap, State.seq_modSeq, State.modSeq_mem]
  obtain he | he := State.traceStallEnd_off s c q ht
  · rw [he]
    exact ⟨handlerEntered_enterHandler (s.seq c q) (s.seq c q).trace .., rfl, rfl⟩
  · rw [he, State.seq_modSeq]
    exact ⟨handlerEntered_enterHandler (s.seq c q) { (s.seq c q).trace with stallFrom := none } .., rfl, rfl⟩

/-- With no handler the unit fails, or is stopped by a CANCEL or PREEMPT (R36, R37). -/
theorem takeTrap_bare (s : State) (c q : Nat) (cause : Cause) (k : Nat) (fault : Word) (h : Option HeadRecord) (d : Bool) (a : Word)
    (hb : (s.seq c q).budget = none) (hh : (s.seq c q).handler = false) (hv : (s.seq c q).trapvec = 0) :
    s.takeTrap c q cause k fault h d a = if cause = .cancel ∨ cause = .preempt then s.stopUnit c q else s.failUnit c q cause := by
  simp only [State.takeTrap, hb, hh, hv, Option.isSome_none, Bool.false_eq_true, if_false, if_true, Bool.or_eq_true, decide_eq_true_eq]

theorem State.failUnit_unlaunched {s : State} {c : Nat} (q : Nat) (cause : Cause) (h : (s.core c).launch = none) :
    s.failUnit c q cause = s.stopUnit c q := by
  simp only [State.failUnit, h]

/-! ### The first deferred cause (R268) -/

theorem nextDeferred_of_firstPending {x : Seq} {c : Cause} (h : FirstPending x.pending c) : x.nextDeferred = some c := by
  obtain ⟨i, hi, hc, hfirst⟩ := h
  obtain ⟨hlt, hget⟩ := List.getElem?_eq_some_iff.mp hi
  refine List.find?_eq_some_iff_getElem.mpr ⟨by simpa using hc, i, hlt, hget, fun j hj => ?_⟩
  have hd := hfirst j hj _ (List.getElem?_eq_getElem (Nat.lt_trans hj hlt))
  simpa [deferredOrder] using hd

theorem firstPending_mem {l : List Cause} {c : Cause} (h : FirstPending l c) : c ∈ l := by
  obtain ⟨_, _, hc, _⟩ := h
  exact hc

/-! ### What a failure notes of its launch (R29) -/

theorem State.noteAll_launch {s : State} {id : Nat} {l : Launch} (f : Failure) (h : s.launch id = some l) :
    (s.noteAll id f).launch id = some { l with failure := noteFailure f l.failure } := by
  have hn : (s.noteAll id f).launches = (s.setLaunch id { l with failure := noteFailure f l.failure }).launches := by
    simp only [State.noteAll, h, State.modLevel_launches]
  rw [State.launch, hn]
  exact State.launch_setLaunch ..

theorem noteFailure_eq (f : Failure) (o : Option Failure) : noteFailure f o = some (o.getD f) := by cases o <;> rfl

/-- A unit under policy launch fails: it ends, and its launch keeps the first failure (R29, R37, R38). -/
theorem State.failUnit_kept {s : State} {c q id : Nat} {l : Launch} (cause : Cause) (hid : (s.core c).launch = some id)
    (hl : s.launch id = some l) (hp : l.hdr.unitPolicy = 2) : let t := s.failUnit c q cause
    (t.seq c q).run = .ending ∧ (t.seq c q).unitFailed = true ∧
      t.launch id = some { l with failure := some (l.failure.getD { cause := cause, core := c, q := q }) } := by
  let f : Failure := { cause := cause, core := c, q := q }
  have ht : s.failUnit c q cause = ((s.noteAll id f).stopUnit c q).modSeq c q fun x => { x with unitFailed := true } := by
    simp only [State.failUnit, hid, hl, hp]
    rfl
  dsimp only
  rw [ht, State.seq_modSeq]
  refine ⟨?_, rfl, ?_⟩
  · rw [State.stopUnit_run, if_pos ⟨rfl, rfl⟩]
  · have hn : (((s.noteAll id f).stopUnit c q).modSeq c q fun x => { x with unitFailed := true }).launches = (s.noteAll id f).launches :=
      (aside_launches.modSeq ..).trans (aside_launches.stopUnit ..)
    rw [← noteFailure_eq, ← State.noteAll_launch f hl, State.launch, hn, State.launch]

/-! ### The return from a handler (R92, R272, R273) -/

/-- A sequencer whose trap was raised by a marked load-queue head that CLRHEAD answers (R273). -/
def Seq.headCleared (x : Seq) : Seq :=
  if x.clrHead = true ∧ x.headRecord = some .load then { x with loads := clearHead x.loads } else x

theorem Core.seq_clearHeads (k : Core) (q : Nat) : (k.clearHeads q).seq q = (k.seq q).headCleared := by
  unfold Core.clearHeads
  dsimp only
  split
  case h_1 hc hr => simp [Seq.headCleared, hc, hr]
  case h_2 hc hr =>
    rw [Seq.headCleared, if_neg (by simp [hr])]
    rfl
  case h_3 hno _ => rw [Seq.headCleared, if_neg fun h => hno h.1 h.2]

theorem State.returnFromTrap_off {s : State} {c q : Nat} (h : (s.seq c q).traceOn = false) : (s.returnFromTrap c q).mem = s.mem ∧
    (s.returnFromTrap c q).seq c q = (s.seq c q).headCleared.leaveHandler := by
  simp only [State.returnFromTrap, State.traceRft, State.traceRec_off _ h]
  refine ⟨rfl, ?_⟩
  rw [State.seq, State.core_modCore, Core.seq_setSeq, Core.seq_clearHeads]
  rfl

theorem headCleared_leaveHandler (x : Seq) :
    x.headCleared.leaveHandler = { x.leaveHandler with
      loads := if x.clrHead = true ∧ x.headRecord = some .load then clearHead x.loads else x.loads } := by
  unfold Seq.headCleared
  split <;> rfl

/-- A sequencer at the end of a cycle without control-register writes: its flags are in FPCTL (R131). -/
def Seq.flagged (x : Seq) (clock : Nat) : Seq :=
  { x with fpctl := orFlags (orFlags x.fpctl x.lateFlags) (x.flagsOf clock), late := [], lateFlags := 0 }

theorem State.applyLate_none {s : State} {c q : Nat} (h : (s.seq c q).late = []) :
    s.applyLate c q = s.setSeq c q ((s.seq c q).flagged s.clock) := by
  simp only [State.applyLate, h, List.foldl_nil]
  rfl

theorem State.returnFromTrap_cur (s : State) (c q : Nat) : (s.returnFromTrap c q).cur = s.cur := State.traceRec_cur ..

/-! ### A cancel that is delivered (R36) -/

/-- A unit that a CANCEL stops at once: it has no handler, or is in it. -/
def Seq.stopsAtOnce (x : Seq) : Prop := x.trapvec = 0 ∨ x.handler = true

/-- What decides how a CANCEL is delivered to a unit. -/
def Seq.gate (x : Seq) : Run × Word × Bool := (x.run, x.trapvec, x.handler)

/-- `y` is what a CANCEL makes of the unit `x`: it ends, or has the cause pending, once. -/
def Told (cause : Cause) (x y : Seq) : Prop :=
  (x.stopsAtOnce → y.run = .ending) ∧ (¬ x.stopsAtOnce → cause ∈ y.pending ∧ y.trapvec = x.trapvec ∧ y.handler = x.handler)

section
variable (s : State) (cause : Cause) (u : Nat × Nat)

theorem State.deliver_traceOn (c q : Nat) : ((s.deliver cause u).seq c q).traceOn = (s.seq c q).traceOn := by
  unfold State.deliver
  dsimp only
  split
  · rfl
  · split
    · exact State.stopUnit_traceOn ..
    · exact State.seq_modSeq_same Seq.traceOn s u.1 u.2 (fun x => { x with run := .running, pending := _ }) (fun _ => rfl) c q

theorem State.deliver_mem (h : (s.seq u.1 u.2).traceOn = false) : (s.deliver cause u).mem = s.mem := by
  unfold State.deliver
  dsimp only
  split
  · rfl
  · split
    · exact State.traceEnd_mem_off _ _ _ h
    · rfl

theorem State.deliver_launches : (s.deliver cause u).launches = s.launches := by
  unfold State.deliver
  dsimp only
  split
  · rfl
  · split
    · exact aside_launches.stopUnit ..
    · rfl

theorem State.deliver_idle (h : (s.seq u.1 u.2).active = false) : s.deliver cause u = s := by
  simp [State.deliver, h]

theorem State.deliver_stop (h : (s.seq u.1 u.2).active = true) (hx : (s.seq u.1 u.2).stopsAtOnce) :
    s.deliver cause u = s.stopUnit u.1 u.2 := by
  have hc : (decide ((s.seq u.1 u.2).trapvec = 0) || (s.seq u.1 u.2).handler) = true := by simpa [Seq.stopsAtOnce] using hx
  simp only [State.deliver, h, hc, Bool.not_true, Bool.false_eq_true, if_false, if_true]

theorem State.deliver_pend (h : (s.seq u.1 u.2).active = true) (hx : ¬ (s.seq u.1 u.2).stopsAtOnce) :
    s.deliver cause u = s.modSeq u.1 u.2 fun x =>
      { x with run := .running, pending := if x.pending.contains cause then x.pending else x.pending ++ [cause] } := by
  have hc : (decide ((s.seq u.1 u.2).trapvec = 0) || (s.seq u.1 u.2).handler) = false := by simpa [Seq.stopsAtOnce] using hx
  simp only [State.deliver, h, hc, Bool.not_true, Bool.false_eq_true, if_false]
  rfl

theorem State.deliver_told (h : (s.seq u.1 u.2).active = true) : Told cause (s.seq u.1 u.2) ((s.deliver cause u).seq u.1 u.2) := by
  refine ⟨fun hx => ?_, fun hx => ?_⟩
  · rw [State.deliver_stop s cause u h hx, State.stopUnit_run, if_pos ⟨rfl, rfl⟩]
  · rw [State.deliver_pend s cause u h hx, State.seq_modSeq]
    refine ⟨?_, rfl, rfl⟩
    dsimp only
    split <;> simp_all

/-- A CANCEL for one unit leaves all of another but its trace. -/
theorem State.deliver_other {β : Type} {p : Seq → β} (hp : ∀ x tr, p { x with trace := tr } = p x) {v : Nat × Nat} (hv : v ≠ u) :
    p ((s.deliver cause u).seq v.1 v.2) = p (s.seq v.1 v.2) := by
  have hne : v.1 ≠ u.1 ∨ v.2 ≠ u.2 := by
    by_contra hc
    exact hv (Prod.ext (by tauto) (by tauto))
  cases ha : (s.seq u.1 u.2).active with
  | false => rw [State.deliver_idle s cause u ha]
  | true =>
    by_cases hx : (s.seq u.1 u.2).stopsAtOnce
    · rw [State.deliver_stop s cause u ha hx, State.stopUnit_seq_ne s hne, State.traceEnd_seq hp]
    · rw [State.deliver_pend s cause u ha hx, State.seq_modSeq_ne s _ hne]

end

/-- A CANCEL that comes again changes nothing of what it did. -/
theorem Told.again {cause : Cause} {x : Seq} {t : State} (u v : Nat × Nat) (h : Told cause x (t.seq v.1 v.2)) :
    Told cause x ((t.deliver cause u).seq v.1 v.2) := by
  obtain ⟨hstop, hpend⟩ := h
  by_cases hv : v = u
  · subst hv
    refine ⟨fun hx => ?_, fun hx => ?_⟩
    · have ha : (t.seq v.1 v.2).active = false := by simp [Seq.active, hstop hx]
      rw [State.deliver_idle t cause v ha, hstop hx]
    · obtain ⟨hc, ht, hh⟩ := hpend hx
      cases ha : (t.seq v.1 v.2).active with
      | false => rw [State.deliver_idle t cause v ha]; exact ⟨hc, ht, hh⟩
      | true =>
        have hy : ¬ (t.seq v.1 v.2).stopsAtOnce := by rwa [Seq.stopsAtOnce, ht, hh]
        obtain ⟨hc', ht', hh'⟩ := (State.deliver_told t cause v ha).2 hy
        exact ⟨hc', ht'.trans ht, hh'.trans hh⟩
  · have hr := State.deliver_other t cause u (p := fun x => (x.run, x.pending, x.trapvec, x.handler)) (fun _ _ => rfl) hv
    simp only [Prod.mk.injEq] at hr
    obtain ⟨hrun, hpn, htv, hhd⟩ := hr
    rw [Told, hrun, hpn, htv, hhd]
    exact ⟨hstop, hpend⟩

/-- Every active unit of a list is told, whatever comes before and after its turn (R36). -/
theorem foldl_deliver_told {cause : Cause} {x : Seq} {v : Nat × Nat} (hx : x.active = true) (us : List (Nat × Nat)) (t : State)
    (h : Told cause x (t.seq v.1 v.2) ∨ v ∈ us ∧ (t.seq v.1 v.2).gate = x.gate) :
    Told cause x ((us.foldl (fun s u => s.deliver cause u) t).seq v.1 v.2) := by
  induction us generalizing t with
  | nil => exact h.resolve_right (by simp)
  | cons u us ih =>
    refine ih _ ?_
    obtain h | ⟨hm, hg⟩ := h
    · exact .inl (h.again u v)
    · by_cases hv : v = u
      · subst hv
        simp only [Seq.gate, Prod.mk.injEq] at hg
        obtain ⟨hr, htv, hh⟩ := hg
        have ha : (t.seq v.1 v.2).active = true := by rwa [Seq.active, hr]
        have ht := State.deliver_told t cause v ha
        rw [Told, Seq.stopsAtOnce, htv, hh] at ht
        exact .inl ht
      · refine .inr ⟨(List.mem_cons.mp hm).resolve_left hv, ?_⟩
        rw [State.deliver_other t cause u (p := Seq.gate) (fun _ _ => rfl) hv, hg]

/-- No unit of the list records, so memory stays (R276). -/
theorem foldl_deliver_mem {cause : Cause} (us : List (Nat × Nat)) (t : State) (h : ∀ u ∈ us, (t.seq u.1 u.2).traceOn = false) :
    (us.foldl (fun s u => s.deliver cause u) t).mem = t.mem := by
  induction us generalizing t with
  | nil => rfl
  | cons u us ih =>
    refine (ih _ fun v hv => ?_).trans (State.deliver_mem t cause u (h u List.mem_cons_self))
    rw [State.deliver_traceOn, h v (List.mem_cons_of_mem u hv)]

/-- A running launch is cancelled: it has failed, and its active units are told (R36). -/
theorem execCancel_running {id : Nat} {s : State} {l : Launch} (h : s.launch id = some l) (hr : l.state = .running) :
    execCancel .launch id s = .next ((s.activeUnits l).foldl (fun s u => s.deliver .cancel u)
      (s.setLaunch id { l with isFailed := true, cancelled := true, onEmpty := .complete, ckpt := none, drain := none })) := by
  have hf : ∃ n, s.fuel = n + 1 := ⟨8 * (s.launches.length + s.graphs.length + s.phases.length + s.jobs.length + 3) + 7, by
    simp only [State.fuel]
    omega⟩
  obtain ⟨n, hn⟩ := hf
  simp only [execCancel, hn, State.cancelLevel, h, hr]
  rfl

/-! ### A phase's record (R264) -/

theorem State.endJob_keeps (s : State) (id : Nat) : (s.endJob id).phases = s.phases ∧ (s.endJob id).mem = s.mem ∧
    ∀ r ∈ s.posted, r ∈ (s.endJob id).posted := by
  unfold State.endJob
  split
  · dsimp only
    split
    · exact ⟨rfl, rfl, fun r hr => List.mem_append_left _ hr⟩
    · exact ⟨rfl, rfl, fun r hr => hr⟩
  · exact ⟨rfl, rfl, fun r hr => hr⟩

theorem State.modLevel_job_keeps (s : State) (id : Nat) (f : LevelRec → LevelRec) : (s.modLevel .job id f).phases = s.phases ∧
    (s.modLevel .job id f).mem = s.mem ∧ (s.modLevel .job id f).posted = s.posted := by
  unfold State.modLevel
  split <;> exact ⟨rfl, rfl, rfl⟩

theorem State.countPhase_keeps (s : State) (id : Nat) : (s.countPhase id).phases = s.phases ∧ (s.countPhase id).mem = s.mem ∧
    ∀ r ∈ s.posted, r ∈ (s.countPhase id).posted := by
  unfold State.countPhase
  split
  · rename_i r _
    obtain ⟨hp, hm, hr⟩ := State.endJob_keeps (s.modLevel .job r.parent fun j => j.childDone r.isFailed r.isAbsorbed r.excused) r.parent
    obtain ⟨hp', hm', hr'⟩ := State.modLevel_job_keeps s r.parent fun j => j.childDone r.isFailed r.isAbsorbed r.excused
    exact ⟨hp.trans hp', hm.trans hm', fun x hx => hr x (hr'.symm ▸ hx)⟩
  · exact ⟨rfl, rfl, fun r hr => hr⟩

theorem lookup_of_mapGet {α : Type} {m : NMap (Option α)} {n : Nat} {a : α} (h : mapGet none m n = some a) : m.lookup n = some (some a) := by
  induction m with
  | nil => simp [mapGet] at h
  | cons e m ih =>
    obtain ⟨k, v⟩ := e
    by_cases hk : n = k
    · subst hk
      simpa [mapGet] using h
    · rw [List.lookup_cons, beq_false_of_ne hk]
      exact ih (by simpa [mapGet, hk] using h)

theorem State.postPhase_posts {s : State} {p : Nat} {r : LevelRec} (h : s.level .phase p = some r) :
    (s.postPhase p).level .phase p = some { r with complete := true, posting := false } ∧
      r.record .phase p ∈ (s.postPhase p).posted ∧ (s.postPhase p).mem = s.mem := by
  have ht : s.postPhase p =
      ((s.setLevel .phase p { r with complete := true, posting := false }).post (r.record .phase p)).countPhase p := by
    simp only [State.postPhase, lookup_of_mapGet (m := s.phases) h]
  obtain ⟨hp, hm, hr⟩ := State.countPhase_keeps
    ((s.setLevel .phase p { r with complete := true, posting := false }).post (r.record .phase p)) p
  rw [ht]
  refine ⟨?_, hr _ (List.mem_append_right _ List.mem_cons_self), hm⟩
  rw [State.level, State.levels, hp]
  exact mapGet_insert_same ..

/-! ### The steps themselves -/

theorem aside_cur : Aside State.cur := by intros s; intros; rfl

theorem execTrapEntry_running {s : State} {c q : Nat} (code : BitVec 6) (k : Nat) (fa : BitVec 64) (h : (s.seq c q).run = .running) :
    execTrapEntry c q code k fa s = .next (s.takeTrap c q (Cause.ofCode code) k fa none false (s.seq c q).pc) := if_pos h

theorem execDeferredTrap_stop {s : State} {c q : Nat} (h : (s.seq c q).stopPending = true) :
    execDeferredTrap c q s = .next (s.stopUnit c q) := if_pos h

theorem execDeferredTrap_ready {s : State} {c q : Nat} {cause : Cause} (hrun : (s.seq c q).run = .running)
    (hnext : (s.seq c q).nextDeferred = some cause) (hh : (s.seq c q).handler = false) (hhold : (s.seq c q).hold = none)
    (hrec : (s.seq c q).recordBuf = none) (hdone : (s.seq c q).done = false) :
    execDeferredTrap c q s = .next (s.takeTrap c q cause (s.seq c q).slot 0 none true (s.seq c q).pc) := by
  have hstop : (s.seq c q).stopPending = false := by simp [Seq.stopPending, hh]
  have hready : (s.seq c q).deferredReady = true := by simp [Seq.deferredReady, hrun, hnext, hh, hhold, hrec, hdone]
  simp only [execDeferredTrap, hstop, hready, State.takeDeferred, hnext, Bool.false_eq_true, if_false, if_true]

theorem execHandlerBudgetExpiry_spent {s : State} {c q n b : Nat} (hb : (s.seq c q).budget = some (n, b))
    (h : 4096 ≤ n ∨ b + 65536 ≤ s.clock) : execHandlerBudgetExpiry c q s = .next (s.stopUnit c q) := by
  have hs : (s.seq c q).budgetSpent s.clock = true := by
    simp only [Seq.budgetSpent, hb, Config.handlerBundles, Config.handlerClocks, Bool.or_eq_true, decide_eq_true_eq]
    exact h
  exact if_pos hs

section
variable {s : State}

theorem semRft_outside (h : s.me.handler = false) : semRft s = .plain .privilege s := by
  simp [semRft, h]

theorem semRft_budget (h : s.me.handler = true) (hb : s.me.budget.isSome = true) :
    semRft s = .ok (s.stopUnit s.cur.core s.cur.q).endIssue := by
  simp [semRft, h, hb]

theorem semRft_waits (h : s.me.handler = true) (hb : s.me.budget = none) (hl : ∃ e ∈ s.me.handlerLoads, e.performed = false) :
    semRft s = .wait .rftDrain s := by
  simpa [semRft, h, hb] using hl

theorem semRft_returns (h : s.me.handler = true) (hb : s.me.budget = none) (hl : ∀ e ∈ s.me.handlerLoads, e.performed = true) :
    semRft s = .ok ((s.applyLate s.cur.core s.cur.q).returnFromTrap s.cur.core s.cur.q).endIssue := by
  simpa [semRft, h, hb] using hl

end

theorem State.me_endIssue {s u : State} (h : u.cur = s.cur) : u.endIssue.me = u.seq s.cur.core s.cur.q := by
  rw [← h]
  rfl

/-- With no control-register write of its bundle left and the trace off, `rft` returns to what the trap left (R272, R273). -/
theorem rft_returned {s : State} (hlate : s.me.late = []) (ht : s.me.traceOn = false) :
    let t := ((s.applyLate s.cur.core s.cur.q).returnFromTrap s.cur.core s.cur.q).endIssue
    t.mem = s.mem ∧ t.me = (s.me.flagged s.clock).headCleared.leaveHandler := by
  dsimp only
  rw [State.applyLate_none hlate, State.me_endIssue (State.returnFromTrap_cur (s.setSeq _ _ _) _ _)]
  have hseq := State.seq_setSeq s s.cur.core s.cur.q ((s.seq s.cur.core s.cur.q).flagged s.clock)
  obtain ⟨hm, hs⟩ := State.returnFromTrap_off (s := s.setSeq s.cur.core s.cur.q ((s.seq s.cur.core s.cur.q).flagged s.clock))
    (c := s.cur.core) (q := s.cur.q) (by rw [hseq]; exact ht)
  exact ⟨hm, hs.trans (by rw [hseq]; rfl)⟩

end Sys2Proof.Machine

namespace Sys2Proof.Proofs
open Sys2Proof Sys2Proof.Machine Sys2Proof.Claims Sys2Proof.Laws

/-- Settles O49: the entry is `takeTrap_enters`, from a trap at a slot or from the first deferred cause; the failure of a unit without
a handler, the return and the phase's record are read off their definitions; and the cancel is an induction over the launch's
active units, of which one may stand twice in its list of cores. -/
theorem trapsTakenAndReturned : Obligations.TrapsTakenAndReturned := by
  unfold Obligations.TrapsTakenAndReturned
  refine ⟨fun c q k code fa s => ?entry, fun c q cause s => ?deferred, fun c q n b s hb hspent => ?budget, fun s hl => ?rft,
    fun id s l hl hr hoff => ?cancel, fun p s r hp hr => ?phase⟩
  case entry =>
    intro x hrun hh hb ht
    have he : exec (.trapEntry c q code k fa) s = _ := execTrapEntry_running code k fa hrun
    have hbare := fun hv => takeTrap_bare s c q (Cause.ofCode code) k fa none false (s.seq c q).pc hb hh hv
    refine ⟨fun hv => ?_, fun hv hno => ?_, fun id l hv hid hl hp hc hpre => ?_⟩
    · obtain ⟨hent, hmem, hpend⟩ := takeTrap_enters s c q (Cause.ofCode code) k fa none false hb hh hv ht
      exact ⟨_, he, hent, hmem, hpend⟩
    · rw [he, hbare hv, State.failUnit_unlaunched q _ hno, ite_self]
    · rw [hbare hv, if_neg (by tauto)] at he
      obtain ⟨hend, hf, hlaunch⟩ := State.failUnit_kept (q := q) (Cause.ofCode code) hid hl hp
      exact ⟨_, _, he, hend, hf, hlaunch, rfl⟩
  case deferred =>
    intro x hrun hfirst hb ht
    refine ⟨fun hh hhold hrec hdone hv => ?_, fun hh hc => ?_⟩
    · obtain ⟨hent, hmem, hpend⟩ := takeTrap_enters s c q cause x.slot 0 none true hb hh hv ht
      exact ⟨_, execDeferredTrap_ready hrun (nextDeferred_of_firstPending hfirst) hh hhold hrec hdone, hent, hpend, hmem⟩
    · have hmem := firstPending_mem hfirst
      have hstop : x.stopPending = true := by obtain rfl | rfl := hc <;> simp [Seq.stopPending, Seq.active, hrun, hh, hmem]
      exact execDeferredTrap_stop hstop
  case budget =>
    refine ⟨_, execHandlerBudgetExpiry_spent hb hspent, ?_⟩
    rw [State.stopUnit_seq_same]
    exact ⟨rfl, rfl, State.traceEnd_seq (p := Seq.stores) (fun _ _ => rfl) c q s c q,
      State.traceEnd_seq (p := Seq.sregs) (fun _ _ => rfl) c q s c q⟩
  case rft =>
    refine ⟨fun hh => runSlot_trap hl (semRft_outside hh), fun hh hb hload => runSlot_wait hl (semRft_waits hh hb hload),
      fun hh hb => ⟨_, runSlot_ended hl (semRft_budget hh hb) rfl, ?_, rfl⟩, fun o r hh hb hloads hlate ht hshadow => ?_⟩
    · rw [State.me_endIssue (aside_cur.stopUnit ..), State.stopUnit_run, if_pos ⟨rfl, rfl⟩]
    · obtain ⟨hmem, hme⟩ := rft_returned hlate ht
      refine ⟨_, runSlot_ended hl (semRft_returns hh hb hloads) rfl, rfl, hmem, ?_⟩
      rw [hme, headCleared_leaveHandler]
      simp [Seq.leaveHandler, Seq.flagged, hshadow]
  case cancel =>
    have hlaunch : ((s.activeUnits l).foldl (fun s u => s.deliver .cancel u) (s.setLaunch id { l with
        isFailed := true, cancelled := true, onEmpty := .complete, ckpt := none, drain := none })).launch id = some { l with
          isFailed := true, cancelled := true, onEmpty := .complete, ckpt := none, drain := none } := by
      rw [State.launch, foldl_same State.launches _ (fun s u => State.deliver_launches s _ u)]
      exact State.launch_setLaunch ..
    refine ⟨_, _, execCancel_running hl hr, hlaunch, rfl, rfl, ?mem, fun u hu => ?told⟩
    case mem => exact foldl_deliver_mem _ _ hoff
    case told =>
      obtain ⟨-, -, ha⟩ := (State.mem_activeUnits s l u.1 u.2).mp hu
      obtain ⟨hstop, hpend⟩ := foldl_deliver_told (cause := .cancel) (v := u) ha (s.activeUnits l)
        (s.setLaunch id { l with isFailed := true, cancelled := true, onEmpty := .complete, ckpt := none, drain := none }) (.inr ⟨hu, rfl⟩)
      split
      · exact hstop ‹_›
      · exact (hpend ‹_›).1
  case phase =>
    obtain ⟨hlevel, hposted, hmem⟩ := State.postPhase_posts hp
    refine ⟨_, _, ?_, hlevel, rfl, rfl, hposted, hmem⟩
    change execPhaseRecordPost p s = _
    simp only [execPhaseRecordPost, hp, hr, if_true]

end Sys2Proof.Proofs
end


section
/-! Barriers, supersteps and circuits (O48). -/
-- One proof after the other: elaborated side by side, the whole text's proofs need more memory than the check has.
set_option Elab.async false
namespace Sys2Proof.Machine
open Sys2Proof.Claims Sys2Proof.Laws

/-! ### What the decision of a wait leaves alone (R212, R218, R226) -/

/-- The barrier tables of all dies, memory, and of every sequencer its last arrival and the order of its store queue. -/
structure State.Settled (s t : State) : Prop where
  mem : t.mem = s.mem
  barriers : ∀ d, (t.die d).barriers = (s.die d).barriers
  arrival : ∀ c q, (t.seq c q).arrival = (s.seq c q).arrival
  stores : ∀ c q, (t.seq c q).stores.map (·.order) = (s.seq c q).stores.map (·.order)

theorem State.Settled.refl (s : State) : State.Settled s s := ⟨rfl, fun _ => rfl, fun _ _ => rfl, fun _ _ => rfl⟩

theorem State.Settled.trans {s t u : State} (h : State.Settled s t) (h' : State.Settled t u) : State.Settled s u :=
  ⟨h'.mem.trans h.mem, fun d => (h'.barriers d).trans (h.barriers d), fun c q => (h'.arrival c q).trans (h.arrival c q),
    fun c q => (h'.stores c q).trans (h.stores c q)⟩

theorem State.Settled.modSeq (s : State) (c q : Nat) (f : Seq → Seq) (ha : ∀ x, (f x).arrival = x.arrival)
    (hs : ∀ x, (f x).stores.map (·.order) = x.stores.map (·.order)) : State.Settled s (s.modSeq c q f) :=
  ⟨rfl, fun _ => rfl, State.seq_modSeq_same Seq.arrival s c q f ha,
    State.seq_modSeq_same (fun x => x.stores.map (·.order)) s c q f hs⟩

/-- A change of a core that keeps its sequencers. -/
theorem State.Settled.modCore (s : State) (c : Nat) (f : Core → Core) (hf : ∀ k, (f k).seqs = k.seqs) : State.Settled s (s.modCore c f) := by
  have hseq : ∀ k u, (s.modCore c f).seq k u = s.seq k u := by
    intro k u
    by_cases hk : k = c
    · subst hk
      rw [State.seq, State.core_modCore, Core.seq, hf]
      rfl
    · rw [State.seq, State.core_modCore_ne s f hk, State.seq]
  exact ⟨rfl, fun _ => rfl, fun k u => by rw [hseq], fun k u => by rw [hseq]⟩

theorem State.die_modDie_ne (s : State) {d e : Nat} (f : Die → Die) (h : e ≠ d) : (s.modDie d f).die e = s.die e :=
  mapGet_insert_ne _ _ _ h

theorem State.Settled.modDie (s : State) (d : Nat) (f : Die → Die) (hf : ∀ x, (f x).barriers = x.barriers) :
    State.Settled s (s.modDie d f) := by
  refine ⟨rfl, fun e => ?_, fun _ _ => rfl, fun _ _ => rfl⟩
  by_cases he : e = d
  · subst he
    rw [State.die_modDie, hf]
  · rw [State.die_modDie_ne s f he]

theorem Seq.join_orders (x : Seq) (o : Nat) (g : Past) : (x.join o g).stores.map (·.order) = x.stores.map (·.order) := by
  simp only [Seq.join, List.map_map]
  refine List.map_congr_left fun e _ => ?_
  simp only [Function.comp]
  split <;> rfl

theorem State.Settled.joinCore (s : State) (c q o : Nat) (g : Past) : State.Settled s (s.modCore c fun k => k.join q o g) := by
  have hseq := State.Settled.modSeq s c q (fun x => x.join o g) (fun _ => rfl) (fun x => Seq.join_orders x o g)
  refine hseq.trans ⟨rfl, fun _ => rfl, fun k u => ?_, fun k u => ?_⟩ <;>
  · by_cases hk : k = c
    · subst hk
      simp only [State.seq, State.core_modCore, State.modSeq, State.setSeq, State.core_setCore]
      rfl
    · simp only [State.seq, State.core_modCore_ne s _ hk, State.modSeq, State.setSeq, State.core_setCore_ne s _ hk]

theorem State.Settled.performed (s : State) (c q o : Nat) (v : Value) (m : Option Cause) : State.Settled s (s.performed c q o v m) :=
  State.Settled.modSeq s c q (fun x => x.editLoad o fun e => { e with performed := true, value := v, mark := m, parts := [] })
    (fun _ => rfl) (fun _ => rfl)

theorem State.Settled.dropNamed (s : State) (c scope : Nat) (g : BitVec 1024) : State.Settled s (s.dropNamed c scope g) := by
  have hbank : State.Settled s (if 2 ≤ scope then s.modCore c fun k => { k with cache := k.cache.filter fun l => !names g l.line } else s) := by
    split
    · exact State.Settled.modCore s c _ fun _ => rfl
    · exact State.Settled.refl s
  unfold State.dropNamed
  dsimp only
  split
  · exact hbank.trans (State.Settled.modDie _ _ _ fun _ => rfl)
  · exact hbank

theorem State.Settled.acquires (s : State) (c q o scope : Nat) (g : BitVec 1024) (p : Past) :
    State.Settled s (s.acquires c q o scope g p) :=
  ((State.Settled.dropNamed s c scope g).trans (State.Settled.joinCore _ c q (o + 1) p)).trans
    (State.Settled.modSeq _ c q (fun x => { x with streams := x.streams.map fun e => (e.1, { e.2 with frame := none }) })
      (fun _ => rfl) (fun _ => rfl))

theorem State.Settled.settleWait (s : State) (c q : Nat) : State.Settled s (s.settleWait c q) := by
  unfold State.settleWait
  split
  · split
    · split
      · exact State.Settled.performed ..
      · split
        · exact State.Settled.performed ..
        · split
          · exact (State.Settled.acquires ..).trans (State.Settled.performed ..)
          · exact State.Settled.refl s
    · exact State.Settled.refl s
  · exact State.Settled.refl s

theorem State.Settled.settleWaits (s : State) : State.Settled s s.settleWaits :=
  foldl_keeps (State.Settled s) _ (fun t u h => h.trans (State.Settled.settleWait t u.1 u.2)) _ s (State.Settled.refl s)

theorem State.Settled.barrierAt {s t : State} (h : State.Settled s t) (d i : Nat) : t.barrierAt d i = s.barrierAt d i := by
  rw [State.barrierAt, h.barriers, State.barrierAt]

theorem State.Settled.liveBarrier {s t : State} (h : State.Settled s t) (w : Word) : t.liveBarrier w = s.liveBarrier w := by
  simp only [State.liveBarrier, h.barrierAt]

/-! ### Entries of the barrier tables (R223) -/

theorem handleIndex_eq (h : Word) : handleIndex h = h.toNat % 4096 := by simp [handleIndex, bits_eq]
theorem handleDie_eq (h : Word) : handleDie h = h.toNat / 2 ^ 18 % 4 := by simp [handleDie, bits_eq]

@[simp] theorem State.barrierAt_setBarrier (s : State) (d i : Nat) (b : Barrier) : (s.setBarrier d i b).barrierAt d i = b := by
  rw [State.barrierAt, State.setBarrier, State.die_modDie]
  exact mapGet_set_same ..

theorem State.liveBarrier_setBarrier_free (s : State) (h : Word) (b : Barrier) :
    (s.setBarrier (handleDie h) (handleIndex h) { b with taken := false }).liveBarrier h = none := by
  simp [State.liveBarrier]

theorem Release.mem_addTo (r : Release) (l : List Release) :
    ∃ x ∈ r.addTo l, x.party = r.party ∧ x.scope = r.scope ∧ ∃ g : Past, x.chain = g.join r.chain := by
  induction l with
  | nil => exact ⟨r, List.mem_cons_self, rfl, rfl, {}, (Past.empty_join _).symm⟩
  | cons y l ih =>
    unfold Release.addTo
    split
    · rename_i h
      obtain ⟨hp, hs⟩ : y.party = r.party ∧ y.scope = r.scope := by simpa using h
      exact ⟨_, List.mem_cons_self, hp, hs, y.chain, rfl⟩
    · obtain ⟨x, hx, hr⟩ := ih
      exact ⟨x, List.mem_cons_of_mem y hx, hr⟩

/-! ### The head of the store queue and the next load (R96, R101, R102) -/

theorem nextStore_eq {x : Seq} {y : StoreEntry} (h : NextStore x y) : x.nextStore = some y := by
  obtain ⟨hh, hl⟩ := h
  obtain ⟨ys, hys⟩ := List.head?_eq_some_iff.mp hh
  have hgo : x.storeMayGo y = true := by simpa [Seq.storeMayGo, Seq.allLoads, or_imp, forall_and] using hl
  simp only [Seq.nextStore, hys, hgo, if_true]

theorem nextLoad_eq {x : Seq} {e : LoadEntry} (h : NextLoad x e) : x.nextLoad = some e := h.1

theorem State.dropStore_seq (s : State) (c q : Nat) : (s.dropStore c q).seq c q = { s.seq c q with stores := (s.seq c q).stores.tail } :=
  State.seq_modSeq ..

theorem Seq.addPending_mem {x : Seq} (c : Cause) (h : x.run = .running) : c ∈ (x.addPending c).pending := by
  unfold Seq.addPending
  simp only [Seq.active, h]
  by_cases hc : c ∈ x.pending <;> simp [hc]

/-- An entry that is performed has the value and the mark, and no other has them from it (R101). -/
theorem performedWith_performed (s : State) (c q o : Nat) (v : Value) (m : Option Cause) :
    PerformedWith ((s.performed c q o v m).seq c q) o v m := by
  have hs : (s.performed c q o v m).seq c q =
      (s.seq c q).editLoad o fun e => { e with performed := true, value := v, mark := m, parts := [] } := State.seq_modSeq ..
  rw [hs]
  intro e he ho
  have hedit : ∀ l : List LoadEntry, e ∈ editLoads o (fun e => { e with performed := true, value := v, mark := m, parts := [] }) l →
      e.performed = true ∧ e.value = v ∧ e.mark = m := by
    intro l hl
    obtain ⟨x, -, hx⟩ := List.mem_map.mp (List.mem_of_mem_filter hl)
    split at hx
    · subst hx
      exact ⟨rfl, rfl, rfl⟩
    · subst hx
      contradiction
  exact (List.mem_append.mp he).elim (hedit _) (hedit _)

/-! ### Arrivals and frees (R225, R227) -/

section
variable {c q : Nat} {s : State} {y : StoreEntry} {h : Word} {b : Barrier}

/-- A sequencer whose arrival is at the table. -/
def State.arrived (s : State) (c q : Nat) (h : Word) (phase : Nat) : State :=
  (s.dropStore c q).modSeq c q fun x => { x with arrival := some (h, phase) }

/-- An arrival leaves its queue; that the barrier knows it, and what it carries, is counted (R225). -/
theorem execBarrierArrival_live {g : BitVec 1024} {scope : Nat} (hn : NextStore (s.seq c q) y) (hk : y.kind = .arrival h g scope)
    (hcut : s.ringCut (dieOf c) (handleDie h) = false) (hb : s.liveBarrier h = some b) :
    execBarrierArrival c q s = .next ((s.arrived c q h b.phase).countArrival h b g
      { party := some (c, q), scope := scope, chain := s.past c q y.chain }) := by
  have hc : (s.dropStore c q).ringCut (dieOf c) (handleDie h) = false := hcut
  have hl : (s.dropStore c q).liveBarrier h = some b := hb
  simp only [execBarrierArrival, nextStore_eq hn, hk, hc, hl, Bool.false_eq_true, if_false]
  rfl

theorem execBarrierArrival_gone {g : BitVec 1024} {scope : Nat} (hn : NextStore (s.seq c q) y) (hk : y.kind = .arrival h g scope)
    (hcut : s.ringCut (dieOf c) (handleDie h) = false) (hb : s.liveBarrier h = none) :
    execBarrierArrival c q s =
      .next ((s.dropStore c q).modSeq c q fun x => { x with rsig := x.rsig ||| g }.addPending .barrierGeneration) := by
  have hc : (s.dropStore c q).ringCut (dieOf c) (handleDie h) = false := hcut
  have hl : (s.dropStore c q).liveBarrier h = none := hb
  simp only [execBarrierArrival, nextStore_eq hn, hk, hc, hl, Bool.false_eq_true, if_false]

theorem execBarrierEntryFree_live (hn : NextStore (s.seq c q) y) (hk : y.kind = .bfree h)
    (hcut : s.ringCut (dieOf c) (handleDie h) = false) (hb : s.liveBarrier h = some b) : execBarrierEntryFree c q s =
      .next ((s.dropStore c q).setBarrier (handleDie h) (handleIndex h) { b with taken := false }).settleWaits := by
  have hc : (s.dropStore c q).ringCut (dieOf c) (handleDie h) = false := hcut
  have hl : (s.dropStore c q).liveBarrier h = some b := hb
  simp only [execBarrierEntryFree, nextStore_eq hn, hk, hc, hl, Bool.false_eq_true, if_false]

theorem execBarrierEntryFree_gone (hn : NextStore (s.seq c q) y) (hk : y.kind = .bfree h)
    (hcut : s.ringCut (dieOf c) (handleDie h) = false) (hb : s.liveBarrier h = none) :
    execBarrierEntryFree c q s = .next ((s.dropStore c q).modSeq c q fun x => x.addPending .barrierGeneration) := by
  have hc : (s.dropStore c q).ringCut (dieOf c) (handleDie h) = false := hcut
  have hl : (s.dropStore c q).liveBarrier h = none := hb
  simp only [execBarrierEntryFree, nextStore_eq hn, hk, hc, hl, Bool.false_eq_true, if_false]

theorem countArrival_last (g : BitVec 1024) (r : Release) (hl : b.count + 1 = b.parties) : State.Settled
    (s.setBarrier (handleDie h) (handleIndex h) { b with
      sig := 0, count := 0, phase := b.phase + 1, doneSigs := mapInsert b.phase (b.sig ||| g) b.doneSigs, arrivals := r.addTo b.arrivals,
      doneArrivals := mapInsert b.phase (r.addTo b.arrivals) b.doneArrivals }) (s.countArrival h b g r) := by
  simp only [State.countArrival, if_pos hl]
  exact State.Settled.settleWaits _

theorem countArrival_more (g : BitVec 1024) (r : Release) (hl : b.count + 1 ≠ b.parties) : s.countArrival h b g r =
    s.setBarrier (handleDie h) (handleIndex h) { b with sig := b.sig ||| g, count := b.count + 1, arrivals := r.addTo b.arrivals } := by
  simp only [State.countArrival, if_neg hl]

end

theorem State.arrived_seq {c q : Nat} {s : State} {y : StoreEntry} {rest : List StoreEntry} (hst : (s.seq c q).stores = y :: rest)
    (h : Word) (n : Nat) : (s.arrived c q h n).seq c q = { s.seq c q with stores := rest, arrival := some (h, n) } := by
  rw [State.arrived, State.seq_modSeq, State.dropStore_seq, hst]
  rfl

theorem State.arrived_rsig (s : State) (c q : Nat) (h : Word) (n k u : Nat) : ((s.arrived c q h n).seq k u).rsig = (s.seq k u).rsig :=
  (State.seq_modSeq_same Seq.rsig (s.dropStore c q) c q (fun x => { x with arrival := some (h, n) }) (fun _ => rfl) k u).trans
    (State.seq_modSeq_same Seq.rsig s c q (fun x => { x with stores := x.stores.tail }) (fun _ => rfl) k u)

theorem State.seq_setBarrier (s : State) (d i : Nat) (b : Barrier) (c q : Nat) : (s.setBarrier d i b).seq c q = s.seq c q := rfl

theorem State.mem_setBarrier (s : State) (d i : Nat) (b : Barrier) : (s.setBarrier d i b).mem = s.mem := rfl

/-- What an arrival of a sequencer at a live entry leaves, whether or not its phase completes (R225). -/
theorem arrivalCounted_counted {c q : Nat} {s : State} {y : StoreEntry} {rest : List StoreEntry} (hst : (s.seq c q).stores = y :: rest)
    (h : Word) (b : Barrier) (g : BitVec 1024) {r : Release} {scope : Nat} {past : Past} (hp : r.party = some (c, q)) (hs : r.scope = scope)
    (hc : r.chain = past) :
    let t := (s.arrived c q h b.phase).countArrival h b g r
    let e := t.barrierAt (handleDie h) (handleIndex h)
    (t.seq c q).stores.map (·.order) = rest.map (·.order) ∧ t.mem = s.mem ∧ (t.seq c q).arrival = some (h, b.phase) ∧
      (b.count + 1 = b.parties → e.phase = b.phase + 1 ∧ e.count = 0 ∧ e.sig = 0 ∧ mapGet 0 e.doneSigs b.phase = b.sig ||| g) ∧
      (b.count + 1 ≠ b.parties → e.phase = b.phase ∧ e.count = b.count + 1 ∧ e.sig = b.sig ||| g ∧
        (t.seq c q).rsig = (s.seq c q).rsig ∧ (t.seq c (1 - q)).rsig = (s.seq c (1 - q)).rsig ∧
        ∃ r ∈ e.arrivals, r.party = some (c, q) ∧ r.scope = scope ∧ ∃ g : Past, r.chain = g.join past) := by
  have hseq := State.arrived_seq hst h b.phase
  dsimp only
  by_cases hl : b.count + 1 = b.parties
  · have hset := countArrival_last (s := s.arrived c q h b.phase) (h := h) g r hl
    rw [hset.stores, hset.mem, hset.arrival, hset.barrierAt, State.barrierAt_setBarrier, State.seq_setBarrier, State.mem_setBarrier, hseq]
    exact ⟨rfl, rfl, rfl, fun _ => ⟨rfl, rfl, rfl, mapGet_insert_same ..⟩, fun hn => absurd hl hn⟩
  · rw [countArrival_more g r hl, State.barrierAt_setBarrier, State.seq_setBarrier, State.seq_setBarrier, State.mem_setBarrier,
      State.arrived_rsig, State.arrived_rsig, hseq]
    refine ⟨rfl, rfl, rfl, fun hn => absurd hn hl, fun _ => ⟨rfl, rfl, rfl, rfl, rfl, ?_⟩⟩
    obtain ⟨x, hx, hxp, hxs, k, hk⟩ := r.mem_addTo b.arrivals
    exact ⟨x, hx, hxp.trans hp, hxs.trans hs, k, hk.trans (congrArg _ hc)⟩

/-! ### The limit of a wait, and a link that is down (R226, R319) -/

section
variable {c q : Nat} {s : State} {e : LoadEntry} {h : Word} {limit deadline scope p : Nat}

theorem settleWait_cut (hn : NextLoad (s.seq c q) e) (hk : e.kind = .bwait h limit deadline scope (some p))
    (hcut : s.ringCut (dieOf c) (handleDie h) = true) : s.settleWait c q = s.performed c q e.order (.s 0) (some .eccUncorrectable) := by
  simp only [State.settleWait, nextLoad_eq hn, hk, hcut, if_true]

theorem expireWait_due (hn : NextLoad (s.seq c q) e) (hk : e.kind = .bwait h limit deadline scope (some p))
    (hcut : s.ringCut (dieOf c) (handleDie h) = false) (hlim : limit ≠ 0xFFFFFFFF) (hd : deadline ≤ s.clock)
    (hmet : ∀ b, s.liveBarrier h = some b → b.phase ≤ p) : s.expireWait c q = s.performed c q e.order (.s 1) none := by
  have hdue : (s.seq c q).limitDue s.clock = true := by simp [Seq.limitDue, nextLoad_eq hn, hk, hlim, hd]
  have hno : s.waitMet c q = false := by
    simp only [State.waitMet, State.awaiting, nextLoad_eq hn, hk]
    cases hb : s.liveBarrier h with
    | none => rfl
    | some b => simpa using hmet b hb
  have hw : s.waitCut c q = false := by simp only [State.waitCut, nextLoad_eq hn, hk, hcut]
  simp only [State.expireWait, nextLoad_eq hn, hdue, hno, hw, Bool.not_false, Bool.and_self, if_true]
  rfl

end

/-! ### Supersteps (R228, R307) -/

theorem State.stepLanded_iff (s : State) (l : Launch) : s.stepLanded l = true ↔ AllLanded s l.cores (s.stepGroup l) := by
  have hunit : ∀ x : Seq, (x.allPerformed && x.repliesLanded s.clock) = true ↔
      x.stores = [] ∧ ∀ e ∈ x.loads ++ x.handlerLoads, e.performed = true ∧ e.landsAt ≤ s.clock := fun x => by
    simp only [Bool.and_eq_true, Seq.allPerformed, Seq.repliesLanded, Seq.allLoads, List.isEmpty_iff, List.all_eq_true, decide_eq_true_eq]
    constructor
    · rintro ⟨⟨hs, hp⟩, hl⟩
      exact ⟨hs, fun e he => ⟨hp e he, hl e he⟩⟩
    · rintro ⟨hs, hp⟩
      exact ⟨⟨hs, fun e he => (hp e he).1⟩, fun e he => (hp e he).2⟩
  simp only [State.stepLanded, AllLanded, Bool.and_eq_true, List.all_eq_true, hunit, List.isEmpty_iff, Bool.not_eq_true',
    List.contains_eq_mem, decide_eq_false_iff_not, and_assoc]

/-- A member whose wait has ended. -/
def Seq.SteppedOn (x : Seq) : Prop := x.stepDone = true ∧ x.hold = none

theorem Seq.stepOn_steppedOn {x : Seq} (h : x.inStep = true ∨ x.SteppedOn) : x.stepOn.SteppedOn := by
  unfold Seq.stepOn
  split
  · exact ⟨rfl, rfl⟩
  · exact h.resolve_left ‹_›

theorem Seq.stepOn_stepDone {x : Seq} (h : x.stepDone = true) : x.stepOn.stepDone = true := by
  unfold Seq.stepOn
  split
  · rfl
  · exact h

/-- A change made to every sequencer of a list reaches each of them, and keeps what it keeps. -/
theorem foldl_modSeq_reaches {f : Seq → Seq} {p r : Seq → Prop} (hf : ∀ x, p x ∨ r x → r (f x)) {v : Nat × Nat} (us : List (Nat × Nat))
    (t : State) (h : r (t.seq v.1 v.2) ∨ v ∈ us ∧ p (t.seq v.1 v.2)) :
    r ((us.foldl (fun s u => s.modSeq u.1 u.2 f) t).seq v.1 v.2) := by
  induction us generalizing t with
  | nil => exact h.resolve_right (by simp)
  | cons u us ih =>
    refine ih _ ?_
    by_cases hv : v = u
    · subst hv
      rw [State.seq_modSeq]
      exact .inl (hf _ (h.elim .inr fun h => .inl h.2))
    · have hne : v.1 ≠ u.1 ∨ v.2 ≠ u.2 := by
        by_contra hc
        exact hv (Prod.ext (by tauto) (by tauto))
      rw [State.seq_modSeq_ne t f hne]
      exact h.imp id fun h => ⟨(List.mem_cons.mp h.1).resolve_left hv, h.2⟩

/-- A unit that takes part in the next step. -/
def Seq.joined (x : Seq) : Seq := { x with stepJoin := false }

theorem State.endStep_eq (s : State) (id : Nat) (l : Launch) : ∃ (o : NMap Past) (us : List (Nat × Nat)), s.endStep id l =
    (us.foldl (fun (s : State) u => s.modSeq u.1 u.2 Seq.joined)
      ((s.stepGroup l).foldl (fun (s : State) u => s.modSeq u.1 u.2 Seq.stepOn) { s with ownStores := o })).modLaunch id
        fun l => { l with stepping := none } := ⟨_, _, rfl⟩

theorem foldl_modSeq_same {β : Type} (g : State → β) (hg : ∀ s c q f, g (s.modSeq c q f) = g s) (f : Seq → Seq) (us : List (Nat × Nat))
    (t : State) : g (us.foldl (fun s u => s.modSeq u.1 u.2 f) t) = g t :=
  foldl_same g _ (fun s u => hg s u.1 u.2 f) us t

/-- The end of a step: its clock and memory, the launch, and what becomes of a member (R228). -/
theorem State.endStep_leaves {s : State} {id : Nat} {l : Launch} (h : s.launch id = some l) :
    (s.endStep id l).clock = s.clock ∧ (s.endStep id l).mem = s.mem ∧ (s.endStep id l).launch id = some { l with stepping := none } ∧
    ∀ {p r : Seq → Prop}, (∀ x, p x ∨ r x → r x.stepOn) → (∀ x, r x → r x.joined) → ∀ v ∈ s.stepGroup l,
      p (s.seq v.1 v.2) ∨ r (s.seq v.1 v.2) → r ((s.endStep id l).seq v.1 v.2) := by
  obtain ⟨o, us, he⟩ := s.endStep_eq id l
  rw [he]
  refine ⟨?clock, ?mem, ?launch, ?unit⟩
  case clock =>
    rw [State.modLaunch_clock, foldl_modSeq_same State.clock (fun _ _ _ _ => rfl), foldl_modSeq_same State.clock (fun _ _ _ _ => rfl)]
  case mem =>
    rw [State.modLaunch_mem, foldl_modSeq_same State.mem (fun _ _ _ _ => rfl), foldl_modSeq_same State.mem (fun _ _ _ _ => rfl)]
  case launch =>
    rw [State.launch_modLaunch, if_pos rfl, foldl_modSeq_same (State.launch · id) (fun _ _ _ _ => rfl),
      foldl_modSeq_same (State.launch · id) (fun _ _ _ _ => rfl)]
    exact congrArg (Option.map _) h
  case unit =>
    intro p r hon hjoin v hv hx
    rw [State.seq_of_cores (State.modLaunch_cores ..)]
    exact foldl_modSeq_reaches (p := r) (fun x hx => hjoin x (hx.elim (fun h => h) fun h => h)) _ _
      (.inl (foldl_modSeq_reaches hon _ _ (hx.symm.imp (fun h => h) fun hp => ⟨hv, hp⟩)))

section
variable {s : State} {id : Nat} {l : Launch}

theorem State.beginStep_waits (h : s.launch id = some l) (hr : l.state = .running) (hs : l.stepping = none) (hc : s.clock % 512 = 0)
    (hg : s.stepGroup l ≠ []) (hall : ∀ u ∈ s.stepGroup l, (s.seq u.1 u.2).inStep = true) :
    s.beginStep id = if s.stepLanded l then s.endStep id l else s.setLaunch id { l with stepping := some s.clock } := by
  have hw : s.stepWaits l = true := by
    simp [State.stepWaits, hr, hs, hc, hg, List.all_eq_true.mpr hall, Config.revolution]
  simp only [State.beginStep, h, hw, if_true]

theorem State.finishStep_over {c : Nat} (h : s.launch id = some l) (hs : l.stepping = some c) (hlt : c < s.clock)
    (hc : s.clock % 512 = 0) (hl : s.stepLanded l = true) : s.finishStep id = s.endStep id l := by
  have ho : s.stepOver l = true := by simp [State.stepOver, hs, hlt, hc, hl, Config.revolution]
  simp only [State.finishStep, h, ho, if_true]

end

/-! ### Circuits (R229 to R231, R315) -/

theorem pickLeast_mem {α : Type} (f : α → Nat) {l : List α} (h : l ≠ []) : ∃ x ∈ l, pickLeast f l = some x := by
  induction l with
  | nil => exact absurd rfl h
  | cons x l ih =>
    unfold pickLeast
    cases hp : pickLeast f l with
    | none => exact ⟨x, List.mem_cons_self, rfl⟩
    | some y =>
      have hy : y ∈ l := by
        obtain ⟨z, hz, hpz⟩ := ih (by rintro rfl; simp [pickLeast] at hp)
        rwa [← Option.some.inj (hpz.symm.trans hp)] at *
      dsimp only
      split
      · exact ⟨y, List.mem_cons_of_mem x hy, rfl⟩
      · exact ⟨x, List.mem_cons_self, rfl⟩

/-- The least of a list that holds only one element. -/
theorem pickLeast_unique {α : Type} (f : α → Nat) {l : List α} {a : α} (ha : a ∈ l) (h : ∀ x ∈ l, x = a) : pickLeast f l = some a := by
  obtain ⟨x, hx, hp⟩ := pickLeast_mem f (List.ne_nil_of_mem ha)
  rw [hp, h x hx]

/-- A lone departure (R230). -/
theorem execCxSendDepart_one {c i : Nat} {s : State} (h : s.departures c = [i]) : execCxSendDepart c s = .next (s.depart c i) := by
  simp only [execCxSendDepart, h]

/-- What a vector that may depart has behind it (R212, R230, R231). -/
theorem mayDepart_vector {s : State} {c i t : Nat} {v : Vec} {k : Nat} {e : SendEntry} (hm : s.mayDepart c i = true)
    (he : (s.core c).sends[i]? = some e) (hk : e.send = .vector t v k) :
    k + 2 ≤ s.clock ∧ (s.core t).circuit.length < (s.core t).circuitCap ∧ (∀ y ∈ (s.seq c e.q).stores, e.order < y.order) ∧
      (∀ y ∈ (s.seq c e.q).loads ++ (s.seq c e.q).handlerLoads, y.performed = true ∨ e.order < y.order ∨
        ∃ h l d sc p, y.kind = .bwait h l d sc p) ∧
      (dieOf t = dieOf c → ∀ g ∈ s.flights, g.src = c → g.target = t → g.left ≠ s.clock) := by
  simp only [State.mayDepart, he, hk, Send.target, Send.entered, Bool.and_eq_true, decide_eq_true_eq, State.circuitRoom,
    Core.sendOrdered, List.all_eq_true, State.slotOpen, Bool.or_eq_true] at hm
  obtain ⟨⟨⟨-, hent⟩, hslot⟩, hroom, hstores, hloads⟩ := hm
  refine ⟨hent, by omega, hstores, fun y hy => ?_, fun hd g hg hsrc htgt hleft => ?_⟩
  · obtain (hp | ho) | hw := hloads y hy
    · exact .inl hp
    · exact .inr (.inl ho)
    · cases hy : y.kind <;> simp_all
  · have hno := hslot.resolve_left (by simp [hd])
    simp only [Bool.not_eq_true', List.any_eq_false, Bool.and_eq_true, beq_iff_eq] at hno
    exact hno.2 g hg ⟨⟨hsrc, htgt⟩, hleft⟩

theorem State.landingClock_le (s : State) (c t : Nat) : s.clock + 3 ≤ (s.landingClock c t).1 := by
  unfold State.landingClock
  split
  · simp only [slotLands]
    omega
  · simp

theorem State.landingClock_keeps (s : State) (c t : Nat) : (s.landingClock c t).2.flights = s.flights ∧
    (s.landingClock c t).2.cores = s.cores := by
  unfold State.landingClock
  split <;> exact ⟨rfl, rfl⟩

theorem foldl_max_le {α : Type} (p : α → Bool) (f : α → Nat) (l : List α) (m : Nat) :
    m ≤ l.foldl (fun m x => if p x then max m (f x) else m) m ∧
      ∀ x ∈ l, p x = true → f x ≤ l.foldl (fun m x => if p x then max m (f x) else m) m := by
  induction l generalizing m with
  | nil => simp
  | cons y l ih =>
    obtain ⟨hm, hl⟩ := ih (if p y then max m (f y) else m)
    refine ⟨Nat.le_trans ?_ hm, fun x hx hp => ?_⟩
    · split <;> omega
    · obtain rfl | hx := List.mem_cons.mp hx
      · refine Nat.le_trans ?_ hm
        rw [if_pos hp]
        omega
      · exact hl x hx hp

/-- The vector on its way, behind those of its pair before it (R230). -/
theorem sendFlight_leaves (s : State) (c t : Nat) (v : Vec) (g : Past) : ∃ f : Flight, (s.sendFlight c t v g).flights = s.flights ++ [f] ∧
    (s.sendFlight c t v g).cores = s.cores ∧ f.src = c ∧ f.target = t ∧ f.val = v ∧ f.poisoned = s.ringCut (dieOf c) (dieOf t) ∧
    f.chain = g ∧ f.left = s.clock ∧ s.clock + 3 ≤ f.clock ∧ ∀ x ∈ s.flights, x.src = c → x.target = t → x.clock ≤ f.clock := by
  obtain ⟨hf, hc⟩ := State.landingClock_keeps s c t
  refine ⟨_, congrArg (· ++ _) hf, hc, rfl, rfl, rfl, rfl, rfl, rfl, ?_, fun x hx hs ht => ?_⟩
  · exact Nat.le_trans (State.landingClock_le s c t) (Nat.le_max_right ..)
  · refine Nat.le_trans ?_ (Nat.le_max_left ..)
    exact (foldl_max_le (fun f : Flight => f.src == c && f.target == t) (·.clock) s.flights 0).2 x hx (by simp [hs, ht])

/-- A vector arrives behind what has arrived before (R230). -/
theorem execCxVectorArrive_one {c : Nat} {s : State} {f : Flight} (hf : f ∈ s.flights) (ht : f.target = c) (hc : f.clock ≤ s.clock)
    (hone : ∀ g ∈ s.flights, g.target = c → g.clock ≤ s.clock → g = f) : execCxVectorArrive c s =
      .next (({ s with flights := s.flights.erase f } : State).modCore c fun k =>
        { k with circuit := k.circuit ++ [{ src := f.src, val := f.val, poisoned := f.poisoned, chain := f.chain }] }) := by
  have hn : s.nextFlight c = some f := by
    refine pickLeast_unique _ (List.mem_filter.mpr ⟨hf, by simp [ht, hc]⟩) fun g hg => ?_
    obtain ⟨hm, hp⟩ := List.mem_filter.mp hg
    simp only [Bool.and_eq_true, beq_iff_eq, decide_eq_true_eq] at hp
    exact hone g hm hp.1 hp.2
  simp only [execCxVectorArrive, hn]

/-! ### Multicasts (R231) -/

/-- Bytes written at an offset: where one is given it stands there, and elsewhere the table keeps what it has. -/
theorem mapGet_writeBytes (m : NMap Byte) (off : Nat) (bs : List (Option Byte)) (a : Nat) :
    mapGet 0 (writeBytes m off bs) a = (if off ≤ a then bs.getD (a - off) none else none).getD (mapGet 0 m a) := by
  induction bs generalizing m off with
  | nil => simp [writeBytes]
  | cons b bs ih =>
    unfold writeBytes
    rw [ih]
    obtain hlt | rfl | hgt := Nat.lt_trichotomy a off
    · have h1 : ¬ off ≤ a := by omega
      have h2 : ¬ off + 1 ≤ a := by omega
      cases b <;> simp [h1, h2, mapGet_set, Nat.ne_of_lt hlt]
    · cases b <;> simp
    · obtain ⟨n, rfl⟩ : ∃ n, a = off + 1 + n := ⟨a - (off + 1), by omega⟩
      have h1 : off + 1 + n - off = n + 1 := by omega
      have h2 : off + 1 + n - (off + 1) = n := by omega
      have h3 : off ≤ off + 1 + n := by omega
      have h4 : off + 1 + n ≠ off := by omega
      cases b <;> simp [h1, h2, h3, h4, mapGet_set]

theorem getD_flatten_blocks {α : Type} (d : α) {n : Nat} (f : Nat → List α) (hf : ∀ i, (f i).length = n) (m : Nat) {i j : Nat}
    (hi : i < m) (hj : j < n) : (((List.range m).map f).flatten).getD (n * i + j) d = (f i).getD j d := by
  induction m with
  | zero => omega
  | succ m ih =>
    have hlen : (((List.range m).map f).flatten).length = n * m := by
      simp [List.length_flatten, Function.comp_def, hf, Nat.mul_comm]
    rw [List.range_succ, List.map_append, List.flatten_append]
    obtain hlt | rfl : i < m ∨ i = m := by omega
    · have hb : n * i + j < n * m := calc
        n * i + j < n * (i + 1) := by rw [Nat.mul_add]; omega
        _ ≤ n * m := Nat.mul_le_mul_left n hlt
      rw [List.getD_append _ _ _ _ (by omega), ih hlt]
    · rw [List.getD_append_right _ _ _ _ (by omega), hlen]
      simp

theorem length_natBytes (k n : Nat) : (natBytes k n).length = k := by
  induction k generalizing n with
  | zero => rfl
  | succ k ih => simp [natBytes, ih]

theorem getD_natBytes (k n : Nat) {j : Nat} (h : j < k) (d : Byte) : (natBytes k n).getD j d = BitVec.ofNat 8 (n / 256 ^ j) := by
  induction k generalizing n j with
  | zero => omega
  | succ k ih =>
    cases j with
    | zero => simp [natBytes]
    | succ j =>
      rw [natBytes, List.getD_cons_succ, ih _ (by omega), Nat.div_div_eq_div_mul, Nat.pow_succ, Nat.mul_comm]

/-- The bytes of a lane of a multicast (R231). -/
theorem getD_mcastBytes (m : McstFlight) {i j : Nat} (hi : i < 64) (hj : j < 4) : (mcastBytes m).getD (4 * i + j) none =
    if m.mask.getLsbD i then some ((lane m.val i).extractLsb' (8 * j) 8) else none := by
  unfold mcastBytes
  rw [getD_flatten_blocks none (n := 4) _ (fun i => by split <;> simp [length_natBytes]) 64 hi hj]
  split
  · have hb : (natBytes 4 (lane m.val i).toNat).getD j 0 = (lane m.val i).extractLsb' (8 * j) 8 := by
      rw [getD_natBytes 4 _ hj]
      refine BitVec.eq_of_toNat_eq ?_
      simp [Nat.shiftRight_eq_div_pow, Nat.pow_mul]
    have hlen : j < (natBytes 4 (lane m.val i).toNat).length := by rw [length_natBytes]; exact hj
    rw [← hb]
    simp [List.getD_eq_getElem?_getD, hlen]
  · simp only [List.getD_eq_getElem?_getD, List.getElem?_replicate]
    split <;> rfl

theorem McstFlight.land_spad (m : McstFlight) (k : Core) : (m.land k).spad = writeBytes k.spad m.off (mcastBytes m) := by
  unfold McstFlight.land
  dsimp only
  split <;> rfl

/-- A multicast with one target lands in its scratchpad (R231). -/
theorem execCxMcstLand_one {c k : Nat} {s : State} {m : McstFlight} (hm : s.mcasts = [m]) (hs : m.src = c) (hc : m.clock ≤ s.clock)
    (ht : m.targets = [k]) : execCxMcstLand c s = .next (({ s with mcasts := [] } : State).modCore k m.land) := by
  have hn : s.nextMcast c = some m := by simp [State.nextMcast, hm, hs, hc]
  have he : s.mcasts.erase m = [] := by simp [hm]
  simp only [execCxMcstLand, hn, State.landMcast, he, ht, List.foldl_cons, List.foldl_nil]

/-! ### The enlargement of a receive queue (R42) -/

theorem State.die_modCore (s : State) (c : Nat) (f : Core → Core) (d : Nat) : (s.modCore c f).die d = s.die d := rfl

theorem execCircuitQueueEnlarge_one {id c b : Nat} {s : State} {l : Launch} (h : s.launch id = some l) (hb : l.blockedFrom = some b)
    (hlong : b + 1024 ≤ s.clock) (hblocked : s.blocked l = true) (hc : c ∈ l.cores)
    (hfull : (s.core c).circuitCap ≤ (s.core c).circuit.length)
    (hone : ∀ k ∈ l.cores, (s.core k).circuitCap ≤ (s.core k).circuit.length → k = c) (hpool : (s.die l.die).pool ≠ 0) :
    execCircuitQueueEnlarge id s = .next (((s.setLaunch id { l with blockedFrom := none, enlarged := l.enlarged + 1 }).modDie l.die
      fun d => { d with pool := d.pool - 1 }).modCore c fun k => { k with circuitCap := k.circuitCap + 16 }) := by
  have hmem : c ∈ s.fullQueues l := List.mem_filter.mpr ⟨hc, by simpa using hfull⟩
  have hdue : s.enlargeDue l = true := by
    simp only [State.enlargeDue, hb, hblocked, Config.blockedClocks, Bool.and_eq_true, decide_eq_true_eq, Bool.not_eq_true',
      List.isEmpty_eq_false_iff]
    exact ⟨⟨hlong, trivial⟩, List.ne_nil_of_mem hmem⟩
  have htarget : s.enlargeTarget l = some c := by
    refine pickLeast_unique _ hmem fun k hk => ?_
    obtain ⟨hk, hp⟩ := List.mem_filter.mp hk
    exact hone k hk (by simpa using hp)
  simp only [execCircuitQueueEnlarge, h, hdue, htarget, hpool, if_true, if_false]

end Sys2Proof.Machine

namespace Sys2Proof.Proofs
open Sys2Proof Sys2Proof.Machine Sys2Proof.Claims Sys2Proof.Laws

/-- Settles O48: an arrival or a free writes one entry of the table, and the waits that it decides leave the tables and the queues'
order (`State.Settled`); the end of a step reaches every member, whatever its place in the group; the others read the one entry
that departs, lands or is enlarged. -/
theorem barriersStepsAndCircuits : Obligations.BarriersStepsAndCircuits := by
  unfold Obligations.BarriersStepsAndCircuits
  refine ⟨fun c q s y rest h hn hst hcut => ?barrier, fun c q s e h limit deadline scope p hn hk => ?wait,
    fun id s l hl hr => ?step, fun c i t0 s v k e hd he hk => ?depart, fun c s f hf ht hc hone => ?arrive,
    fun c k s m hm hs hc ht => ?mcast, fun id c b s l hl hb hlong hblocked hc hfull hone hpool => ?enlarge⟩
  case barrier =>
    rw [← handleDie_eq] at hcut ⊢
    rw [← handleIndex_eq]
    dsimp only
    refine ⟨fun g scope hk => ⟨fun hb => ⟨_, execBarrierArrival_live hn hk hcut hb, ?_⟩,
      fun hb => ⟨_, execBarrierArrival_gone hn hk hcut hb, ?_⟩⟩,
      fun hk => ⟨fun hb => ⟨_, execBarrierEntryFree_live hn hk hcut hb, ?_⟩, fun hb => ⟨_, execBarrierEntryFree_gone hn hk hcut hb, ?_⟩⟩⟩
    · exact arrivalCounted_counted hst _ _ _ rfl rfl rfl
    · rw [State.seq_modSeq, State.dropStore_seq, hst]
      exact ⟨rfl, rfl, rfl, fun hrun => Seq.addPending_mem _ hrun⟩
    · have hset := State.Settled.settleWaits
        ((s.dropStore c q).setBarrier (handleDie h) (handleIndex h) { s.barrierAt (handleDie h) (handleIndex h) with taken := false })
      rw [hset.barrierAt, hset.liveBarrier, hset.stores, hset.mem, State.barrierAt_setBarrier]
      refine ⟨?_, rfl, rfl, State.liveBarrier_setBarrier_free .., rfl⟩
      exact congrArg (List.map StoreEntry.order) ((congrArg Seq.stores (s.dropStore_seq c q)).trans (congrArg List.tail hst))
    · rw [State.seq_modSeq, State.dropStore_seq, hst]
      exact ⟨rfl, rfl, fun hrun => Seq.addPending_mem _ hrun⟩
  case wait =>
    rw [← handleDie_eq]
    refine ⟨fun hcut => ?_, fun hcut hlim hd hmet => ?_⟩
    · rw [settleWait_cut hn hk hcut]
      exact ⟨performedWith_performed s c q e.order _ _, rfl⟩
    · exact ⟨_, congrArg Host.Outcome.next (expireWait_due hn hk hcut hlim hd hmet), performedWith_performed s c q e.order _ _, rfl⟩
  case step =>
    intro group hc hg
    obtain ⟨hclock, hmem, hlaunch, hunit⟩ := State.endStep_leaves hl
    refine ⟨fun hs hall => ?_, fun c hs hlt hland => ?_⟩
    · have hin : ∀ u ∈ s.stepGroup l, (s.seq u.1 u.2).inStep = true := fun u hu => by
        obtain ⟨h1, h2, h3⟩ := hall u hu
        simp [Seq.inStep, h1, h2, h3]
      have hbegin := State.beginStep_waits hl hr hs hc hg hin
      refine ⟨fun hland => ?_, fun hland => ⟨s.endStep id l, ?_, hclock, fun u hu => ?_⟩⟩
      · rw [if_neg fun h => hland ((s.stepLanded_iff l).mp h)] at hbegin
        exact congrArg Host.Outcome.next hbegin
      · rw [if_pos ((s.stepLanded_iff l).mpr hland)] at hbegin
        exact congrArg Host.Outcome.next hbegin
      · exact hunit (p := fun x => x.inStep = true) (r := Seq.SteppedOn) (fun x => Seq.stepOn_steppedOn) (fun x hx => hx) u hu
          (.inl (hin u hu))
    · have hover := State.finishStep_over hl hs hlt hc ((s.stepLanded_iff l).mpr hland)
      refine ⟨s.endStep id l, _, congrArg Host.Outcome.next hover, hlaunch, rfl, hmem, fun u hu hrun hhold => ?_⟩
      refine hunit (p := fun x => x.inStep = true) (r := fun x => x.stepDone = true) (fun x hx => ?_) (fun x hx => hx) u hu ?_
      · exact hx.elim (fun h => (Seq.stepOn_steppedOn (.inl h)).1) Seq.stepOn_stepDone
      · cases hd : (s.seq u.1 u.2).stepDone with
        | true => exact .inr rfl
        | false => exact .inl (by simp [Seq.inStep, hrun, hhold, hd])
  case depart =>
    have hm : s.mayDepart c i = true := by
      have hi : i ∈ s.departures c := by rw [hd]; exact List.mem_singleton_self i
      exact (List.mem_filter.mp hi).2
    refine ⟨mayDepart_vector hm he hk, ?_⟩
    have hdep : s.depart c i = (s.modCore c fun k => { k with sends := k.sends.eraseIdx i }).sendFlight c t0 v (s.pastOfSend c e) := by
      simp only [State.depart, he, hk]
      rfl
    obtain ⟨f, hf, hcores, hsrc, htgt, hval, hpoison, hchain, hleft, hclock, horder⟩ :=
      sendFlight_leaves (s.modCore c fun k => { k with sends := k.sends.eraseIdx i }) c t0 v (s.pastOfSend c e)
    refine ⟨_, f, execCxSendDepart_one hd, ?_, ?_, hsrc, htgt, hval, hpoison, hchain, hleft, hclock, horder⟩
    · rw [hdep, State.core, hcores]
      exact congrArg Core.sends (State.core_modCore ..)
    · rw [hdep, hf]
      rfl
  case arrive =>
    refine ⟨_, execCxVectorArrive_one hf ht hc hone, rfl, rfl, ?_⟩
    rw [State.core_modCore]
    rfl
  case mcast =>
    refine ⟨_, execCxMcstLand_one hm hs hc ht, rfl, rfl, fun i hi j hj => ?_⟩
    rw [State.core_modCore, McstFlight.land_spad, mapGet_writeBytes, if_pos (by omega), Nat.add_assoc, Nat.add_sub_cancel_left,
      getD_mcastBytes m hi hj]
    split <;> rfl
  case enlarge =>
    refine ⟨_, execCircuitQueueEnlarge_one hl hb hlong hblocked hc hfull hone hpool, ?_, ?_, rfl⟩
    · rw [State.core_modCore]
      rfl
    · rw [State.die_modCore, State.die_modDie]
      rfl

end Sys2Proof.Proofs
end


section
/-! Launches from their vector to their restore (O50). -/
-- One proof after the other: elaborated side by side, the whole text's proofs need more memory than the check has.
set_option Elab.async false
namespace Sys2Proof.Machine
open Sys2Proof.Claims Sys2Proof.Laws

/-! ### The levels that a vector opens (R251) -/

theorem State.level_setLevel_ne (s : State) {v w : Level} (h : w ≠ v) (id k : Nat) (r : LevelRec) :
    (s.setLevel v id r).level w k = s.level w k := by
  cases v <;> cases w <;> first | rfl | exact absurd rfl h

theorem State.level_setLevel (s : State) {v : Level} (h : v ∈ [Level.graph, .phase, .job]) (id : Nat) (r : LevelRec) :
    (s.setLevel v id r).level v id = some r := by
  simp only [List.mem_cons, List.not_mem_nil, or_false] at h
  obtain rfl | rfl | rfl := h <;> exact mapGet_insert_same ..

/-- A level opened unless it is open. -/
def State.openIf (s : State) (v : Level) (k : Nat) (r : LevelRec) : State := if (s.openLevel v k).isSome then s else s.setLevel v k r

theorem State.openLevels_eq (s : State) (v : StartVec) (id asid : Nat) : s.openLevels v id asid =
    ((s.openIf .job v.job (newLevel v.jphases (bits v.policy 5 4) 0 asid id v)).openIf .phase v.phase
      (newLevel v.pgraphs (bits v.policy 3 2) v.job asid id v)).openIf .graph v.graph
        (newLevel v.gsize (bits v.policy 1 0) v.phase asid id v) := rfl

theorem State.openIf_keeps {β : Type} (g : State → β) (hg : ∀ s v id r, g (State.setLevel s v id r) = g s) (s : State) (v : Level)
    (k : Nat) (r : LevelRec) : g (s.openIf v k r) = g s := by
  unfold State.openIf
  split
  · rfl
  · exact hg ..

theorem State.openLevels_keeps {β : Type} (g : State → β) (hg : ∀ s v id r, g (State.setLevel s v id r) = g s) (s : State)
    (v : StartVec) (id asid : Nat) : g (s.openLevels v id asid) = g s := by
  rw [State.openLevels_eq, State.openIf_keeps g hg, State.openIf_keeps g hg, State.openIf_keeps g hg]

theorem State.openLevel_openIf_ne (s : State) {v w : Level} (h : w ≠ v) (k j : Nat) (r : LevelRec) :
    (s.openIf v k r).openLevel w j = s.openLevel w j := by
  unfold State.openIf
  split
  · rfl
  · rw [State.openLevel, State.level_setLevel_ne s h]
    rfl

theorem State.openLevel_openIf (s : State) {v : Level} (h : v ∈ [Level.graph, .phase, .job]) (k : Nat) {r : LevelRec}
    (hr : r.complete = false) : (s.openIf v k r).openLevel v k = some ((s.openLevel v k).getD r) := by
  unfold State.openIf
  split
  · rename_i ho
    obtain ⟨x, hx⟩ := Option.isSome_iff_exists.mp ho
    rw [hx]
    rfl
  · rename_i ho
    have hn : s.openLevel v k = none := by simpa using ho
    rw [hn, State.openLevel, State.level_setLevel s h]
    simp [hr]

section
variable (s : State) (v : StartVec) (id asid : Nat)

theorem State.openLevels_graph : (s.openLevels v id asid).openLevel .graph v.graph =
    some ((s.openLevel .graph v.graph).getD (newLevel v.gsize (bits v.policy 1 0) v.phase asid id v)) := by
  rw [State.openLevels_eq, State.openLevel_openIf _ (by simp) _ rfl, State.openLevel_openIf_ne _ (by decide),
    State.openLevel_openIf_ne _ (by decide)]

theorem State.openLevels_phase : (s.openLevels v id asid).openLevel .phase v.phase =
    some ((s.openLevel .phase v.phase).getD (newLevel v.pgraphs (bits v.policy 3 2) v.job asid id v)) := by
  rw [State.openLevels_eq, State.openLevel_openIf_ne _ (by decide), State.openLevel_openIf _ (by simp) _ rfl,
    State.openLevel_openIf_ne _ (by decide)]

theorem State.openLevels_job : (s.openLevels v id asid).openLevel .job v.job =
    some ((s.openLevel .job v.job).getD (newLevel v.jphases (bits v.policy 5 4) 0 asid id v)) := by
  rw [State.openLevels_eq, State.openLevel_openIf_ne _ (by decide), State.openLevel_openIf_ne _ (by decide),
    State.openLevel_openIf _ (by simp) _ rfl]

theorem State.level_of_openLevel {s : State} {v : Level} {k : Nat} {r : LevelRec} (h : s.openLevel v k = some r) :
    s.level v k = some r ∧ r.complete = false := by
  unfold State.openLevel at h
  split at h
  · split at h
    · simp at h
    · rename_i x hx hc
      obtain rfl := Option.some.inj h
      exact ⟨hx, by simpa using hc⟩
  · simp at h

/-- A level newly opened has no failed predecessor, and is not cancelled. -/
theorem State.predecessorFailed_openLevels : (s.openLevels v id asid).predecessorFailed v = s.predecessorFailed v := by
  rw [State.predecessorFailed, State.openLevels_graph, State.predecessorFailed]
  cases s.openLevel .graph v.graph <;> rfl

theorem State.levelCancelled_openLevels : (s.openLevels v id asid).levelCancelled v = s.levelCancelled v := by
  simp only [State.levelCancelled, State.openLevels_graph, State.openLevels_phase, State.openLevels_job]
  cases s.openLevel .graph v.graph <;> cases s.openLevel .phase v.phase <;> cases s.openLevel .job v.job <;> rfl

end

/-! ### A vector that is accepted (R251, R253) -/

/-- The launch that a vector makes. -/
def State.launchFor (s : State) (v : StartVec) (h : Header) (parent : Option (BitVec 1024)) (past : Past) : Launch :=
  newLaunch v h (((s.image v.image).map fun i : Image => i.asid).getD 0) (((s.image v.image).map fun i : Image => i.va + i.code).getD 0) (s.dieFor v) parent past

/-- The levels open and the next launch number taken. -/
def State.entered (s : State) (v : StartVec) : State :=
  { s with nextLaunch := s.nextLaunch + 1 }.openLevels v s.nextLaunch (((s.image v.image).map fun i : Image => i.asid).getD 0)

theorem State.enterLaunch_queued {s : State} {v : StartVec} (hp : s.predecessorFailed v = false) (hc : s.levelCancelled v = false)
    (h : Header) (parent : Option (BitVec 1024)) (past : Past) : s.enterLaunch v h .none parent past =
      ((s.entered v).setLaunch s.nextLaunch (s.launchFor v h parent past)).enqueueLaunch false s.nextLaunch (s.launchFor v h parent past) := by
  have hp' : (s.entered v).predecessorFailed v = false := (State.predecessorFailed_openLevels ..).trans hp
  have hc' : (s.entered v).levelCancelled v = false := (State.levelCancelled_openLevels ..).trans hc
  have hs : ((s.entered v).predecessorFailed v || (s.entered v).levelCancelled v) = false := by rw [hp', hc']; rfl
  refine if_neg ?_
  rw [Bool.not_eq_true]
  exact hs

@[simp] theorem Die.queue_setQueue (d : Die) (n : Nat) (l : List Nat) : (d.setQueue n l).queue n = l := mapGet_set_same ..

theorem State.queue_enqueueLaunch (s : State) (head : Bool) (id : Nat) (l : Launch) :
    ((s.enqueueLaunch head id l).die l.die).queue l.vec.queue =
      if head then id :: ((s.die l.die).queue l.vec.queue).filter (· != id) else ((s.die l.die).queue l.vec.queue).filter (· != id) ++ [id] := by
  rw [State.enqueueLaunch, State.die_modDie]
  exact Die.queue_setQueue ..

theorem State.entered_keeps (s : State) (v : StartVec) : (s.entered v).nextLaunch = s.nextLaunch + 1 ∧ (s.entered v).mem = s.mem ∧
    (s.entered v).cores = s.cores ∧ (s.entered v).launches = s.launches ∧ (s.entered v).posted = s.posted :=
  ⟨State.openLevels_keeps State.nextLaunch State.setLevel_nextLaunch .., State.openLevels_keeps State.mem State.setLevel_mem ..,
    State.openLevels_keeps State.cores State.setLevel_cores .., State.openLevels_keeps State.launches State.setLevel_launches ..,
    State.openLevels_keeps State.posted State.setLevel_posted ..⟩

theorem State.entered_levels (s : State) (v : StartVec) :
    (s.entered v).level .graph v.graph = some ((s.openLevel .graph v.graph).getD (newLevel v.gsize (bits v.policy 1 0) v.phase
      (((s.image v.image).map fun i : Image => i.asid).getD 0) s.nextLaunch v)) ∧ ∃ r, (s.entered v).level .job v.job = some r :=
  ⟨(State.level_of_openLevel (State.openLevels_graph ..)).1, _, (State.level_of_openLevel (State.openLevels_job ..)).1⟩

/-- What the entry of a launch into its queue leaves (R251). -/
theorem State.enterLaunch_leaves {s : State} {v : StartVec} (hp : s.predecessorFailed v = false) (hc : s.levelCancelled v = false)
    (h : Header) (parent : Option (BitVec 1024)) (past : Past) : let t := s.enterLaunch v h .none parent past
    let l := s.launchFor v h parent past
    t.nextLaunch = s.nextLaunch + 1 ∧ t.launch s.nextLaunch = some l ∧ t.mem = s.mem ∧ t.cores = s.cores ∧
      s.nextLaunch ∈ (t.die l.die).queue v.queue ∧ (t.level .graph v.graph).isSome = true ∧ (t.level .job v.job).isSome = true := by
  obtain ⟨hnext, hmem, hcores, -⟩ := s.entered_keeps v
  obtain ⟨hg, hj⟩ := s.entered_levels v
  dsimp only
  rw [State.enterLaunch_queued hp hc]
  generalize s.entered v = u at *
  refine ⟨hnext, State.launch_setLaunch .., hmem, hcores, ?_, Option.isSome_iff_exists.mpr ⟨_, hg⟩, Option.isSome_iff_exists.mpr hj⟩
  have hq := (u.setLaunch s.nextLaunch (s.launchFor v h parent past)).queue_enqueueLaunch false s.nextLaunch (s.launchFor v h parent past)
  have hv : (s.launchFor v h parent past).vec = v := rfl
  rw [hv] at hq
  rw [hq]
  simp

/-! ### A vector whose bank request fails (R191, R208) -/

theorem mem_mapInsert {α : Type} {k : Nat} {a : α} {m : NMap α} {e : Nat × α} (h : e ∈ mapInsert k a m) : e = (k, a) ∨ e ∈ m := by
  induction m with
  | nil => exact .inl (List.mem_singleton.mp h)
  | cons x m ih =>
    unfold mapInsert at h
    split at h
    · exact List.mem_cons.mp h
    · split at h
      · exact (List.mem_cons.mp h).imp id fun h => List.mem_cons_of_mem x h
      · obtain rfl | h := List.mem_cons.mp h
        · exact .inr List.mem_cons_self
        · exact (ih h).imp id fun h => List.mem_cons_of_mem x h

/-- The launch table, its die and the records when a launch without cores completes. -/
def State.closed (s : State) (id : Nat) (l : Launch) : State :=
  (((s.returnPool l).dequeue id l).setLaunch id { l with state := .complete, enlarged := 0 }).post (l.record id)

/-- What the completion of a launch makes of its graph's record. -/
def Launch.countedIn (l : Launch) (r : LevelRec) : LevelRec :=
  let r := r.childDone l.isFailed l.isAbsorbed l.excused
  let succ := l.vec.succ.filter (· != 0xFFFF)
  if l.isFailed then { r with broken := succ.foldl (fun b n => mapInsert n true b) r.broken }
  else { r with decs := succ.foldl (fun d n => mapInsert n (mapGet 0 d n + 1) d) r.decs }

/-- A launch that never stood on cores completes (R28, R29, R253). -/
theorem State.closeLaunch_new (s : State) (id : Nat) {l : Launch} (hc : l.cores = []) (hf : l.forLaunch = none) :
    s.closeLaunch id l = (s.closed id l).modLevel .graph l.vec.graph l.countedIn := by
  have hfree : s.freeCores id l = s := by simp only [State.freeCores, State.keepBays, hc, hf, List.foldl_nil]
  simp only [State.closeLaunch, hfree]
  rfl

theorem State.level_closed (s : State) (id : Nat) (l : Launch) (v : Level) (k : Nat) : (s.closed id l).level v k = s.level v k := by
  cases v <;> rfl

theorem State.level_setLaunch (s : State) (id : Nat) (l : Launch) (v : Level) (k : Nat) : (s.setLaunch id l).level v k = s.level v k := by
  cases v <;> rfl

theorem Launch.countedIn_failed {l : Launch} (hl : l.isFailed = true) (hx : l.excused = false) (r : LevelRec) :
    (l.countedIn r).counter = r.counter - 1 ∧ (l.countedIn r).isFailed = true ∧ (l.countedIn r).first = r.first := by
  simp [Launch.countedIn, LevelRec.childDone, hl, hx]

/-- A graph whose waiting launches are all older than it has none that waits for a failed one (R30, R39). -/
theorem State.nextBroken_none {s : State} {g : Nat} {r : LevelRec} (hr : s.level .graph g = some r)
    (h : ∀ e ∈ s.launches, ∀ l, e.2 = some l → r.first ≤ e.1 → l.state ≠ .queued) : s.nextBroken g = none := by
  simp only [State.nextBroken, hr]
  refine List.find?_eq_none.mpr fun e he hq => ?_
  obtain ⟨x, hx, hm⟩ := List.mem_filterMap.mp he
  obtain ⟨l, hl, rfl⟩ := Option.map_eq_some_iff.mp hm
  simp only [Bool.and_eq_true, beq_iff_eq, decide_eq_true_eq] at hq
  exact h x hx l hl hq.1.2 hq.1.1.2

theorem State.removeBroken_none {s : State} {g : Nat} (n : Nat) (h : s.nextBroken g = none) : State.removeBroken n s g = s := by
  cases n with
  | zero => rfl
  | succ n => simp only [State.removeBroken, h]

theorem State.endGraph_open {s : State} {g : Nat} {r : LevelRec} (n : Nat) (hr : s.level .graph g = some r) (hn : r.counter ≠ 0) :
    State.endGraph n s g = s := by
  cases n with
  | zero => rw [State.endGraph]
  | succ n =>
    have ho : r.over = false := by simp [LevelRec.over, hn]
    rw [State.endGraph]
    simp only [hr, ho, Bool.false_eq_true, if_false]

/-- A vector with a launch error completes failed (R208). -/
theorem State.enterLaunch_failed {s : State} {v : StartVec} {e : EndCause} (he : e ≠ .none) (h : Header) (parent : Option (BitVec 1024))
    (past : Past) : ∃ n, s.enterLaunch v h e parent past = State.endLaunch (n + 2) ((s.entered v).setLaunch s.nextLaunch
      { s.launchFor v h parent past with isFailed := true, error := e }) s.nextLaunch := by
  have hfuel : ∀ t : State, ∃ n, t.fuel = n + 2 := fun t =>
    ⟨8 * (t.launches.length + t.graphs.length + t.phases.length + t.jobs.length + 3) + 6, by simp only [State.fuel]; omega⟩
  obtain ⟨n, hn⟩ := hfuel ((s.entered v).setLaunch s.nextLaunch { s.launchFor v h parent past with isFailed := true, error := e })
  refine ⟨n, (if_pos he).trans ?_⟩
  rw [← hn]
  rfl

theorem mapInsert_mapInsert {α : Type} (k : Nat) (a b : α) (m : NMap α) : mapInsert k b (mapInsert k a m) = mapInsert k b m := by
  induction m with
  | nil => simp [mapInsert]
  | cons x m ih =>
    obtain ⟨j, w⟩ := x
    obtain h | rfl | h := Nat.lt_trichotomy k j
    · simp [mapInsert, h]
    · simp [mapInsert]
    · have h1 : ¬ k < j := by omega
      have h2 : k ≠ j := by omega
      simp [mapInsert, h1, h2, ih]

theorem State.level_modLevel {s : State} {v : Level} (hv : v ∈ [Level.graph, .phase, .job]) {id : Nat} {r : LevelRec}
    (h : s.level v id = some r) (f : LevelRec → LevelRec) : (s.modLevel v id f).level v id = some (f r) := by
  rw [State.modLevel, h]
  exact State.level_setLevel _ hv _ _

/-- A launch of a graph with more to come completes failed, where none of the graph waits for it (R28, R30). -/
theorem endLaunch_failed {u : State} {id : Nat} {l : Launch} {r : LevelRec} (n : Nat) (hc : l.cores = []) (hf : l.forLaunch = none)
    (hl : l.isFailed = true) (hx : l.excused = false) (hg : u.level .graph l.vec.graph = some r) (hmore : 2 ≤ r.counter)
    (hids : ∀ x ∈ u.launches, x.1 < r.first) : let t := State.endLaunch (n + 2) (u.setLaunch id l) id
    t.launch id = some { l with state := .complete, enlarged := 0 } ∧ t.mem = u.mem ∧ t.cores = u.cores ∧ t.posted = u.posted ++ [l.record id] ∧
      ∃ r', t.level .graph l.vec.graph = some r' ∧ r'.counter = r.counter - 1 ∧ r'.isFailed = true := by
  obtain ⟨hcount, hfail, hfirst⟩ := Launch.countedIn_failed hl hx r
  have hclose := (u.setLaunch id l).closeLaunch_new id hc hf
  have hlevel : (((u.setLaunch id l).closed id l).modLevel .graph l.vec.graph l.countedIn).level .graph l.vec.graph = some (l.countedIn r) :=
    State.level_modLevel (by simp) (by rw [State.level_closed, State.level_setLaunch, hg]) _
  have hlaunches : (((u.setLaunch id l).closed id l).modLevel .graph l.vec.graph l.countedIn).launches =
      mapInsert id (some { l with state := .complete, enlarged := 0 }) u.launches :=
    (State.modLevel_launches ..).trans (mapInsert_mapInsert ..)
  have hno : (((u.setLaunch id l).closed id l).modLevel .graph l.vec.graph l.countedIn).nextBroken l.vec.graph = none := by
    refine State.nextBroken_none hlevel fun e he x hx hfirst' => ?_
    rw [hlaunches] at he
    obtain rfl | he := mem_mapInsert he
    · obtain rfl := Option.some.inj hx
      simp
    · exact absurd (hids e he) (Nat.not_lt.mpr (hfirst ▸ hfirst'))
  have ht : State.endLaunch (n + 2) (u.setLaunch id l) id = ((u.setLaunch id l).closed id l).modLevel .graph l.vec.graph l.countedIn := by
    rw [State.endLaunch, State.launch_setLaunch]
    simp only [hclose, hl, if_true, State.removeBroken_none _ hno]
    exact State.endGraph_open _ hlevel (by omega)
  dsimp only
  rw [ht, State.launch, hlaunches, State.modLevel_mem, State.modLevel_cores, State.modLevel_posted]
  exact ⟨mapGet_insert_same .., rfl, rfl, rfl, _, hlevel, hcount, hfail⟩

/-- A vector with a launch error that opens its graph completes failed, and its graph goes on (R208). -/
theorem State.enterLaunch_rejected {s : State} {v : StartVec} {e : EndCause} (he : e ≠ .none) (hnew : s.openLevel .graph v.graph = none)
    (hids : ∀ x ∈ s.launches, x.1 < s.nextLaunch) (hsize : 2 ≤ v.gsize) (h : Header) : let t := s.enterLaunch v h e none {}
    (∃ l, t.launch s.nextLaunch = some l ∧ l.vec = v ∧ l.state = .complete ∧ l.isFailed = true) ∧ t.mem = s.mem ∧ t.cores = s.cores ∧
      t.posted = s.posted ++ [{ level := .launch, id := s.nextLaunch, status := .failed, cause := e, core := 0, q := 0, kills := 0 }] ∧
      ∃ r, t.level .graph v.graph = some r ∧ r.counter = v.gsize - 1 ∧ r.isFailed = true := by
  obtain ⟨-, hmem, hcores, hlaunches, hposted⟩ := s.entered_keeps v
  obtain ⟨hg, -⟩ := s.entered_levels v
  rw [hnew, Option.getD_none] at hg
  obtain ⟨n, hn⟩ := State.enterLaunch_failed he h none {} (s := s) (v := v)
  have hrecord : ({ s.launchFor v h none {} with isFailed := true, error := e } : Launch).record s.nextLaunch =
      { level := .launch, id := s.nextLaunch, status := .failed, cause := e, core := 0, q := 0, kills := 0 } := by
    simp [Launch.record, State.launchFor, newLaunch, statusOf, he]
  obtain ⟨hlaunch, hm, hc, hp, r, hr, hcount, hfail⟩ := endLaunch_failed (id := s.nextLaunch) n rfl rfl rfl rfl
    (l := { s.launchFor v h none {} with isFailed := true, error := e }) hg hsize (by rw [hlaunches]; exact hids)
  dsimp only
  rw [hn]
  exact ⟨⟨_, hlaunch, rfl, rfl, rfl⟩, hm.trans hmem, hc.trans hcores, by rw [hp, hposted, hrecord], r, hr, hcount, hfail⟩

theorem banksOk_of_launchBanks {s : State} {v : StartVec} {h : Header} (he : s.vectorError v = .launchBanks) (hh : s.headerFor v = some h) :
    banksOk h = false := by
  unfold State.vectorError at he
  rw [hh] at he
  split at he
  · simp at he
  · split at he
    · simp at he
    · dsimp only at he
      split at he
      · simp at he
      · split at he
        · simp_all
        · simp at he

theorem bankRequest_large {h : Header} (hb : banksOk h = false) : max h.opbanks 2 + (h.scratch + 10239) / 10240 + 2 > 32 := by
  have hn : ¬ scratchBanksOf h + operandBanksOf h + 2 ≤ 32 := of_decide_eq_false hb
  simp only [scratchBanksOf, operandBanksOf, Config.bankBytes] at hn
  omega

/-! ### A child's vector (R232) -/

theorem execChildLaunchAccept_child {c q : Nat} {s : State} {y : StoreEntry} {g : BitVec 1024} {p : StorePart} {ps : List StorePart}
    {id : Nat} {parent : Launch} (hn : NextStore (s.seq c q) y) (hk : y.kind = .spawn g) (hps : y.parts = p :: ps)
    (hid : (s.core c).launch = some id) (hl : s.launch id = some parent) (hg : parent.goes = false)
    (hv : s.childError parent (childVec parent (s.readLoc p.loc 64).1) = .none) : execChildLaunchAccept c q s =
      .next ((s.dropStore c q).enterLaunch (childVec parent (s.readLoc p.loc 64).1)
        ((s.headerFor (childVec parent (s.readLoc p.loc 64).1)).getD Header.none_) .none (some g) (s.past c q y.chain)) := by
  simp only [execChildLaunchAccept, nextStore_eq hn, hk, hps, hid, Option.bind_some, hl, hg, hv, Bool.false_eq_true, if_false]
  rfl

/-! ### The bays and cores of a placement (R31, R32, R254) -/

theorem pickBays_bays (s : State) (n : Nat) (free : List Nat) (h : n ≤ free.length) :
    (pickBays s n free).1.length = n ∧ ∀ b ∈ (pickBays s n free).1, b ∈ free := by
  induction n generalizing s free with
  | zero => simp [pickBays]
  | succ n ih =>
    unfold pickBays
    split
    · exact ⟨Nat.le_antisymm ‹_› h, fun b hb => hb⟩
    · have hmem : ∀ i, free.getD (i % free.length) 0 ∈ free := fun i => by
        have hi : i % free.length < free.length := Nat.mod_lt _ (by omega)
        rw [List.getD_eq_getElem _ _ hi]
        exact List.getElem_mem hi
      have hlen : n ≤ (free.erase (free.getD (s.nextChoice.1 % free.length) 0)).length := by
        rw [List.length_erase_of_mem (hmem _)]
        omega
      obtain ⟨hl, hin⟩ := ih s.nextChoice.2 _ hlen
      refine ⟨by simp only [List.length_cons, hl], fun b hb => ?_⟩
      obtain rfl | hb := List.mem_cons.mp hb
      · exact hmem _
      · exact List.mem_of_mem_erase (hin b hb)

theorem pickBays_state (s : State) (n : Nat) (free : List Nat) : ∃ k, (pickBays s n free).2 = { s with choices := k } := by
  induction n generalizing s free with
  | zero => exact ⟨_, rfl⟩
  | succ n ih =>
    unfold pickBays
    split
    · exact ⟨_, rfl⟩
    · exact ih s.nextChoice.2 _

theorem coresOn_nodup (h : Header) (bays : List Nat) : (coresOn h bays).Nodup := by
  refine List.Nodup.sublist (List.take_sublist ..) (List.nodup_flatten.mpr ⟨fun l hl => ?_, ?_⟩)
  · obtain ⟨b, -, rfl⟩ := List.mem_map.mp hl
    exact List.Nodup.map (fun i j hij => by omega) List.nodup_range
  · rw [List.pairwise_map]
    refine List.Pairwise.imp_of_mem ?_ (List.nodup_range.filter _)
    intro a b _ _ hab x hx hy
    obtain ⟨i, hi, rfl⟩ := List.mem_map.mp hx
    obtain ⟨j, hj, he⟩ := List.mem_map.mp hy
    have := List.mem_range.mp hi
    have := List.mem_range.mp hj
    omega

/-- Cores that are each written once hold what was written. -/
theorem foldl_modCore_each {α : Type} {key : α → Nat} {f : α → Core → Core} (es : List α) (t : State) (h : (es.map key).Nodup) {e : α}
    (he : e ∈ es) : (es.foldl (fun s e => s.modCore (key e) (f e)) t).core (key e) = f e (t.core (key e)) := by
  induction es generalizing t with
  | nil => simp at he
  | cons x es ih =>
    obtain ⟨hx, hes⟩ := List.nodup_cons.mp h
    have hkeep : ∀ (l : List α) (t : State) (c : Nat), c ∉ l.map key → (l.foldl (fun s e => s.modCore (key e) (f e)) t).core c = t.core c := by
      intro l
      induction l with
      | nil => exact fun _ _ _ => rfl
      | cons y l ihl =>
        intro t c hc
        rw [List.map_cons, List.mem_cons, not_or] at hc
        exact (ihl _ c hc.2).trans (State.core_modCore_ne t _ hc.1)
    rw [List.foldl_cons]
    obtain rfl | he := List.mem_cons.mp he
    · rw [hkeep es _ _ hx, State.core_modCore]
    · have hne : key e ≠ key x := fun hk => hx (hk ▸ List.mem_map_of_mem he)
      rw [ih _ hes he, State.core_modCore_ne t _ hne]

/-! ### A launch that starts (R17, R31, R32, R192) -/

/-- What the unpinning of lines leaves alone, for all but the dies is left. -/
def State.besideDies (s : State) : NMap Byte × Nat × NMap Core × List Nat × NMap (Option Launch) :=
  (s.mem, s.clock, s.cores, s.savedReports, s.launches)

theorem State.unpin_besideDies (s : State) (c : Nat) (x : Tile) : (s.unpin c x).besideDies = s.besideDies := by
  unfold State.unpin
  split <;> rfl

theorem State.unpinCore_besideDies (s : State) (c : Nat) : (s.unpinCore c).besideDies = s.besideDies := by
  unfold State.unpinCore
  generalize List.range 16 = ts
  induction ts generalizing s with
  | nil => rfl
  | cons t ts ih => rw [List.foldl_cons, ih, State.unpin_besideDies]

theorem State.unpinCore_keeps (s : State) (c : Nat) : (s.unpinCore c).mem = s.mem ∧ (s.unpinCore c).clock = s.clock ∧
    (s.unpinCore c).cores = s.cores ∧ (s.unpinCore c).savedReports = s.savedReports ∧ (s.unpinCore c).launches = s.launches := by
  simpa only [State.besideDies, Prod.mk.injEq] using s.unpinCore_besideDies c

/-- The cores of the bays that a launch takes: bindings give up their pins, and a core without a unit takes its roles too
(R166, R192). -/
def State.baysTaken (s : State) (l : Launch) (spare : Core → Core) : State :=
  (coresOfBays l.bays).foldl (fun s c => (s.unpinCore c).modCore c fun k => if l.cores.contains c then k else spare k)
    (s.dropInbound l.cores)

theorem foldl_unpinCore_keeps (f : Nat → Core → Core) (cs : List Nat) (t : State) :
    (cs.foldl (fun s c => (s.unpinCore c).modCore c (f c)) t).mem = t.mem ∧ (cs.foldl (fun s c => (s.unpinCore c).modCore c (f c)) t).clock = t.clock ∧
    (cs.foldl (fun s c => (s.unpinCore c).modCore c (f c)) t).savedReports = t.savedReports ∧
    (cs.foldl (fun s c => (s.unpinCore c).modCore c (f c)) t).launches = t.launches := by
  induction cs generalizing t with
  | nil => exact ⟨rfl, rfl, rfl, rfl⟩
  | cons c cs ih =>
    obtain ⟨hm, hk, -, hr, hl⟩ := t.unpinCore_keeps c
    simpa only [List.foldl_cons, State.modCore_mem, State.modCore_clock, State.modCore_savedReports, State.modCore_launches, hm, hk, hr, hl]
      using ih ((t.unpinCore c).modCore c (f c))

theorem foldl_modCore_same {α β : Type} (g : State → β) (hg : ∀ s c f, g (s.modCore c f) = g s) (key : α → Nat) (f : α → Core → Core)
    (es : List α) (t : State) : g (es.foldl (fun s e => s.modCore (key e) (f e)) t) = g t :=
  foldl_same g _ (fun s e => hg s (key e) (f e)) es t

/-- The cores of a launch at their start. -/
def State.coresStarted (s : State) (id : Nat) (l : Launch) : State :=
  l.cores.zipIdx.foldl (fun s e => s.modCore e.1 (startCore id l e.2 (l.entryAt e.2))) (s.baysTaken l (spareCore l.hdr))

/-- The die's copies of what the parent has written go (R215, R232). -/
def State.remoteCleared (s : State) (l : Launch) : State :=
  match l.parentSig with
  | some sig => s.modDie l.die fun d => { d with remote := d.remote.filter fun r => r.pins != 0 || !sig.getLsbD (lineHash r.line) }
  | none => s

/-- The launch as it starts. -/
def Launch.startedAt (l : Launch) (clock : Nat) : Launch :=
  { l with
    state := .running, counter := l.cores.length, started := clock, isFailed := false, isAbsorbed := false,
    failure := none, excused := false, onEmpty := .complete, ckpt := none, drain := none, forLaunch := none,
    saved := [], stepping := none, usedCircuits := false, blockedFrom := none }

theorem State.baysTaken_keeps (s : State) (l : Launch) (spare : Core → Core) : (s.baysTaken l spare).mem = s.mem ∧
    (s.baysTaken l spare).clock = s.clock :=
  have h := foldl_unpinCore_keeps (fun c k => if l.cores.contains c then k else spare k) (coresOfBays l.bays) (s.dropInbound l.cores)
  ⟨h.1, h.2.1⟩

theorem State.remoteCleared_dies (s : State) (l : Launch) : ∃ dies, s.remoteCleared l = { s with dies := dies } := by
  unfold State.remoteCleared
  split <;> exact ⟨_, rfl⟩

theorem State.startLaunch_eq (s : State) (id : Nat) (l : Launch) : s.startLaunch id l = ((s.coresStarted id l).remoteCleared l).setLaunch id
    (l.startedAt ((s.coresStarted id l).remoteCleared l).clock) := rfl

/-- The start of a launch leaves memory, its cores at their start, and the launch running (R31). -/
theorem State.startLaunch_leaves (s : State) (id : Nat) {l : Launch} (hn : l.cores.Nodup) : (s.startLaunch id l).mem = s.mem ∧
    (s.startLaunch id l).launch id = some (l.startedAt s.clock) ∧ ∀ pos < l.cores.length, ∃ k,
      (s.startLaunch id l).core (l.cores.getD pos 0) = startCore id l pos (l.entryAt pos) k := by
  obtain ⟨hm, hc⟩ := s.baysTaken_keeps l (spareCore l.hdr)
  have hclock : (s.coresStarted id l).clock = s.clock := (foldl_modCore_same State.clock (fun _ _ _ => rfl) Prod.fst _ _ _).trans hc
  have hmem : (s.coresStarted id l).mem = s.mem := (foldl_modCore_same State.mem (fun _ _ _ => rfl) Prod.fst _ _ _).trans hm
  obtain ⟨dies, hd⟩ := (s.coresStarted id l).remoteCleared_dies l
  rw [State.startLaunch_eq, hd]
  refine ⟨hmem, (State.launch_setLaunch ..).trans (congrArg (fun n => some (l.startedAt n)) hclock), fun pos hpos => ?_⟩
  have hin : (l.cores.getD pos 0, pos) ∈ l.cores.zipIdx := by
    rw [List.mem_zipIdx_iff_getElem?, List.getD_eq_getElem _ _ hpos]
    exact List.getElem?_eq_getElem hpos
  have hkeys : (l.cores.zipIdx.map Prod.fst).Nodup := by rwa [List.zipIdx_map_fst]
  exact ⟨_, foldl_modCore_each (key := Prod.fst) (f := fun e => startCore id l e.2 (l.entryAt e.2)) _ _ hkeys hin⟩

theorem startCore_leaves (id : Nat) (l : Launch) (pos : Nat) (entry : Word) (k : Core) : let k' := startCore id l pos entry k
    let x := k'.seq 0
    k'.launch = some id ∧ x.run = .running ∧ x.pc = entry ∧ x.sreg 0 = l.vec.arg ∧ x.sreg 1 = BitVec.ofNat 64 pos ∧
      x.sreg 2 = BitVec.ofNat 64 l.hdr.cores ∧ (∀ n, 3 ≤ n → x.sreg n = 0) ∧ (∀ n, n ≠ 0 → x.preg n = 0) ∧ x.cycle = 1 ∧ x.asid = l.asid ∧
      k'.held = l.hdr.claim := by
  obtain ⟨hrun, hpc, -, -, hasid, h0, h1, h2, h3, -, hpreg, -, -, -, -, -, -, -, -, -, -, -, hcycle, -, -⟩ :=
    freshUnit_startSeq l pos entry (k.seq 0) (startSeq l pos entry (k.seq 0)).stepJoin
  exact ⟨rfl, hrun, hpc, h0, h1, h2, h3, fun n hn => hpreg n (Nat.one_le_iff_ne_zero.mpr hn), hcycle, hasid, rfl⟩

/-! ### The scheduler's choices (R254, R255, R258, R260) -/

theorem State.openBays_free (s : State) (d id : Nat) : ∀ b ∈ s.openBays d id, b ∈ s.freeBays d := fun _ hb => List.mem_of_mem_filter hb

/-- A waiting launch is placed: it starts on free bays, from a state with the clock and the memory of this one (R31, R254). -/
theorem State.place_queued {s : State} {d id : Nat} {l : Launch} (hp : s.placeable d id l = true) (hq : l.state = .queued) :
    ∃ (u : State) (bays : List Nat), u.mem = s.mem ∧ u.clock = s.clock ∧ bays.length = l.hdr.bayCount ∧ (∀ b ∈ bays, b ∈ s.freeBays d) ∧
      s.place d id l = u.startLaunch id
        { l with bays := bays, cores := coresOn l.hdr bays, tokens := 0, holdOff := false, keptBays := [] } := by
  have hfit : l.hdr.bayCount ≤ (s.openBays d id).length := by
    simp only [State.placeable, State.fits, Bool.and_eq_true, decide_eq_true_eq] at hp
    exact hp.1.1.1
  obtain ⟨hlen, hin⟩ := pickBays_bays s _ _ hfit
  obtain ⟨k, hk⟩ := pickBays_state s l.hdr.bayCount (s.openBays d id)
  refine ⟨((({ s with choices := k } : State).dequeue id l).modDie d fun x => { x with lastQueue := l.vec.queue }).takeKept
    (pickBays s l.hdr.bayCount (s.openBays d id)).1, _, rfl, rfl, hlen, fun b hb => s.openBays_free d id b (hin b hb), ?_⟩
  simp only [State.place, hq, hk]

theorem execSchedulerSelect_place {d id : Nat} {s : State} {l : Launch} (hpre : s.preempts d = none) (hn : s.nextPlaced d = some (id, l)) :
    execSchedulerSelect d s = .next (s.place d id l) := by
  simp only [execSchedulerSelect, hpre, hn]

theorem execTokenAccrual_one {d id : Nat} {s : State} {l : Launch} (hlt : (s.die d).accrued < s.clock) (hc : s.clock % 65536 = 0)
    (hone : s.candidates d = [(id, l)]) (hd : s.draining d id = false) : execTokenAccrual d s =
      .next ((s.modDie d fun x => { x with accrued := s.clock }).modLaunch id fun l =>
        { l with tokens := min 255 (l.tokens + 1), holdOff := false }) := by
  have hdue : s.accrualDue d = true := by simp [State.accrualDue, hlt, hc]
  simp only [execTokenAccrual, hdue, hone, hd, List.foldl_cons, List.foldl_nil, if_true, Bool.false_eq_true, if_false]

/-- A drain whose time is over is decided again, and a candidate that may not kill asks for a checkpoint (R257, R258). -/
theorem execDrainRedecision_over {id cid at_ : Nat} {s : State} {l cand : Launch} (hl : s.launch id = some l) (hr : l.state = .running)
    (hd : l.drain = some at_) (ht : at_ + (s.die l.die).drainUs * microParts ≤ timeNow s l.die) (hf : l.forLaunch = some cid)
    (hc : s.launch cid = some cand) (hq : cand.state = .queued) (hk : cand.tokens < (s.die l.die).killK ∨ l.hdr.killable = false) :
    execDrainRedecision id s = .next (s.setLaunch id { l with drain := none, ckpt := some (timeNow s l.die) }) := by
  have hover : s.drainOver l = true := by
    simp only [State.drainOver, hd, hr, beq_self_eq_true, Bool.true_and, decide_eq_true_eq]
    exact ht
  have hkill : (decide ((s.die l.die).killK ≤ cand.tokens) && l.hdr.killable) = false := by
    obtain hk | hk := hk
    · simp [Nat.not_le.mpr hk]
    · simp [hk]
  simp only [execDrainRedecision, hl, hover, hf, Option.bind_some, hc, Option.map_some, hq, State.decide_, hkill, if_true, Bool.not_true,
    Bool.false_and, Bool.false_eq_true, if_false]
  rfl

/-- A unit at a safe point under a checkpoint request stops (R260). -/
theorem execSafePointStop_at {c q id : Nat} {s : State} {l : Launch} (hrun : (s.seq c q).run = .running) (hh : (s.seq c q).handler = false)
    (hslot : (s.seq c q).slot = 0) (hdone : (s.seq c q).done = false) (hrec : (s.seq c q).recordBuf = none)
    (hpend : (s.seq c q).pending = []) (hhold : (s.seq c q).hold = none) (hid : (s.core c).launch = some id) (hl : s.launch id = some l)
    (hck : l.ckpt.isSome = true) (hsafe : (s.safeMasks c q).isSome = true) : execSafePointStop c q s =
      .next ((s.traceStallEnd c q).modSeq c q fun x => { x with run := .parked, hold := none, walks := [], start := none }) := by
  have hnone : (s.seq c q).nextDeferred = none := by simp [Seq.nextDeferred, hpend]
  have hready : (s.seq c q).deferredReady = false := by simp [Seq.deferredReady, hnone]
  have hat : s.atSafePoint c q = true := by
    simp [State.atSafePoint, hrun, hh, hslot, hdone, hrec, hhold, hready, hid, hl, hck, hsafe]
  exact if_pos hat

/-- A request that has not been met in its time is withdrawn, and the units it stopped run on (R260). -/
theorem execCheckpointWithdraw_due {id at_ : Nat} {s : State} {l : Launch} (hl : s.launch id = some l) (hr : l.state = .running)
    (hck : l.ckpt = some at_) (hno : s.allStopped l = false) (ht : at_ + 2 * (s.die l.die).drainUs * microParts ≤ timeNow s l.die)
    (hf : l.forLaunch = none) : execCheckpointWithdraw id s = .next ((s.unpark l).setLaunch id { l with ckpt := none }) := by
  have hdue : s.withdrawDue l = true := by
    simp only [State.withdrawDue, hck, hr, hno, beq_self_eq_true, Bool.not_false, Bool.true_and, decide_eq_true_eq]
    exact ht
  simp only [execCheckpointWithdraw, hl, hdue, hf, if_true]

/-! ### Launches saved and restored (R261 to R263, R276) -/

theorem aside_savedReports : Aside State.savedReports := by intros s; intros; rfl

theorem State.traceSwaps_same {β : Type} (g : State → β) (hg : ∀ s c q ws, g (State.traceRec s c q ws) = g s) (s : State) (l : Launch)
    (kind : Nat) : g (s.traceSwaps l kind) = g s := by
  unfold State.traceSwaps
  generalize s.liveUnits l = us
  induction us generalizing s with
  | nil => rfl
  | cons u us ih => rw [List.foldl_cons, ih, State.traceSwap, hg]

/-- Of a core, the swap records leave all but the sequencers. -/
theorem State.traceSwaps_core {β : Type} {p : Core → β} (hp : ∀ k m, p { k with seqs := m } = p k) (s : State) (l : Launch) (kind c : Nat) :
    p ((s.traceSwaps l kind).core c) = p (s.core c) :=
  State.traceSwaps_same (fun s => p (s.core c)) (State.traceRec_core hp c) s l kind

/-- Of a sequencer they leave all but the trace. -/
theorem State.traceSwaps_seq {β : Type} {p : Seq → β} (hp : ∀ x tr, p { x with trace := tr } = p x) (s : State) (l : Launch)
    (kind c q : Nat) : p ((s.traceSwaps l kind).seq c q) = p (s.seq c q) :=
  State.traceSwaps_same (fun s => p (s.seq c q)) (State.traceRec_seq hp c q) s l kind

theorem State.core_unpinCore (s : State) (c d : Nat) : (s.unpinCore c).core d = s.core d := by
  rw [State.core, (s.unpinCore_keeps c).2.2.1, State.core]

/-- A bay that is left has a core without a launch. -/
theorem foldl_vacated_launch {c : Nat} (cs : List Nat) (t : State) (h : (t.core c).launch = none ∨ c ∈ cs) :
    ((cs.foldl (fun s c => (s.unpinCore c).modCore c Core.vacated) t).core c).launch = none := by
  induction cs generalizing t with
  | nil => exact h.resolve_right (by simp)
  | cons d cs ih =>
    rw [List.foldl_cons]
    refine ih _ ?_
    by_cases hd : c = d
    · subst hd
      rw [State.core_modCore]
      exact .inl rfl
    · rw [State.core_modCore_ne _ _ hd, State.core_unpinCore]
      exact h.imp (fun h => h) fun h => (List.mem_cons.mp h).resolve_left hd

theorem State.keepBays_keeps (s : State) (l : Launch) : (s.keepBays l).cores = s.cores ∧ (s.keepBays l).savedReports = s.savedReports := by
  unfold State.keepBays
  split
  · exact ⟨State.modLaunch_cores .., State.modLaunch_savedReports ..⟩
  · exact ⟨rfl, rfl⟩

/-- The state of a save when the contexts have been taken and the bays are left. -/
def State.baysLeft (s : State) (l : Launch) : State :=
  (l.cores.foldl (fun s c => (s.unpinCore c).modCore c Core.vacated) (s.traceSwaps l 0)).keepBays l

theorem State.baysLeft_leaves (s : State) (l : Launch) : (s.baysLeft l).savedReports = s.savedReports ∧
    ∀ c ∈ l.cores, ((s.baysLeft l).core c).launch = none := by
  obtain ⟨hcores, hrep⟩ := State.keepBays_keeps
    (l.cores.foldl (fun s c => (s.unpinCore c).modCore c Core.vacated) (s.traceSwaps l 0)) l
  obtain ⟨-, -, hr, -⟩ := foldl_unpinCore_keeps (fun _ => Core.vacated) l.cores (s.traceSwaps l 0)
  refine ⟨hrep.trans (hr.trans (State.traceSwaps_same State.savedReports aside_savedReports.traceRec s l 0)), fun c hc => ?_⟩
  rw [State.core, State.baysLeft, hcores]
  exact foldl_vacated_launch l.cores _ (.inr hc)

/-- A launch that is ready to be saved (R261). -/
theorem execCheckpointSave_ready {id : Nat} {s : State} {l : Launch} (hl : s.launch id = some l) (hr : s.saveReady l = true) :
    ∃ saved spilled, saved.length = l.cores.length ∧ execCheckpointSave id s = .next { ((s.baysLeft l).enqueueLaunch true id l).setLaunch id
      { l with state := .saved, bays := [], saved := saved, spilled := spilled, ckpt := none, tokens := 0, holdOff := false, blockedFrom := none }
      with savedReports := (((s.baysLeft l).enqueueLaunch true id l).setLaunch id { l with
        state := .saved, bays := [], saved := saved, spilled := spilled, ckpt := none, tokens := 0, holdOff := false,
        blockedFrom := none }).savedReports ++ [id] } := by
  refine ⟨l.cores.map ((s.traceSwaps l 0).saveCore l), l.hdr.bayCount - (Config.shadowContexts - (s.traceSwaps l 0).shadowUsed l.die),
    List.length_map .., ?_⟩
  simp only [execCheckpointSave, hl, hr, if_true]
  rfl

theorem State.homeUse_core (s : State) (pa c : Nat) : (s.homeUse pa).core c = s.core c := by
  rw [State.core, State.homeUse_cores, State.core]

theorem State.pinLine_core (s : State) (d line c : Nat) : (s.pinLine d line).core c = s.core c := by
  unfold State.pinLine
  dsimp only
  split
  · exact State.homeUse_core ..
  · split
    · exact State.homeUse_core ..
    · exact State.homeUse_core ..

/-- What a restored binding does not write of a core. -/
def Core.runs (k : Core) : Option Nat × NMap Seq := (k.launch, k.seqs)

theorem State.runs_modCore (s : State) (c d : Nat) (f : Core → Core) (hf : ∀ k, (f k).runs = k.runs) :
    ((s.modCore c f).core d).runs = (s.core d).runs := by
  by_cases hd : d = c
  · subst hd
    rw [State.core_modCore, hf]
  · rw [State.core_modCore_ne s f hd]

theorem State.runs_setTile (s : State) (c t d : Nat) (x : Tile) (b : Bool) :
    ((s.modCore c fun k => (k.setTile t x).setTileReady t b).core d).runs = (s.core d).runs :=
  State.runs_modCore s c d _ fun _ => rfl

theorem foldl_homeUse_core (ls : List Nat) (s : State) (c : Nat) : (ls.foldl (fun s l => s.homeUse (l * 256)) s).core c = s.core c := by
  induction ls generalizing s with
  | nil => rfl
  | cons l ls ih => rw [List.foldl_cons, ih, State.homeUse_core]

theorem State.repinLine_runs (s : State) (c t line d : Nat) : ((s.repinLine c t line).core d).runs = (s.core d).runs := by
  rw [← State.pinLine_core s (dieOf c) line d]
  unfold State.repinLine
  exact State.runs_modCore _ c d _ fun _ => rfl

theorem foldl_repinLine_runs (ls : List Nat) (s : State) (c t d : Nat) :
    ((ls.foldl (fun s l => if s.pinnable (dieOf c) l then s.repinLine c t l else s) s).core d).runs = (s.core d).runs := by
  induction ls generalizing s with
  | nil => rfl
  | cons l ls ih =>
    rw [List.foldl_cons, ih]
    split
    · exact State.repinLine_runs ..
    · rfl

theorem State.repin_runs (s : State) (c t d : Nat) : ((s.repin c t).core d).runs = (s.core d).runs := by
  unfold State.repin
  dsimp only
  split
  · rw [foldl_repinLine_runs, State.runs_setTile, foldl_homeUse_core]
  · rfl

theorem foldl_repin_runs (ts : List Nat) (s : State) (c d : Nat) :
    ((ts.foldl (fun s t => s.repin c t) s).core d).runs = (s.core d).runs := by
  induction ts generalizing s with
  | nil => rfl
  | cons t ts ih => rw [List.foldl_cons, ih, State.repin_runs]

/-- A saved core is put on its new place, and its bindings are pinned again (R263). -/
def State.restoreOne (id : Nat) (l : Launch) (s : State) (x : SavedCore) : State :=
  (List.range 16).foldl (fun s t => s.repin (l.cores.getD x.position 0) t)
    (s.modCore (l.cores.getD x.position 0) (restoreCore id l x.core))

theorem State.restoreOne_runs (id : Nat) (l : Launch) (s : State) (x : SavedCore) (d : Nat) : ((State.restoreOne id l s x).core d).runs =
    ((s.modCore (l.cores.getD x.position 0) (restoreCore id l x.core)).core d).runs :=
  foldl_repin_runs ..

/-- A restored core runs its launch, its units where they were saved, and on again where they had stopped (R263). -/
def Restored (id : Nat) (x : SavedCore) (k : Core) : Prop :=
  k.launch = some id ∧ ∀ q < 2, (k.seq q).sregs = (x.core.seq q).sregs ∧ (k.seq q).pc = (x.core.seq q).pc ∧
    (k.seq q).run = if (x.core.seq q).run = .parked then .running else (x.core.seq q).run

theorem Restored.of_runs {id : Nat} {x : SavedCore} {k k' : Core} (h : Restored id x k) (hk : k'.runs = k.runs) : Restored id x k' := by
  simp only [Core.runs, Prod.mk.injEq] at hk
  obtain ⟨hl, hs⟩ := hk
  have hseq : ∀ q, k'.seq q = k.seq q := fun q => by rw [Core.seq, hs, Core.seq]
  rw [Restored, hl]
  simp only [hseq]
  exact h

theorem restored_restoreCore (id : Nat) (l : Launch) (x : SavedCore) (old : Core) : Restored id x (restoreCore id l x.core old) := by
  refine ⟨rfl, fun q hq => ?_⟩
  obtain rfl | rfl : q = 0 ∨ q = 1 := by omega
  · exact ⟨rfl, rfl, rfl⟩
  · exact ⟨rfl, rfl, rfl⟩

/-- Saved cores with places of their own are all restored. -/
theorem foldl_restoreOne {id : Nat} {l : Launch} (xs : List SavedCore) (t : State)
    (hn : (xs.map fun x => l.cores.getD x.position 0).Nodup) : ∀ x ∈ xs,
      Restored id x ((xs.foldl (State.restoreOne id l) t).core (l.cores.getD x.position 0)) := by
  induction xs generalizing t with
  | nil => simp
  | cons y ys ih =>
    rw [List.map_cons, List.nodup_cons] at hn
    have hkeep : ∀ (zs : List SavedCore) (t : State) (d : Nat), d ∉ zs.map (fun x => l.cores.getD x.position 0) →
        ((zs.foldl (State.restoreOne id l) t).core d).runs = (t.core d).runs := by
      intro zs
      induction zs with
      | nil => exact fun _ _ _ => rfl
      | cons z zs ihz =>
        intro t d hd
        rw [List.map_cons, List.mem_cons, not_or] at hd
        rw [List.foldl_cons, ihz _ d hd.2, State.restoreOne_runs, State.core_modCore_ne _ _ hd.1]
    intro x hx
    rw [List.foldl_cons]
    obtain rfl | hx := List.mem_cons.mp hx
    · refine (restored_restoreCore id l x (t.core (l.cores.getD x.position 0))).of_runs ?_
      rw [hkeep ys _ _ hn.1, State.restoreOne_runs, State.core_modCore]
    · exact ih _ hn.2 x hx

/-- The restore of a launch that is not cancelled (R263). -/
theorem execLaunchRestore_restoring {id : Nat} {s : State} {l : Launch} (hl : s.launch id = some l) (hr : l.state = .restoring)
    (hc : l.cancelled = false) : execLaunchRestore id s = .next (((l.saved.foldl (State.restoreOne id l)
      (s.baysTaken l fun k => { spareCore l.hdr k with cache := [] })).setLaunch id
        { l with state := .running, saved := [], spilled := 0 }).traceSwaps l 1) := by
  simp only [execLaunchRestore, hl, hr, hc, if_true, Bool.false_eq_true, if_false]
  rfl

end Sys2Proof.Machine

namespace Sys2Proof.Proofs
open Sys2Proof Sys2Proof.Machine Sys2Proof.Claims Sys2Proof.Laws

/-- Settles O50: a vector's entry is read in the tables it writes (`State.enterLaunch_leaves`, `State.enterLaunch_rejected`); a placement
starts each of its distinct cores once; the scheduler's decisions and the safe point are read off their definitions; and a save or
a restore is followed core by core through what it does to the dies and the traces. -/
theorem launchLifecycle : Obligations.LaunchLifecycle := by
  unfold Obligations.LaunchLifecycle
  refine ⟨fun w s => ?vector, fun c q s y rest g p ps id parent h hn hst hk hps hid hl => ?child,
    fun d id s l hpre hplaced hq => ?select, fun d id s l hlt hc hone hd hl => ?token,
    fun id cid at_ s l cand hl hr hd ht hf hc hq hkill => execDrainRedecision_over hl hr hd ht hf hc hq hkill,
    fun c q id s l => ?safe, fun id at_ s l hl hr hck hno ht hf => ?withdraw, fun id s l hl hr => ?save,
    fun id s l hl hr hc hn => ?restore⟩
  case vector =>
    intro v
    refine ⟨fun he => ?_, fun h he hh hdone hids hsize => ⟨bankRequest_large (banksOk_of_launchBanks he hh), ?_⟩,
      fun h he hh hp hc => ?_⟩
    · have hx : exec (.startVector w) s = .next s.rejectVector := by
        change execStartVector w s = _
        simp only [execStartVector, show s.vectorError (startVecOf (natBytes 64 w.toNat)) = .launchVector from he]
      exact ⟨_, hx, rfl, rfl, rfl, rfl, rfl⟩
    · have hx : exec (.startVector w) s = .next (s.enterLaunch v ((s.headerFor v).getD Header.none_) .launchBanks none {}) := by
        change execStartVector w s = _
        simp only [execStartVector, show s.vectorError (startVecOf (natBytes 64 w.toNat)) = .launchBanks from he]
        rfl
      have hnew : s.openLevel .graph v.graph = none := by
        unfold State.openLevel
        split
        · rename_i r hr
          rw [if_pos (hdone r hr)]
        · rfl
      obtain ⟨⟨l, hlaunch, hv, hstate, hfail⟩, hm, hcores, hposted, r, hr, hcount, hrf⟩ :=
        State.enterLaunch_rejected (e := .launchBanks) (by simp) hnew hids hsize ((s.headerFor v).getD Header.none_)
      exact ⟨_, l, r, hx, hlaunch, hv, hstate, hfail, hposted, hr, hcount, hrf, hcores, hm⟩
    · have hx : exec (.startVector w) s = .next (s.enterLaunch v h .none none {}) := by
        change execStartVector w s = _
        simp only [execStartVector, show s.vectorError (startVecOf (natBytes 64 w.toNat)) = .none from he,
          show s.headerFor (startVecOf (natBytes 64 w.toNat)) = some h from hh]
        rfl
      obtain ⟨hnext, hlaunch, hm, -, hqueue, hg, hj⟩ := State.enterLaunch_leaves hp hc h none {}
      exact ⟨_, _, hx, hnext, hlaunch, rfl, rfl, rfl, rfl, hm, hqueue, hg, hj⟩
  case child =>
    intro v himage he hh hp hc hnot1 hnot2
    have hgoes : parent.goes = false := by simp [Launch.goes, hnot1, hnot2]
    have herr : s.childError parent (childVec parent (s.readLoc p.loc 64).1) = .none := (if_neg fun hne => hne himage).trans he
    have hx := execChildLaunchAccept_child hn hk hps hid hl hgoes herr
    rw [show s.headerFor (childVec parent (s.readLoc p.loc 64).1) = some h from hh] at hx
    obtain ⟨hnext, hlaunch, hm, hcores, -⟩ := State.enterLaunch_leaves (s := s.dropStore c q)
      (v := childVec parent (s.readLoc p.loc 64).1) hp hc h (some g) (s.past c q y.chain)
    refine ⟨_, _, hx, ?_, hnext, hlaunch, rfl, rfl, rfl, rfl, rfl, hm⟩
    rw [Option.getD_some, State.seq_of_cores hcores, State.dropStore_seq, hst]
    rfl
  case select =>
    have hp : s.placeable d id l = true := List.find?_some (p := fun e : Nat × Launch => s.placeable d e.1 e.2) hplaced
    obtain ⟨u, bays, hmem, hclock, hlen, hfree, hplace⟩ := State.place_queued hp hq
    obtain ⟨hm, hlaunch, hcore⟩ := u.startLaunch_leaves id
      (l := { l with bays := bays, cores := coresOn l.hdr bays, tokens := 0, holdOff := false, keptBays := [] }) (coresOn_nodup ..)
    rw [← hplace] at hm hlaunch hcore
    refine ⟨_, _, execSchedulerSelect_place hpre hplaced, hlaunch, rfl, hclock, rfl, hlen, hfree, hm.trans hmem, fun pos hpos => ?_⟩
    obtain ⟨k, hk⟩ := hcore pos hpos
    have hleaves := startCore_leaves id
      { l with bays := bays, cores := coresOn l.hdr bays, tokens := 0, holdOff := false, keptBays := [] } pos (l.entryAt pos) k
    rw [← show _ = startCore id _ pos (l.entryAt pos) k from hk] at hleaves
    exact hleaves
  case token =>
    refine ⟨_, execTokenAccrual_one hlt hc hone hd, ?_, ?_, ?_⟩
    · rw [State.die, State.modLaunch_dies]
      exact congrArg Die.accrued (State.die_modDie ..)
    · exact State.modLaunch_mem ..
    · rw [State.launch_modLaunch, if_pos rfl]
      exact congrArg (Option.map _) hl
  case safe =>
    intro x hrun hh hslot hdone hrec hpend hhold hid hl hck hsafe
    exact execSafePointStop_at hrun hh hslot hdone hrec hpend hhold hid hl hck hsafe
  case withdraw =>
    refine ⟨_, execCheckpointWithdraw_due hl hr hck hno ht hf, State.launch_setLaunch .., ?_, fun u hu hpark => ?_⟩
    · exact foldl_modSeq_same State.mem (fun _ _ _ _ => rfl) _ _ _
    · exact foldl_modSeq_reaches (p := fun x => x.run = .parked) (r := fun x => x.run = .running)
        (fun x hx => by split <;> simp_all) _ s (.inr ⟨hu, hpark⟩)
  case save =>
    obtain ⟨saved, spilled, hlen, hx⟩ := execCheckpointSave_ready hl hr
    obtain ⟨hrep, hcores⟩ := s.baysLeft_leaves l
    refine ⟨_, _, hx, State.launch_setLaunch .., rfl, rfl, rfl, hlen, ?_, hcores, ?_⟩
    · exact congrArg (· ++ [id]) hrep
    · have hqueue := (s.baysLeft l).queue_enqueueLaunch true id l
      exact (congrArg List.head? hqueue).trans rfl
  case restore =>
    have hlaunch := (congrArg (mapGet none · id) (State.traceSwaps_same State.launches aside_launches.traceRec
      ((l.saved.foldl (State.restoreOne id l) (s.baysTaken l fun k => { spareCore l.hdr k with cache := [] })).setLaunch id
        { l with state := .running, saved := [], spilled := 0 }) l 1)).trans (State.launch_setLaunch ..)
    refine ⟨_, _, execLaunchRestore_restoring hl hr hc, hlaunch, rfl, rfl, fun x hx => ?_⟩
    obtain ⟨hid, hseqs⟩ := foldl_restoreOne (id := id) l.saved (s.baysTaken l fun k => { spareCore l.hdr k with cache := [] }) hn x hx
    refine ⟨(State.traceSwaps_core (p := Core.launch) (fun _ _ => rfl) _ l 1 _).trans hid, fun q hq => ?_⟩
    have htrace := State.traceSwaps_seq (p := fun y => (y.sregs, y.pc, y.run)) (fun _ _ => rfl)
      ((l.saved.foldl (State.restoreOne id l) (s.baysTaken l fun k => { spareCore l.hdr k with cache := [] })).setLaunch id
        { l with state := .running, saved := [], spilled := 0 }) l 1 (l.cores.getD x.position 0) q
    simp only [Prod.mk.injEq] at htrace
    obtain ⟨hsregs, hpc, hrun⟩ := htrace
    obtain ⟨h1, h2, h3⟩ := hseqs q hq
    exact ⟨hsregs.trans h1, hpc.trans h2, hrun.trans h3⟩

end Sys2Proof.Proofs
end


section
/-! Results presented, drains and the ends of units (O47). -/
-- One proof after the other: elaborated side by side, the whole text's proofs need more memory than the check has.
set_option Elab.async false
namespace Sys2Proof.Machine
open Sys2Proof.Claims Sys2Proof.Laws

/-! ### Results presented (R69, R70) -/

theorem foldl_trigLater (l : List Res) (a : Res) : l.foldl trigLater a ∈ a :: l ∧ ∀ r ∈ a :: l, r.vis ≤ (l.foldl trigLater a).vis := by
  induction l generalizing a with
  | nil => simp
  | cons b l ih =>
    obtain ⟨hm, hmax⟩ := ih (trigLater a b)
    have hab : (trigLater a b = a ∨ trigLater a b = b) ∧ a.vis ≤ (trigLater a b).vis ∧ b.vis ≤ (trigLater a b).vis := by
      unfold trigLater
      split
      · exact ⟨.inr rfl, by assumption, Nat.le_refl _⟩
      · exact ⟨.inl rfl, Nat.le_refl _, by omega⟩
    obtain ⟨hin, ha, hb⟩ := hab
    have htop := hmax _ List.mem_cons_self
    refine ⟨?_, fun r hr => ?_⟩
    · obtain h | h := List.mem_cons.mp hm
      · rw [List.foldl_cons, h]
        obtain h | h := hin <;> simp [h]
      · exact List.mem_cons_of_mem _ (List.mem_cons_of_mem _ h)
    · rw [List.mem_cons, List.mem_cons] at hr
      obtain rfl | rfl | hr := hr
      · exact ha.trans htop
      · exact hb.trans htop
      · exact hmax r (List.mem_cons_of_mem _ hr)

theorem Port.current_eq (p : Port) (k : Nat) : p.current k = (p.queue.filter fun r => decide (r.vis ≤ k)).foldl trigLater p.cur := by
  simp [Port.current, List.foldl_filter]

theorem presented_present (p : Port) (k : Nat) : Presented p k (p.present k) := by
  obtain ⟨hm, hmax⟩ := foldl_trigLater (p.queue.filter fun r => decide (r.vis ≤ k)) p.cur
  rw [← Port.current_eq] at hm hmax
  exact ⟨rfl, hm, hmax⟩

/-- Presenting one of a sequencer's own ports changes its results and nothing else of it. -/
theorem results_modSeq (s : State) (c q : Nat) (f : ResPorts → ResPorts) :
    let t := s.modSeq c q fun x => { x with results := f x.results }
    (t.seq c q).results = f (s.seq c q).results ∧ (t.seq c q).sregs = (s.seq c q).sregs ∧ (t.seq c q).ports = (s.seq c q).ports := by
  simp

theorem ownPort_presents {e : ResPort × (ResPorts → Port)} (he : e ∈ ownPorts) (s : State) (c q : Nat) :
    ∃ f : ResPorts → ResPorts, exec (.fixedLatencyResult c q e.1) s = .next (s.modSeq c q fun x => { x with results := f x.results }) ∧
      ∀ r, e.2 (f r) = (e.2 r).present (s.seq c q).now ∧ ∀ g ∈ ownPorts, g.1 ≠ e.1 → g.2 (f r) = g.2 r := by
  simp only [ownPorts, List.mem_cons, List.not_mem_nil, or_false] at he
  obtain rfl | rfl | rfl | rfl | rfl | rfl := he
  · exact ⟨fun r => { r with ia0r := r.ia0r.present (s.seq c q).now }, rfl, fun r => ⟨rfl, by simp [ownPorts]⟩⟩
  · exact ⟨fun r => { r with ia1r := r.ia1r.present (s.seq c q).now }, rfl, fun r => ⟨rfl, by simp [ownPorts]⟩⟩
  · exact ⟨fun r => { r with imr := r.imr.present (s.seq c q).now }, rfl, fun r => ⟨rfl, by simp [ownPorts]⟩⟩
  · exact ⟨fun r => { r with imh := r.imh.present (s.seq c q).now }, rfl, fun r => ⟨rfl, by simp [ownPorts]⟩⟩
  · exact ⟨fun r => { r with plr := r.plr.present (s.seq c q).now }, rfl, fun r => ⟨rfl, by simp [ownPorts]⟩⟩
  · exact ⟨fun r => { r with crr := r.crr.present (s.seq c q).now }, rfl, fun r => ⟨rfl, by simp [ownPorts]⟩⟩

theorem vectorPort_presents {e : ResPort × (Core → Port)} (he : e ∈ vectorPorts) (s : State) {c q : Nat} (ho : (s.core c).owns q .vx = true) :
    ∃ f : Core → Core, exec (.fixedLatencyResult c q e.1) s = .next (s.modCore c f) ∧
      ∀ k, e.2 (f k) = (e.2 k).present (s.seq c q).now ∧ (f k).seqs = k.seqs ∧ ∀ g ∈ vectorPorts, g.1 ≠ e.1 → g.2 (f k) = g.2 k := by
  simp only [vectorPorts, List.mem_cons, List.not_mem_nil, or_false] at he
  obtain rfl | rfl | rfl := he
  · exact ⟨fun k => { k with vxr := k.vxr.present (s.seq c q).now }, congrArg Host.Outcome.next (if_pos ho), fun k => ⟨rfl, rfl, by simp [vectorPorts]⟩⟩
  · exact ⟨fun k => { k with vxm := k.vxm.present (s.seq c q).now }, congrArg Host.Outcome.next (if_pos ho), fun k => ⟨rfl, rfl, by simp [vectorPorts]⟩⟩
  · exact ⟨fun k => { k with vxs := k.vxs.present (s.seq c q).now }, congrArg Host.Outcome.next (if_pos ho), fun k => ⟨rfl, rfl, by simp [vectorPorts]⟩⟩

/-! ### Drains and units that end (R28, R187) -/

theorem mdrainRow_over {s : State} {c : Nat} {d : Drain} (hd : (s.core c).drain = some d)
    (h : d.cycle + 2 + d.rows.length ≤ (s.seq c (if (s.core c).hold.getLsbD 1 then 1 else 0)).cycle) :
    exec (.mdrainRow c) s = .next (s.modCore c fun k => { k with drain := none }) := by
  change execMdrainRow c s = _
  unfold execMdrainRow
  simp only [hd]
  exact if_pos h

/-- Nothing that a unit left behind is outstanding (R28). -/
theorem State.unitDone_of {s : State} {c q : Nat} (hr : (s.seq c q).run = .ending) (hs : (s.seq c q).stores = [])
    (hl : (s.seq c q).loads = []) (ho : ∀ o ∈ (s.core c).mxOps ++ (s.core c).tfOps, o.q ≠ q) (hk : (s.core c).stopk = none)
    (hv : (s.seq c q).kvLeft.getD [] = []) : s.unitDone c q = true := by
  have hm : (s.core c).mxOps.all (·.q != q) = true ∧ (s.core c).tfOps.all (·.q != q) = true := by
    simp only [List.all_eq_true, bne_iff_ne]
    exact ⟨fun o h => ho o (List.mem_append_left _ h), fun o h => ho o (List.mem_append_right _ h)⟩
  rw [State.seq] at hr hs hl hv
  simp [State.unitDone, Seq.kvOver, hr, hs, hl, hk, hv, hm]

theorem endUnit_free {s : State} {c q : Nat} (hl : (s.core c).launch = none) :
    s.endUnit c q = s.setSeq c q { s.seq c q with run := .idle } := by
  simp only [State.endUnit, hl]

/-- A launch with one unit less, and what that unit made of it (R28, R39). -/
def Launch.less (l : Launch) (x : Seq) : Launch :=
  { l with counter := l.counter - 1, isFailed := l.isFailed || x.unitFailed, isAbsorbed := l.isAbsorbed || x.unitAbsorbed }

theorem Core.seq_endFences (k : Core) (q r : Nat) : (k.endFences q).seq r = k.seq r := by
  unfold Core.endFences
  split <;> rfl

theorem endUnit_counts {s : State} {c q id : Nat} {l : Launch} (hc : (s.core c).launch = some id) (hl : s.launch id = some l)
    (hn : 2 ≤ l.counter) (hr : (s.seq c q).restart = false) : let t := s.endUnit c q
    (t.seq c q).run = .idle ∧ t.mem = s.mem ∧ t.launch id = some (l.less (s.seq c q)) := by
  have hnot : ¬ (l.less (s.seq c q)).counter = 0 := by simp only [Launch.less]; omega
  have he : s.endUnit c q = (((((s.setSeq c q { s.seq c q with run := .idle, restart := false, unitFailed := false, unitAbsorbed := false }).modCore
      c fun k => k.endFences q).setLaunch id (l.less (s.seq c q))).modLevel .phase l.vec.phase fun r =>
        { r with past := r.past.join ((((s.setSeq c q { s.seq c q with run := .idle, restart := false, unitFailed := false, unitAbsorbed := false }).modCore
      c fun k => k.endFences q).setLaunch id (l.less (s.seq c q))).past c q (s.seq c q).chain) })) := by
    simp only [State.endUnit, hc, hl, hr, Bool.false_and, Bool.false_eq_true, if_false]
    exact if_neg hnot
  dsimp only
  rw [he]
  refine ⟨?_, ?_, ?_⟩
  · rw [State.seq_of_cores (State.modLevel_cores ..), State.seq_of_cores (State.setLaunch_cores ..), State.seq, State.core_modCore,
      Core.seq_endFences]
    exact congrArg Seq.run (State.seq_setSeq ..)
  · rw [State.modLevel_mem, State.setLaunch_mem, State.modCore_mem, State.setSeq_mem]
  · rw [State.launch, State.modLevel_launches]
    exact State.launch_setLaunch ..

end Sys2Proof.Machine
end


section
/-! Exact sums (O47). -/
-- One proof after the other: elaborated side by side, the whole text's proofs need more memory than the check has.
set_option Elab.async false
namespace Sys2Proof.Machine
open Sys2Proof.Claims Sys2Proof.Laws

/-! ### Exact sums (R139) -/

/-- Every term is finite. -/
def AllFin (ts : List FVal) : Prop := ∀ x ∈ ts, ∃ n m e, x = .fin n m e

/-- No term has an exponent below `lo`. -/
def AboveExp (lo : Int) (ts : List FVal) : Prop := ∀ x ∈ ts, ∀ n m e, x = .fin n m e → lo ≤ e

theorem exactSum_exp {lo : Int} (h0 : lo ≤ 0) {ts : List FVal} (h : AboveExp lo ts) : lo ≤ (exactSum ts).2 := by
  induction ts with
  | nil => exact h0
  | cons x xs ih =>
    have hxs : lo ≤ (exactSum xs).2 := ih fun y hy => h y (List.mem_cons_of_mem _ hy)
    cases x with
    | fin n m e => exact Int.le_min.mpr ⟨h _ List.mem_cons_self n m e rfl, hxs⟩
    | nan _ => exact hxs
    | inf _ => exact hxs

theorem pow_sub_split {lo mid e : Int} (h : lo ≤ mid) (h' : mid ≤ e) :
    (2 : Int) ^ (e - lo).toNat = 2 ^ (e - mid).toNat * 2 ^ (mid - lo).toNat := by
  rw [← pow_add]
  congr 1
  omega

/-- The sum as a multiple of 2^lo. -/
theorem exactSum_scaled {lo : Int} (h0 : lo ≤ 0) {ts : List FVal} (hf : AllFin ts) (h : AboveExp lo ts) :
    (exactSum ts).1 * 2 ^ ((exactSum ts).2 - lo).toNat = (ts.map (scaled lo)).sum := by
  induction ts with
  | nil => simp [exactSum]
  | cons x xs ih =>
    obtain ⟨n, m, e, rfl⟩ := hf x List.mem_cons_self
    have habove : AboveExp lo xs := fun y hy => h y (List.mem_cons_of_mem _ hy)
    have hxs := ih (fun y hy => hf y (List.mem_cons_of_mem _ hy)) habove
    have he : lo ≤ e := h _ List.mem_cons_self n m e rfl
    have hr := exactSum_exp h0 habove
    rw [List.map_cons, List.sum_cons, ← hxs]
    simp only [exactSum, scaled]
    generalize exactSum xs = r at *
    have hmin : lo ≤ min e r.2 := Int.le_min.mpr ⟨he, hr⟩
    rw [pow_sub_split hmin (Int.min_le_left e r.2), pow_sub_split hmin (Int.min_le_right e r.2)]
    cases n <;> simp <;> ring

theorem sumOf_fin {rm : RM} {ts : List FVal} (hf : AllFin ts) : sumOf rm ts =
    (if (exactSum ts).1 = 0 then .fin (zeroSign rm ts) 0 0 else .fin ((exactSum ts).1 < 0) (exactSum ts).1.natAbs (exactSum ts).2, 0) := by
  have hinf : ∀ b, ts.any (fun t => t == .inf b) = false := by
    intro b
    rw [List.any_eq_false]
    intro x hx
    obtain ⟨n, m, e, rfl⟩ := hf x hx
    simp
  have hnan : ts.any FVal.isNan = false := by
    rw [List.any_eq_false]
    intro x hx
    obtain ⟨n, m, e, rfl⟩ := hf x hx
    simp [FVal.isNan]
  simp only [sumOf, hinf, hnan, Bool.and_self, Bool.false_eq_true, if_false]
  split <;> rfl

theorem scaled_natAbs (lo a : Int) (e : Int) : scaled lo (.fin (decide (a < 0)) a.natAbs e) = a * 2 ^ (e - lo).toNat := by
  simp only [scaled, decide_eq_true_eq]
  split <;> congr 1 <;> omega

theorem zeroSign_iff {rm : RM} {ts : List FVal} (hn : ts ≠ []) :
    zeroSign rm ts = true ↔ (∀ x ∈ ts, fIsNeg x = true) ∨ (∃ x ∈ ts, fIsNeg x = true) ∧ rm = .rdn := by
  unfold zeroSign
  split
  case isTrue h => exact iff_of_true (by simpa using hn) (.inl (List.all_eq_true.mp h))
  case isFalse h =>
    rw [← List.all_eq_true, ← List.any_eq_true]
    split
    case isTrue h' => simp [h, h']
    case isFalse h' => simp [h, h']

/-- The sum of finite terms is finite and exact, its zero signed (R139). -/
theorem sumOf_exact (rm : RM) {ts : List FVal} (hf : AllFin ts) :
    (sumOf rm ts).2 = 0 ∧ ∃ n m e, (sumOf rm ts).1 = .fin n m e ∧
      (∀ lo : Int, lo ≤ 0 → AboveExp lo ts → scaled lo (.fin n m e) = (ts.map (scaled lo)).sum) ∧
      (m = 0 → ts ≠ [] → (n = true ↔ (∀ x ∈ ts, fIsNeg x = true) ∨ (∃ x ∈ ts, fIsNeg x = true) ∧ rm = .rdn)) := by
  rw [sumOf_fin hf]
  refine ⟨rfl, ?_⟩
  by_cases h : (exactSum ts).1 = 0
  · refine ⟨zeroSign rm ts, 0, 0, if_pos h, fun lo h0 ha => ?_, fun _ hn => zeroSign_iff hn⟩
    rw [← exactSum_scaled h0 hf ha, h]
    simp [scaled]
  · refine ⟨_, _, _, if_neg h, fun lo h0 ha => ?_, fun hm => absurd (Int.natAbs_eq_zero.mp hm) h⟩
    rw [scaled_natAbs, exactSum_scaled h0 hf ha]

end Sys2Proof.Machine
end


section
/-! Runs of lists, bytes and grids. -/
-- One proof after the other: elaborated side by side, the whole text's proofs need more memory than the check has.
set_option Elab.async false
namespace Sys2Proof.Machine
open Sys2Proof.Claims Sys2Proof.Laws

/-! ### Runs of a list -/

theorem take_drop_getD {α : Type} (d : α) {l : List α} {a n : Nat} (h : a + n ≤ l.length) :
    (l.drop a).take n = (List.range n).map fun i => l.getD (a + i) d := by
  refine List.ext_getElem (by simp; omega) fun i h₁ h₂ => ?_
  have hi : a + i < l.length := by rw [List.length_map, List.length_range] at h₂; omega
  simp [hi]

theorem length_flatten_blocks {α : Type} {n : Nat} {f : Nat → List α} (hf : ∀ i, (f i).length = n) (m : Nat) :
    (((List.range m).map f).flatten).length = n * m := by
  simp [List.length_flatten, Function.comp_def, hf, Nat.mul_comm]

/-- A run within one of the blocks of a list. -/
theorem take_drop_blocks {α : Type} {n : Nat} {f : Nat → List α} (hf : ∀ i, (f i).length = n) {m i a b : Nat} (hi : i < m)
    (hab : a + b ≤ n) : ((((List.range m).map f).flatten).drop (n * i + a)).take b = ((f i).drop a).take b := by
  have hle : n * (i + 1) ≤ n * m := Nat.mul_le_mul_left n hi
  rw [Nat.mul_succ] at hle
  refine List.ext_getElem ?_ fun j h₁ h₂ => ?_
  · rw [List.length_take, List.length_drop, length_flatten_blocks hf, List.length_take, List.length_drop, hf]
    omega
  · have hj : j < b := by rw [List.length_take] at h₂; omega
    have hd : ((f i).drop a).length ≠ 0 := by rw [List.length_take] at h₂; omega
    have hdef : α := ((f i).drop a)[0]'(by omega)
    have hget := getD_flatten_blocks hdef f hf m hi (show a + j < n by omega)
    rw [List.getD_eq_getElem _ _ (by rw [length_flatten_blocks hf]; omega), List.getD_eq_getElem _ _ (by rw [hf]; omega)] at hget
    simpa [Nat.add_assoc] using hget

theorem take_drop_block {α : Type} {n : Nat} {f : Nat → List α} (hf : ∀ i, (f i).length = n) {m i : Nat} (hi : i < m) :
    ((((List.range m).map f).flatten).drop (n * i)).take n = f i := by
  have h := take_drop_blocks hf hi (a := 0) (b := n) (by omega)
  rwa [Nat.add_zero, List.drop_zero, List.take_of_length_le (hf i).le] at h

/-! ### Bytes and numbers (R5) -/

theorem leNat_natBytes (k n : Nat) : leNat (natBytes k n) = n % 256 ^ k := by
  induction k generalizing n with
  | zero => simp [natBytes, leNat, Nat.mod_one]
  | succ k ih =>
    rw [natBytes, leNat, ih, BitVec.toNat_ofNat, Nat.pow_succ' (n := k)]
    exact Nat.mod_mul.symm

/-! ### Grids -/

/-- Rows and columns of values. -/
def grid {α : Type} (m n : Nat) (f : Nat → Nat → α) : List (List α) := (List.range m).map fun i => (List.range n).map (f i)

theorem grid_congr {α : Type} {m n : Nat} {f g : Nat → Nat → α} (h : ∀ i < m, ∀ j < n, f i j = g i j) : grid m n f = grid m n g :=
  List.map_congr_left fun i hi => List.map_congr_left fun j hj => h i (List.mem_range.mp hi) j (List.mem_range.mp hj)

theorem map_grid {α β : Type} (m n : Nat) (f : Nat → Nat → α) (g : α → β) :
    (grid m n f).map (fun r => r.map g) = grid m n fun i j => g (f i j) := by
  simp [grid, Function.comp_def]

theorem zip_grid {α β γ : Type} (m n : Nat) (f : Nat → Nat → α) (g : Nat → Nat → β) (h : α × β → γ) :
    ((grid m n f).zip (grid m n g)).map (fun r => (r.1.zip r.2).map h) = grid m n fun i j => h (f i j, g i j) := by
  simp [grid, List.zip_map', Function.comp_def]

theorem cutList_eq {α : Type} (n k : Nat) (xs : List α) : cutList n k xs = (List.range k).map fun i => (xs.drop (n * i)).take n := by
  induction k generalizing xs with
  | zero => rfl
  | succ k ih =>
    rw [cutList, ih, List.range_succ_eq_map, List.map_cons, List.map_map]
    simp only [Nat.mul_zero, List.drop_zero, List.drop_drop, Function.comp_def, Nat.succ_eq_add_one, Nat.mul_succ, Nat.add_comm]

theorem cutList_grid {α : Type} (d : α) {m n : Nat} {xs : List α} (h : m * n ≤ xs.length) :
    cutList n m xs = grid m n fun i j => xs.getD (i * n + j) d := by
  rw [cutList_eq]
  refine List.map_congr_left fun i hi => ?_
  have hle : (i + 1) * n ≤ m * n := Nat.mul_le_mul_right n (List.mem_range.mp hi)
  rw [Nat.succ_mul] at hle
  rw [Nat.mul_comm, take_drop_getD d (by omega)]

/-- The columns of rows that a list of indices lays out. -/
theorem transposeRows_map {α β : Type} (n : Nat) (l : List β) (f : β → Nat → α) :
    transposeRows n (l.map fun p => (List.range n).map (f p)) = (List.range n).map fun j => l.map fun p => f p j := by
  refine List.map_congr_left fun j hj => ?_
  have hcol : (l.map fun p => (List.range n).map (f p)).map (fun r => r[j]?) = (l.map fun p => f p j).map some := by
    rw [List.map_map, List.map_map]
    refine List.map_congr_left fun p _ => ?_
    simp [List.mem_range.mp hj]
  rw [hcol, List.reduceOption, List.filterMap_map]
  simp

theorem transposeRows_grid {α : Type} (m n : Nat) (f : Nat → Nat → α) : transposeRows n (grid m n f) = grid n m fun j i => f i j :=
  transposeRows_map n (List.range m) f

theorem flatten_rows {α : Type} (m n : Nat) (f : Nat → Nat → List α) :
    (grid m n f).map List.flatten = (List.range m).map fun i => ((List.range n).map (f i)).flatten := by
  simp [grid, Function.comp_def]

theorem length_grid_bytes {m n k : Nat} {f : Nat → Nat → List Byte} (hf : ∀ i j, (f i j).length = k) :
    (((grid m n f).map List.flatten).flatten).length = k * (m * n) := by
  have hrow : ∀ i, (((List.range n).map (f i)).flatten).length = k * n := fun i => length_flatten_blocks (hf i) n
  rw [flatten_rows, length_flatten_blocks hrow, Nat.mul_assoc, Nat.mul_comm n m]

/-- Elements of `k` bytes each, row by row. -/
theorem take_drop_grid_bytes {m n k : Nat} (f : Nat → Nat → List Byte) (hf : ∀ i j, (f i j).length = k) {i j : Nat} (hi : i < m)
    (hj : j < n) : ((((grid m n f).map List.flatten).flatten).drop (k * (i * n + j))).take k = f i j := by
  have hrow : ∀ i, (((List.range n).map (f i)).flatten).length = k * n := fun i => length_flatten_blocks (hf i) n
  have hle : k * (j + 1) ≤ k * n := Nat.mul_le_mul_left k hj
  rw [Nat.mul_succ] at hle
  rw [flatten_rows, show k * (i * n + j) = k * n * i + k * j by rw [Nat.mul_add, Nat.mul_comm i n, Nat.mul_assoc],
    take_drop_blocks hrow hi hle]
  exact take_drop_block (hf i) hj

end Sys2Proof.Machine
end


section
/-! Ranking order and stopk (O47). -/
-- One proof after the other: elaborated side by side, the whole text's proofs need more memory than the check has.
set_option Elab.async false
namespace Sys2Proof.Machine
open Sys2Proof.Claims Sys2Proof.Laws

/-! ### Ranking order (R157) -/

theorem ranksBefore_iff (a b : Nat × Nat) : ranksBefore a b = true ↔ b.1 < a.1 ∨ a.1 = b.1 ∧ a.2 < b.2 := by
  simp [ranksBefore]

theorem ranksBefore_trans {a b c : Nat × Nat} (h : ranksBefore a b = true) (h' : ranksBefore b c = true) : ranksBefore a c = true := by
  rw [ranksBefore_iff] at *
  omega

theorem ranksBefore_other {a b : Nat × Nat} (hne : a.2 ≠ b.2) (h : ¬ ranksBefore a b = true) : ranksBefore b a = true := by
  rw [ranksBefore_iff] at *
  omega

theorem rankInsert_perm (x : Nat × Nat) (l : List (Nat × Nat)) : (rankInsert x l).Perm (x :: l) := by
  induction l with
  | nil => rfl
  | cons y l ih =>
    unfold rankInsert
    split
    · rfl
    · exact (ih.cons y).trans (List.Perm.swap x y l)

theorem rankSort_perm (l : List (Nat × Nat)) : (rankSort l).Perm l := by
  induction l with
  | nil => rfl
  | cons x l ih => exact (rankInsert_perm x _).trans (ih.cons x)

theorem rankInsert_pairwise {x : Nat × Nat} {l : List (Nat × Nat)} (hx : ∀ y ∈ l, x.2 ≠ y.2)
    (hl : l.Pairwise fun a b => ranksBefore a b = true) : (rankInsert x l).Pairwise fun a b => ranksBefore a b = true := by
  induction l with
  | nil => exact List.pairwise_singleton ..
  | cons y l ih =>
    obtain ⟨hy, hl'⟩ := List.pairwise_cons.mp hl
    unfold rankInsert
    split
    case isTrue h =>
      refine List.pairwise_cons.mpr ⟨fun z hz => ?_, hl⟩
      obtain rfl | hz := List.mem_cons.mp hz
      · exact h
      · exact ranksBefore_trans h (hy z hz)
    case isFalse h =>
      refine List.pairwise_cons.mpr ⟨fun z hz => ?_, ih (fun z hz => hx z (List.mem_cons_of_mem _ hz)) hl'⟩
      obtain rfl | hz := List.mem_cons.mp ((rankInsert_perm x l).mem_iff.mp hz)
      · exact ranksBefore_other (hx y List.mem_cons_self) h
      · exact hy z hz

/-- Keys with different indices are sorted strictly. -/
theorem rankSort_pairwise {l : List (Nat × Nat)} (h : (l.map (·.2)).Nodup) : (rankSort l).Pairwise fun a b => ranksBefore a b = true := by
  induction l with
  | nil => exact List.Pairwise.nil
  | cons x l ih =>
    obtain ⟨hx, hl⟩ := List.nodup_cons.mp h
    refine rankInsert_pairwise (fun y hy he => hx ?_) (ih hl)
    change x.2 ∈ _
    rw [he]
    exact List.mem_map_of_mem ((rankSort_perm l).mem_iff.mp hy)

/-! ### The keys and the records of a `stopk` (R159, R161) -/

/-- The ranked keys of a `stopk`. -/
def stopkRanked (k : Core) (o : Stopk) : List (Nat × Nat) := rankSort ((List.range o.n).map (stopkRank k o))

/-- The indices that a `stopk` selects, in ranking order. -/
def stopkChosen (k : Core) (o : Stopk) : List Nat := ((stopkRanked k o).take o.k).map (·.2)

theorem stopkRanked_perm (k : Core) (o : Stopk) : (stopkRanked k o).Perm ((List.range o.n).map (stopkRank k o)) := rankSort_perm _

theorem stopkRanked_mem {k : Core} {o : Stopk} {e : Nat × Nat} (h : e ∈ stopkRanked k o) : e.2 < o.n ∧ stopkRank k o e.2 = e := by
  obtain ⟨i, hi, rfl⟩ := List.mem_map.mp ((stopkRanked_perm k o).mem_iff.mp h)
  exact ⟨List.mem_range.mp hi, rfl⟩

theorem stopkRanked_pairwise (k : Core) (o : Stopk) : (stopkRanked k o).Pairwise fun a b => ranksBefore a b = true := by
  refine rankSort_pairwise ?_
  rw [List.map_map, show (fun e : Nat × Nat => e.2) ∘ stopkRank k o = id from rfl, List.map_id]
  exact List.nodup_range

theorem length_stopkRanked (k : Core) (o : Stopk) : (stopkRanked k o).length = o.n := by
  rw [(stopkRanked_perm k o).length_eq, List.length_map, List.length_range]

theorem length_stopkChosen {k : Core} {o : Stopk} (h : o.k ≤ o.n) : (stopkChosen k o).length = o.k := by
  rw [stopkChosen, List.length_map, List.length_take, length_stopkRanked, Nat.min_eq_left h]

theorem stopkChosen_lt {k : Core} {o : Stopk} {i : Nat} (h : i ∈ stopkChosen k o) : i < o.n := by
  obtain ⟨e, he, rfl⟩ := List.mem_map.mp h
  exact (stopkRanked_mem (List.mem_of_mem_take he)).1

theorem stopkChosen_pairwise (k : Core) (o : Stopk) :
    (stopkChosen k o).Pairwise fun i j => ranksBefore (stopkRank k o i) (stopkRank k o j) = true := by
  rw [stopkChosen, List.pairwise_map]
  refine ((stopkRanked_pairwise k o).sublist (List.take_sublist ..)).imp_of_mem fun {a b} ha hb h => ?_
  rwa [(stopkRanked_mem (List.mem_of_mem_take ha)).2, (stopkRanked_mem (List.mem_of_mem_take hb)).2]

/-- Every key that is selected ranks before every key that is not. -/
theorem stopkChosen_before {k : Core} {o : Stopk} {i j : Nat} (hi : i ∈ stopkChosen k o) (hj : j < o.n) (hn : j ∉ stopkChosen k o) :
    ranksBefore (stopkRank k o i) (stopkRank k o j) = true := by
  obtain ⟨e, he, rfl⟩ := List.mem_map.mp hi
  have hall : stopkRank k o j ∈ stopkRanked k o := (stopkRanked_perm k o).mem_iff.mpr (List.mem_map_of_mem (List.mem_range.mpr hj))
  rw [← List.take_append_drop o.k (stopkRanked k o)] at hall
  obtain htake | hdrop := List.mem_append.mp hall
  · exact absurd (List.mem_map_of_mem (f := (·.2)) htake) hn
  · have hp := stopkRanked_pairwise k o
    rw [← List.take_append_drop o.k (stopkRanked k o)] at hp
    rw [(stopkRanked_mem (List.mem_of_mem_take he)).2]
    exact (List.pairwise_append.mp hp).2.2 e he _ hdrop

/-- Record `n` of the output: an index and its key as it stands. -/
def stopkRecord (k : Core) (o : Stopk) (n : Nat) : List Byte :=
  natBytes 4 ((stopkChosen k o).getD n 0) ++ natBytes 4 (stopkRaw k o ((stopkChosen k o).getD n 0))

theorem length_stopkRecord (k : Core) (o : Stopk) (n : Nat) : (stopkRecord k o n).length = 8 := by
  rw [stopkRecord, List.length_append, length_natBytes, length_natBytes]

theorem stopkRecords_eq {k : Core} {o : Stopk} (h : o.k ≤ o.n) : stopkRecords k o = ((List.range o.k).map (stopkRecord k o)).flatten := by
  change (((stopkRanked k o).take o.k).map fun e => natBytes 4 e.2 ++ natBytes 4 (stopkRaw k o e.2)).flatten = _
  congr 1
  have hlen := length_stopkRanked k o
  refine List.ext_getElem (by simp [hlen, h]) fun i h₁ h₂ => ?_
  have hi : i < o.k := by simpa using h₂
  have hi' : i < (stopkRanked k o).length := by omega
  simp [stopkRecord, stopkChosen, hi, hi']

theorem length_stopkRecords {k : Core} {o : Stopk} (h : o.k ≤ o.n) : (stopkRecords k o).length = 8 * o.k := by
  rw [stopkRecords_eq h, length_flatten_blocks (length_stopkRecord k o)]

theorem take_drop_stopkRecords {k : Core} {o : Stopk} (h : o.k ≤ o.n) {n : Nat} (hn : n < o.k) :
    ((stopkRecords k o).drop (8 * n)).take 8 = stopkRecord k o n := by
  rw [stopkRecords_eq h, take_drop_block (length_stopkRecord k o) hn]

/-! ### What a `stopk` writes (R161, R163) -/

/-- A write to the scratchpad while no `stopk` runs. -/
theorem writeSpad_free {k : Core} (hk : k.stopk = none) (off : Nat) (bs : List (Option Byte)) : (k.writeSpad off bs).stopk = none := by
  simp [Core.writeSpad, hk]

/-- Bytes of the scratchpad after a write, each as it was or as it is written. -/
theorem mapGet_writeSpad (k : Core) (off : Nat) (bs : List (Option Byte)) (a : Nat) :
    mapGet 0 (k.writeSpad off bs).spad a = (if off ≤ a then bs.getD (a - off) none else none).getD (mapGet 0 k.spad a) :=
  mapGet_writeBytes ..

theorem stopkGoes_of {k : Core} {o : Stopk} (h : EpochOver (k.seq o.q) (o.epoch - 1)) : k.stopkGoes o = true := by
  obtain ⟨hs, hl⟩ := h
  simp only [Core.stopkGoes, Seq.epochDone, Seq.allLoads, Bool.and_eq_true, List.all_eq_true, Bool.or_eq_true, decide_eq_true_eq]
  exact ⟨hs, hl⟩

/-- The core after one record of a `stopk` is written. -/
def Core.recordWritten (k : Core) (o : Stopk) (i : Nat) : Core :=
  { ({ k with stopk := none } : Core).writeSpad (o.ooff + 8 * i) ((((o.output k).drop (8 * i)).take 8).map some) with
    stopk := some { o with out := some (o.output k), written := i :: o.written } }

theorem stopkWrite_eq {s : State} {c i : Nat} {o : Stopk} (ho : (s.core c).stopk = some o) (hgo : (s.core c).stopkGoes o = true)
    (hi : i < o.k) (hs : o.spoiled = false) (hw : i ∉ o.written) :
    s.stopkWrite c i = s.setCore c ((s.core c).recordWritten o i) := by
  simp only [State.stopkWrite, ho]
  refine if_pos ?_
  simp [hgo, hs, hi, hw]

theorem readSpad_recordWritten {k : Core} {o : Stopk} {i : Nat} (hi : i < o.k) (h : (o.output k).length = 8 * o.k) :
    (k.recordWritten o i).readSpad (o.ooff + 8 * i) 8 = ((o.output k).drop (8 * i)).take 8 := by
  rw [take_drop_getD 0 (by omega)]
  refine List.map_congr_left fun j hj => ?_
  have hj : j < 8 := List.mem_range.mp hj
  refine (mapGet_writeSpad ..).trans ?_
  have hin : 8 * i + j < (o.output k).length := by omega
  rw [if_pos (by omega), Nat.add_sub_cancel_left]
  simp [hj, hin]

theorem spad_recordWritten_outside (k : Core) (o : Stopk) {i a : Nat} (h : a < o.ooff + 8 * i ∨ o.ooff + 8 * i + 8 ≤ a) :
    mapGet 0 (k.recordWritten o i).spad a = mapGet 0 k.spad a := by
  refine (mapGet_writeSpad ..).trans ?_
  obtain h | h := h
  · rw [if_neg (by omega)]
    rfl
  · have hlen : ((((o.output k).drop (8 * i)).take 8).map some).length ≤ a - (o.ooff + 8 * i) := by
      rw [List.length_map, List.length_take]
      omega
    rw [if_pos (by omega), List.getD_eq_default _ _ hlen]
    rfl

theorem toWrite_getD (o : Stopk) {bs : List Byte} {j : Nat} (h : j < bs.length) :
    (o.toWrite bs).getD j none = if j / 8 ∈ o.written then none else some (bs.getD j 0) := by
  unfold Stopk.toWrite
  split
  case isTrue he => simp [List.isEmpty_iff.mp he, h]
  case isFalse => simp [h]

/-- The core after a `stopk` has completed. -/
def Core.stopkDone (k : Core) (o : Stopk) (bs : List (Option Byte)) : Core := (({ k with stopk := none } : Core).writeSpad o.ooff bs).setReady o.tag true

/-- The scratchpad after a `stopk` that was not spoiled: the records not written before are written now. -/
theorem readSpad_stopkDone {k : Core} {o : Stopk} {bs : List Byte} (h : bs.length = 8 * o.k) {n : Nat} (hn : n < o.k) :
    (k.stopkDone o (o.toWrite bs)).readSpad (o.ooff + 8 * n) 8 =
      if n ∈ o.written then k.readSpad (o.ooff + 8 * n) 8 else (bs.drop (8 * n)).take 8 := by
  have hbyte : ∀ j < 8, mapGet 0 (k.stopkDone o (o.toWrite bs)).spad (o.ooff + 8 * n + j) =
      if n ∈ o.written then mapGet 0 k.spad (o.ooff + 8 * n + j) else bs.getD (8 * n + j) 0 := by
    intro j hj
    refine (mapGet_writeSpad ..).trans ?_
    rw [if_pos (by omega), Nat.add_assoc, Nat.add_sub_cancel_left, toWrite_getD o (by omega), show (8 * n + j) / 8 = n by omega]
    split <;> rfl
  rw [take_drop_getD 0 (by omega)]
  split
  case isTrue hw => exact List.map_congr_left fun j hj => by rw [hbyte j (List.mem_range.mp hj), if_pos hw]
  case isFalse hw => exact List.map_congr_left fun j hj => by rw [hbyte j (List.mem_range.mp hj), if_neg hw]

/-- The completion of a `stopk`, with what it writes (R161). -/
theorem execStopkComplete_eq {s : State} {c : Nat} {o : Stopk} (ho : (s.core c).stopk = some o) (hgo : (s.core c).stopkGoes o = true) :
    ∃ bs u, exec (.stopkComplete c) s = .next (State.modCore u c fun k => k.stopkDone o bs) ∧ u.mem = s.mem ∧ u.core c = s.core c ∧
      (o.spoiled = false → bs = o.toWrite (o.output (s.core c))) := by
  change ∃ bs u, execStopkComplete c s = .next (State.modCore u c fun k => k.stopkDone o bs) ∧ _
  unfold execStopkComplete
  simp only [ho]
  rw [if_pos hgo]
  cases o.spoiled
  · exact ⟨_, s, rfl, rfl, rfl, fun _ => rfl⟩
  · exact ⟨_, _, rfl, rfl, rfl, by simp⟩

theorem stopkDone_ready (k : Core) (o : Stopk) (bs : List (Option Byte)) :
    (k.stopkDone o bs).stopk = none ∧ (k.stopkDone o bs).ready o.tag = true := by
  refine ⟨writeSpad_free (k := { k with stopk := none }) rfl o.ooff bs, ?_⟩
  simp [Core.stopkDone, Core.setReady, Core.ready]

end Sys2Proof.Machine
end


section
/-! The elements of tiles, and their conversion (O47). -/
-- One proof after the other: elaborated side by side, the whole text's proofs need more memory than the check has.
set_option Elab.async false
namespace Sys2Proof.Machine
open Sys2Proof.Claims Sys2Proof.Laws

/-! ### The elements of a tile (R164, R168) -/

theorem index_lt {m n i j : Nat} (hi : i < m) (hj : j < n) : i * n + j < m * n := by
  have h : (i + 1) * n ≤ m * n := Nat.mul_le_mul_right n hi
  rw [Nat.succ_mul] at h
  omega

theorem getD_map_range {α : Type} (d : α) (f : Nat → α) {n i : Nat} (h : i < n) : ((List.range n).map f).getD i d = f i := by
  simp [h]

theorem rawRows_grid (fmt rows cols : Nat) (bs : List Byte) : rawRows fmt rows cols bs =
    grid rows cols fun r c => leNat ((bs.drop (elemBytes fmt * (r * cols + c))).take (elemBytes fmt)) := by
  rw [rawRows, cutList_eq (elemBytes fmt), List.map_map, cutList_grid 0 (by simp)]
  exact grid_congr fun i hi j hj => getD_map_range 0 _ (index_lt hi hj)

theorem hxRows_grid (h : Hx) {rows cols : Nat} (hc : cols % 16 = 0) (bs : List Byte) : hxRows h rows cols bs =
    grid rows cols fun r c => h.elem (leNat ((bs.drop ((r * cols + c) / 16 * h.bytes)).take h.bytes)) ((r * cols + c) % 16) := by
  have hlen : ∀ k, ((List.range 16).map fun i => h.elem (leNat ((bs.drop (h.bytes * k)).take h.bytes)) i).length = 16 := by simp
  have hdvd : 16 * (rows * cols / 16) = rows * cols := Nat.mul_div_cancel' ((Nat.dvd_of_mod_eq_zero hc).mul_left rows)
  rw [hxRows, cutList_eq h.bytes, List.map_map]
  change cutList cols rows (((List.range (rows * cols / 16)).map fun k =>
    (List.range 16).map fun i => h.elem (leNat ((bs.drop (h.bytes * k)).take h.bytes)) i).flatten) = _
  rw [cutList_grid (.nan false) (by rw [length_flatten_blocks hlen, hdvd])]
  refine grid_congr fun i hi j hj => ?_
  have hlt := index_lt hi hj
  rw [← Nat.div_add_mod (i * cols + j) 16]
  rw [getD_flatten_blocks _ _ hlen _ (by omega) (Nat.mod_lt _ (by omega)), getD_map_range _ _ (Nat.mod_lt _ (by omega)), Nat.div_add_mod,
    Nat.mul_comm h.bytes]

theorem elemVal_plain {x : Tile} (hx : hxOf x.fmt = none) (r c : Nat) : elemVal (x, r, c) =
    (if x.fmt = 8 then Fmt.f16 else if x.fmt = 9 then Fmt.bf16 else Fmt.f32).read
      (leNat ((x.data.drop (elemBytes x.fmt * (r * x.cols + c))).take (elemBytes x.fmt))) := by
  simp only [elemVal, hx]

/-- The place of an element in the order of a tile's blocks. -/
def Tile.blockPlace (x : Tile) (r c : Nat) : Nat := if x.bdir then c * x.rows + r else r * x.cols + c

theorem elemVal_block {x : Tile} {h : Hx} (hx : hxOf x.fmt = some h) (r c : Nat) : elemVal (x, r, c) =
    h.elem (leNat ((x.data.drop (x.blockPlace r c / 16 * h.bytes)).take h.bytes)) (x.blockPlace r c % 16) := by
  simp only [elemVal, hx, Tile.blockPlace]

theorem tileVals_grid (x : Tile) (h : (hxOf x.fmt).isSome = true → (if x.bdir then x.rows else x.cols) % 16 = 0) :
    tileVals x.fmt x.rows x.cols x.bdir x.data = grid x.rows x.cols fun r c => elemVal (x, r, c) := by
  unfold tileVals
  cases hx : hxOf x.fmt with
  | none =>
    simp only [elemVal_plain hx, rawRows_grid, map_grid, beq_iff_eq]
  | some f =>
    rw [hx] at h
    have h16 := h rfl
    simp only [elemVal_block hx, Tile.blockPlace]
    cases hb : x.bdir with
    | false =>
      simp only [hb, Bool.false_eq_true, if_false] at h16 ⊢
      exact hxRows_grid f h16 _
    | true =>
      simp only [hb, if_true] at h16 ⊢
      rw [hxRows_grid f h16, transposeRows_grid]

/-! ### Rounded patterns fit their format (R125, R132) -/

theorem Fmt.infBits_lt (f : Fmt) (hm : 0 < f.mbits) : f.infBits + 2 ^ (f.mbits - 1) < f.signBit := by
  have hhalf : 2 ^ (f.mbits - 1) < 2 ^ f.mbits := Nat.pow_lt_pow_right (by omega) (by omega)
  have hone : 1 ≤ 2 ^ f.ebits := Nat.one_le_two_pow
  have hmul : 2 ^ f.mbits ≤ 2 ^ f.ebits * 2 ^ f.mbits := Nat.le_mul_of_pos_left _ hone
  rw [Fmt.infBits, Fmt.expMax, Fmt.signBit, Nat.pow_add, Nat.sub_mul, Nat.one_mul]
  omega

theorem Fmt.overflow_le (f : Fmt) (rm : RM) (neg : Bool) : f.overflow rm neg ≤ f.infBits + f.signBit := by
  have hmag : f.maxBits ≤ f.infBits := Nat.sub_le ..
  unfold Fmt.overflow
  cases rm <;> cases neg <;> simp <;> omega

theorem Fmt.round_lt (f : Fmt) (rm : RM) (neg : Bool) (m : Nat) (e : Int) : (f.round rm neg m e).1 ≤ f.infBits + f.signBit := by
  have hsgn : (if neg then f.signBit else 0) ≤ f.signBit := by split <;> omega
  unfold Fmt.round
  dsimp only
  split
  · dsimp only
    omega
  · split
    · exact f.overflow_le rm neg
    · dsimp only
      omega

theorem Fmt.write_lt (f : Fmt) (hm : 0 < f.mbits) (rm : RM) (x : FVal) : (f.write rm x).1 < 2 * f.signBit := by
  have hinf := f.infBits_lt hm
  have hpos := Nat.two_pow_pos (f.mbits - 1)
  cases x with
  | nan s =>
    change f.infBits + 2 ^ (f.mbits - 1) < _
    omega
  | inf n =>
    change f.infBits + (if n then f.signBit else 0) < _
    split <;> omega
  | fin n m e =>
    have h := f.round_lt rm n m e
    change (f.round rm n m e).1 < _
    omega

/-- The formats whose elements are floats of their own. -/
theorem plain_cases {cf : Nat} (hc : cf ∈ [7, 8, 9, 10, 11, 12]) (hx : hxOf cf = none) : cf = 7 ∨ cf = 8 ∨ cf = 9 := by
  simp only [List.mem_cons, List.not_mem_nil, or_false] at hc
  obtain rfl | rfl | rfl | rfl | rfl | rfl := hc <;> simp [hxOf] at hx <;> simp

theorem narrowed_lt {cf : Nat} (hc : cf ∈ [7, 8, 9, 10, 11, 12]) (hx : hxOf cf = none) (rm : RM) (x : FVal) :
    narrowed cf rm x < 256 ^ elemBytes cf := by
  obtain rfl | rfl | rfl := plain_cases hc hx
  · exact Fmt.f32.write_lt (by decide) rm _
  · exact Fmt.f16.write_lt (by decide) rm _
  · exact Fmt.bf16.write_lt (by decide) rm _

/-! ### Lines converted (R136, R171, R176) -/

theorem convertLines_data (cf : Nat) (rm : RM) (ls : List (List FVal)) :
    (convertLines cf rm ls).1 = (ls.map fun l => (convertLine cf rm l).1).flatten := by
  induction ls with
  | nil => rfl
  | cons l ls ih => rw [List.map_cons, List.flatten_cons, ← ih]; rfl

theorem convertLine_plain {cf : Nat} (hx : hxOf cf = none) (rm : RM) (n : Nat) (v : Nat → FVal) :
    (convertLine cf rm ((List.range n).map v)).1 = ((List.range n).map fun i => natBytes (elemBytes cf) (narrowed cf rm (v i))).flatten := by
  simp only [convertLine, hx, List.map_map, narrowed, widened, Fmt.finish, beq_iff_eq]
  rfl

theorem convertLine_blocks {cf : Nat} {h : Hx} (hx : hxOf cf = some h) (rm : RM) {n : Nat} (hn : n % 16 = 0) (v : Nat → FVal) :
    (convertLine cf rm ((List.range n).map v)).1 = ((List.range (n / 16)).map fun b =>
      natBytes h.bytes (h.encode rm ((List.range 16).map fun i => widened (v (16 * b + i)))).1).flatten := by
  simp only [convertLine, hx, List.map_map, List.length_map, List.length_range, cutList_eq]
  congr 1
  refine List.map_congr_left fun b hb => ?_
  have hb : b < n / 16 := List.mem_range.mp hb
  simp only [Function.comp_apply]
  rw [take_drop_getD (.nan false) (by simp; omega)]
  congr 3
  refine List.map_congr_left fun i hi => ?_
  have hi : i < 16 := List.mem_range.mp hi
  rw [getD_map_range _ _ (by omega)]
  rfl

theorem convertLines_plain {cf : Nat} (hx : hxOf cf = none) (rm : RM) (lines n : Nat) (v : Nat → Nat → FVal) :
    (convertLines cf rm (grid lines n v)).1 = ((grid lines n fun l i => natBytes (elemBytes cf) (narrowed cf rm (v l i))).map List.flatten).flatten := by
  rw [convertLines_data, flatten_rows, grid, List.map_map]
  exact congrArg List.flatten (List.map_congr_left fun l _ => convertLine_plain hx rm n (v l))

/-- Lines of values in a format, one after another. -/
theorem convertLines_grid {cf : Nat} (hc : cf ∈ [7, 8, 9, 10, 11, 12]) (rm : RM) {lines n : Nat} (hn : (hxOf cf).isSome = true → n % 16 = 0)
    (v : Nat → Nat → FVal) : ConvertedTo (convertLines cf rm (grid lines n v)).1 cf rm lines n v fun l i => l * n + i := by
  unfold ConvertedTo
  cases hx : hxOf cf with
  | some h =>
    rw [hx] at hn
    rw [convertLines_data, grid, List.map_map]
    have h16 := hn rfl
    intro l hl b hb
    have hline : ∀ l, ((fun l => (convertLine cf rm l).1) ∘ fun i => (List.range n).map (v i)) l =
        ((List.range (n / 16)).map fun b => natBytes h.bytes (h.encode rm ((List.range 16).map fun i => widened (v l (16 * b + i)))).1).flatten :=
      fun l => convertLine_blocks hx rm h16 (v l)
    have hblock : ∀ l b, (natBytes h.bytes (h.encode rm ((List.range 16).map fun i => widened (v l (16 * b + i)))).1).length = h.bytes :=
      fun l b => length_natBytes ..
    have hlen : ∀ l, (((fun l => (convertLine cf rm l).1) ∘ fun i => (List.range n).map (v i)) l).length = h.bytes * (n / 16) := by
      intro l
      rw [hline, length_flatten_blocks (hblock l)]
    have hle : h.bytes * (b + 1) ≤ h.bytes * (n / 16) := Nat.mul_le_mul_left _ hb
    have hat : (l * n / 16 + b) * h.bytes = h.bytes * (n / 16) * l + h.bytes * b := by
      rw [Nat.mul_div_assoc l (Nat.dvd_of_mod_eq_zero h16)]
      ring
    rw [Nat.mul_succ] at hle
    rw [hat, take_drop_blocks hlen hl hle, hline]
    exact take_drop_block (hblock l) hb
  | none =>
    intro l hl i hi
    rw [convertLines_plain hx, take_drop_grid_bytes _ (fun _ _ => length_natBytes ..) hl hi, leNat_natBytes,
      Nat.mod_eq_of_lt (narrowed_lt hc hx rm _)]

/-! ### Memory order and tile order (R168) -/

theorem arrange_straight {α : Type} {fmt rows cols : Nat} {trans : Bool} (h : trans = false ∨ (hxOf fmt).isSome = true) (xs : List α) :
    arrange fmt rows cols trans xs = xs := by
  refine if_neg ?_
  obtain rfl | h := h
  · simp
  · cases hx : hxOf fmt <;> simp_all

/-- TRANS turns the rows of memory into the columns of the tile, element by element. -/
theorem arrange_turned {fmt rows cols : Nat} (hx : hxOf fmt = none) {bs : List Byte} (hl : bs.length = elemBytes fmt * (rows * cols))
    {i l : Nat} (hi : i < cols) (hlr : l < rows) :
    ((arrange fmt rows cols true bs).drop (elemBytes fmt * (i * rows + l))).take (elemBytes fmt) =
      (bs.drop (elemBytes fmt * (l * cols + i))).take (elemBytes fmt) := by
  have hgrid : cutList cols rows (cutList (elemBytes fmt) (rows * cols) bs) =
      grid rows cols fun l i => ((List.range (elemBytes fmt)).map fun k => bs.getD (elemBytes fmt * (l * cols + i) + k) 0) := by
    rw [cutList_eq (elemBytes fmt), cutList_grid [] (by simp)]
    refine grid_congr fun l hl' i hi' => ?_
    have hlt := index_lt hl' hi'
    have hle : elemBytes fmt * (l * cols + i + 1) ≤ elemBytes fmt * (rows * cols) := Nat.mul_le_mul_left _ hlt
    rw [Nat.mul_succ] at hle
    rw [getD_map_range _ _ hlt, take_drop_getD 0 (by omega)]
  have ha : arrange fmt rows cols true bs =
      ((grid cols rows fun i l => (List.range (elemBytes fmt)).map fun k => bs.getD (elemBytes fmt * (l * cols + i) + k) 0).map
        List.flatten).flatten := by
    simp only [arrange, hx, Option.isNone_none, Bool.and_self, if_true, hgrid, transposeRows_grid, List.flatten_flatten]
  have hlt := index_lt hlr hi
  have hle : elemBytes fmt * (l * cols + i + 1) ≤ elemBytes fmt * (rows * cols) := Nat.mul_le_mul_left _ hlt
  rw [Nat.mul_succ] at hle
  rw [ha, take_drop_grid_bytes _ (by simp) hi hlr, take_drop_getD 0 (by omega)]

end Sys2Proof.Machine
end


section
/-! Zero-packed sources (O47). -/
-- One proof after the other: elaborated side by side, the whole text's proofs need more memory than the check has.
set_option Elab.async false
namespace Sys2Proof.Machine
open Sys2Proof.Claims Sys2Proof.Laws

/-! ### Headers of zero-packed chunks (R311) -/

theorem zSet_succ (h g : Nat) : zSet h (g + 1) = zSet h g + if h.testBit g then 1 else 0 := by
  rw [zSet, List.range_succ, List.filter_append, List.length_append, zSet]
  cases hb : h.testBit g <;> simp [hb]

theorem zSet_congr {h m n : Nat} (hb : ∀ i < n, h.testBit i = m.testBit i) : zSet h n = zSet m n := by
  rw [zSet, zSet, List.filter_congr fun i hi => hb i (List.mem_range.mp hi)]

theorem popCount_eq (n k : Nat) : popCount n k = zSet n k := by
  induction k generalizing n with
  | zero => rfl
  | succ k ih =>
    have hlow : n.testBit 0 = decide (n % 2 = 1) := by simp [Nat.testBit_zero]
    rw [popCount, ih, zSet, zSet, List.range_succ_eq_map, List.filter_cons, List.filter_map, hlow]
    simp only [Function.comp_def, Nat.succ_eq_add_one, Nat.testBit_succ]
    have h2 := Nat.mod_two_eq_zero_or_one n
    obtain h2 | h2 := h2 <;> simp [h2, Nat.add_comm]

/-- The MAP of a header. -/
def zMap (h : Nat) : Nat := bits h 31 0

theorem testBit_zMap_all (h g : Nat) : (zMap h).testBit g = (decide (g < 32) && h.testBit g) := by
  rw [zMap, bits_eq, Nat.pow_zero, Nat.div_one, Nat.testBit_mod_two_pow]

theorem testBit_zMap (h : Nat) {g : Nat} (hg : g < 32) : (zMap h).testBit g = h.testBit g := by
  rw [testBit_zMap_all, decide_eq_true hg, Bool.true_and]

theorem zSet_zMap (h : Nat) {n : Nat} (hn : n ≤ 32) : zSet (zMap h) n = zSet h n :=
  zSet_congr fun _ hi => testBit_zMap h (by omega)

/-- The MAP has no bit beyond its groups. -/
theorem zMap_lt_iff (h n : Nat) : zMap h < 2 ^ n ↔ ∀ g < 32, n ≤ g → h.testBit g = false := by
  constructor
  · intro hlt g hg hle
    rw [← testBit_zMap h hg, Nat.testBit_lt_two_pow (hlt.trans_le (Nat.pow_le_pow_right (by omega) hle))]
  · intro hz
    refine Nat.lt_pow_two_of_testBit _ fun g hle => ?_
    by_cases hg : g < 32
    · rw [testBit_zMap h hg, hz g hg hle]
    · rw [testBit_zMap_all, decide_eq_false hg, Bool.false_and]

theorem headerOk_iff (h : Nat) : zHeaderOk h = true ↔ HeaderOk h := by
  have hsz : bits h 62 60 = zSz h := rfl
  have hlen : bits h 59 48 = zLength h := rfl
  have hlow : bits h 47 32 = h / 2 ^ 32 % 65536 := rfl
  have hraw : bitAt h 63 = zRaw h := bitAt_eq_testBit h 63
  have hz : zLen (zRaw h) (zSz h) (zMap h) = if zRaw h then 256 else zSet h 32 * 8 * 2 ^ zSz h := by
    rw [zLen, popCount_eq, zSet_zMap h (by omega)]
  simp only [zHeaderOk, hsz, hlen, hlow, hraw, Bool.and_eq_true, decide_eq_true_eq, beq_iff_eq]
  change ((zSz h ≤ 2 ∧ _) ∧ zLength h = zLen (zRaw h) (zSz h) (zMap h)) ∧ zMap h < 2 ^ zGroups (zSz h) ↔ _
  rw [hz, zMap_lt_iff, HeaderOk, and_assoc, and_assoc]
  rfl

/-! ### Chunks and their dense bytes (R311) -/

/-- Group `g` of a chunk. -/
def zGroup (gb map : Nat) (payload : List Byte) (g : Nat) : List Byte :=
  if map.testBit g then (payload.drop (gb * zSet map g)).take gb else List.replicate gb 0

theorem zSpread_eq (gb map : Nat) (payload : List Byte) (k g : Nat) : zSpread gb map k g (payload.drop (gb * zSet map g)) =
    ((List.range k).map fun i => zGroup gb map payload (g + i)).flatten := by
  induction k generalizing g with
  | zero => rfl
  | succ k ih =>
    have htail : ((List.range k).map ((fun i => zGroup gb map payload (g + i)) ∘ Nat.succ)) =
        (List.range k).map fun i => zGroup gb map payload (g + 1 + i) := by
      simp only [Function.comp_def, Nat.succ_eq_add_one, Nat.add_comm, Nat.add_left_comm]
    have hnext := ih (g + 1)
    rw [zSet_succ] at hnext
    rw [List.range_succ_eq_map, List.map_cons, List.map_map, List.flatten_cons, htail, ← hnext, zSpread, bitAt_eq_testBit,
      zGroup]
    simp only [Nat.add_zero]
    split
    case isTrue h => rw [List.drop_drop, Nat.mul_add, Nat.mul_one]
    case isFalse h => rfl

theorem flatten_runs {α : Type} (n k : Nat) (xs : List α) : ((List.range k).map fun i => (xs.drop (n * i)).take n).flatten = xs.take (n * k) := by
  rw [← cutList_eq]
  induction k generalizing xs with
  | zero => simp [cutList]
  | succ k ih => rw [cutList, List.flatten_cons, ih, Nat.mul_succ, Nat.add_comm (n * k) n, List.take_add]

theorem group_sizes {sz : Nat} (h : sz ≤ 2) : 8 * 2 ^ sz * (32 / 2 ^ sz) = 256 := by
  obtain rfl | rfl | rfl : sz = 0 ∨ sz = 1 ∨ sz = 2 := by omega
  all_goals rfl

/-- The dense bytes that the format gives a chunk are those that it is expanded to. -/
theorem zExpandOne_eq {h : Nat} (hok : HeaderOk h) {payload dense : List Byte} (hc : ChunkOf h payload dense) :
    zExpandOne h payload = dense := by
  obtain ⟨hlen, hc⟩ := hc
  obtain ⟨hsz, -⟩ := hok
  rw [zExpandOne, bitAt_eq_testBit]
  split
  case isTrue hr => exact ((if_pos hr).mp hc).symm
  case isFalse hr =>
    replace hc := (if_neg hr).mp hc
    have hspread := zSpread_eq (8 * 2 ^ zSz h) (zMap h) payload (32 / 2 ^ zSz h) 0
    rw [show zSet (zMap h) 0 = 0 from rfl, Nat.mul_zero, List.drop_zero] at hspread
    change zSpread (8 * 2 ^ zSz h) (zMap h) (32 / 2 ^ zSz h) 0 payload = dense
    have hall : dense = ((List.range (32 / 2 ^ zSz h)).map fun g => (dense.drop (8 * 2 ^ zSz h * g)).take (8 * 2 ^ zSz h)).flatten := by
      rw [flatten_runs, group_sizes hsz, List.take_of_length_le hlen.le]
    refine hspread.trans (Eq.trans (congrArg List.flatten (List.map_congr_left fun g hg => ?_)) hall.symm)
    have hg : g < 32 / 2 ^ zSz h := List.mem_range.mp hg
    have hg32 : g < 32 := hg.trans_le (Nat.div_le_self ..)
    rw [hc g hg, Nat.zero_add, zGroup, testBit_zMap h hg32, zSet_zMap h (by omega)]

/-- Well-formed chunks are expanded to their dense bytes. -/
theorem zExpand_of_expands {n : Nat} {packed dense : List Byte} (h : Expands n packed dense) :
    (zExpand n packed).1 = dense ∧ (zExpand n packed).2.2 = false := by
  induction n generalizing packed dense with
  | zero => exact ⟨h.symm, rfl⟩
  | succ n ih =>
    obtain ⟨hok, c, rest, hc, hrest, rfl⟩ := h
    obtain ⟨hdense, hgood⟩ := ih hrest
    have hz := (headerOk_iff _).mpr hok
    simp only [zExpand, hz, Bool.not_true, Bool.false_eq_true, if_false, zExpandOne_eq hok hc]
    exact ⟨congrArg (c ++ ·) hdense, hgood⟩

/-- A header that is not well formed is met. -/
theorem zExpand_of_breaks {n : Nat} {packed : List Byte} (h : Breaks n packed) : (zExpand n packed).2.2 = true := by
  induction n generalizing packed with
  | zero => exact h.elim
  | succ n ih =>
    by_cases hz : zHeaderOk (leNat (packed.take 8)) = true
    · have hok := (headerOk_iff _).mp hz
      obtain hbad | ⟨-, hrest⟩ := h
      · exact absurd hok hbad
      · simp only [zExpand, hz, Bool.not_true, Bool.false_eq_true, if_false]
        exact ih hrest
    · simp [zExpand, hz]

theorem sourceBytes_of {d : Shape} {got bytes : List Byte} (h : SourceIs d got bytes) : sourceBytes d got = (bytes, false) := by
  unfold SourceIs at h
  unfold sourceBytes
  cases hz : d.zpack with
  | false =>
    rw [hz] at h
    exact congrArg (·, false) h.symm
  | true =>
    rw [hz] at h
    obtain ⟨dense, hd, rfl⟩ := h
    obtain ⟨hdense, hgood⟩ := zExpand_of_expands hd
    exact Prod.ext (congrArg (List.take _) hdense) hgood

theorem sourceBytes_broken {d : Shape} {got : List Byte} (hz : d.zpack = true) (h : Breaks ((d.rows * d.cols * elemBytes d.fmt + 255) / 256) got) :
    (sourceBytes d got).2 = true := by
  rw [sourceBytes, if_pos hz]
  exact zExpand_of_breaks h

end Sys2Proof.Machine
end


section
/-! The completion of operations of tf: conversions (O47). -/
-- One proof after the other: elaborated side by side, the whole text's proofs need more memory than the check has.
set_option Elab.async false
namespace Sys2Proof.Machine
open Sys2Proof.Claims Sys2Proof.Laws

/-! ### Claims given up (R167) -/

theorem claimsOf_unclaim (k : Core) (ts : List Nat) (x : Nat) : (k.unclaim ts).claimsOf x = k.claimsOf x - ts.count x := by
  have hfold : ∀ m : NMap Nat, mapGet 0 (ts.foldl (fun m t => mapSet 0 m t (mapGet 0 m t - 1)) m) x = mapGet 0 m x - ts.count x := by
    induction ts with
    | nil => exact fun m => rfl
    | cons t ts ih =>
      intro m
      rw [List.foldl_cons, ih, mapGet_set, List.count_cons]
      by_cases h : x = t
      · subst h
        simp
        omega
      · simp [h, Ne.symm h]
  exact hfold k.claims

/-- The core after the operation at the head of tf has left tile `x` in register `d`. -/
def Core.tfDone (k : Core) (op : TileOp) (d : Nat) (x : Tile) : Core :=
  (({ k.unclaim op.reads with tfOps := k.tfOps.tail } : Core).setTile d x).setTileReady d true

/-- What the completion of an operation of tf leaves of its core. -/
structure AfterTf (k k' : Core) (op : TileOp) (d : Nat) (x : Tile) : Prop where
  ops : k'.tfOps = k.tfOps.tail
  done : OperationDone k k' op d
  tile : k'.tile d = x

theorem tileReady_set (k : Core) (d : Nat) : (k.setTileReady d true).tileReady d = true := by
  simp [Core.tileReady, Core.setTileReady]

theorem AfterTf.of_rest {k k' : Core} {op : TileOp} {d : Nat} {x : Tile} (h : k'.rest = (k.tfDone op d x).rest) : AfterTf k k' op d x := by
  have hkeep : ∀ {β : Type} (p : Core → β), (∀ k, p k.rest = p k) → p k' = p (k.tfDone op d x) := by
    intro β p hp
    rw [← hp, h, hp]
  refine ⟨hkeep Core.tfOps fun _ => rfl, ⟨?_, fun y => ?_⟩, ?_⟩
  · rw [hkeep (·.tileReady d) fun _ => rfl]
    exact tileReady_set ..
  · rw [hkeep (·.claimsOf y) fun _ => rfl]
    exact claimsOf_unclaim ..
  · rw [hkeep (·.tile d) fun _ => rfl]
    exact Core.tile_setTile ..

/-- A change of a sequencer leaves the rest of every core. -/
theorem State.rest_modSeq (s : State) (c q d : Nat) (f : Seq → Seq) : ((s.modSeq c q f).core d).rest = (s.core d).rest :=
  State.modSeq_core (p := Core.rest) (fun _ _ => rfl) d s c q f

theorem State.core_putTile_dropTf (s : State) (c d : Nat) (op : TileOp) (x : Tile) :
    ((s.dropTf c op).putTile c d x).core c = (s.core c).tfDone op d x := by
  rw [State.putTile, State.core_modCore, State.dropTf, State.core_modCore]
  rfl

theorem execTf_eq {s : State} {c : Nat} {op : TileOp} {rest : List TileOp} (h : (s.core c).tfOps = op :: rest) :
    exec (.tileOpComplete c true) s = .next (s.completeTf c op) := by
  change execTileOpComplete c true s = _
  simp only [execTileOpComplete, if_true, h]

theorem execMx_eq {s : State} {c : Nat} {op : TileOp} {rest : List TileOp} (h : (s.core c).mxOps = op :: rest) :
    exec (.tileOpComplete c false) s = .next (s.completeMx c op) := by
  change execTileOpComplete c false s = _
  simp only [execTileOpComplete, Bool.false_eq_true, if_false, h]

/-! ### Conversions (R176) -/

theorem completeTf_convert {s : State} {c : Nat} {op : TileOp} {d x cf : Nat} {bcol : Bool} (hk : op.kind = .convert d x cf bcol) :
    AfterTf (s.core c) ((s.completeTf c op).core c) op d (convertedTile ((s.core c).tile x) cf op.rm bcol).1 := by
  have he : s.completeTf c op = ((s.dropTf c op).putTile c d (convertedTile ((s.core c).tile x) cf op.rm bcol).1).orFlagsOf c op.q
      (convertedTile ((s.core c).tile x) cf op.rm bcol).2 := by
    simp only [State.completeTf, hk]
  refine .of_rest ?_
  rw [he, State.orFlagsOf, State.rest_modSeq, State.core_putTile_dropTf]

/-- The elements of the converted tile keep theirs. -/
def Tile.keepsElements (x : Tile) (cf : Nat) (bcol : Bool) : Prop := cf = x.fmt ∧ ((hxOf cf).isSome = true → x.bdir = bcol)

theorem convertedTile_kept {x : Tile} {cf : Nat} {bcol : Bool} (h : x.keepsElements cf bcol) (rm : Nat) :
    (convertedTile x cf rm bcol).1 =
      { x with state := .resident, bdir := (hxOf cf).isSome && bcol, granules := granulesOf cf x.rows x.cols } := by
  obtain ⟨rfl, hb⟩ := h
  rw [convertedTile, if_pos]
  cases hx : (hxOf x.fmt).isSome <;> simp_all

theorem convertedTile_made {x : Tile} {cf : Nat} {bcol : Bool} (h : ¬ x.keepsElements cf bcol) (rm : Nat) : ∃ bad,
    (convertedTile x cf rm bcol).1 = { x with
      state := .resident, fmt := cf, bdir := (hxOf cf).isSome && bcol, granules := granulesOf cf x.rows x.cols, bad := bad,
      data := (convertLines cf (RM.ofCode rm) (if (hxOf cf).isSome && bcol then transposeRows x.cols
        (tileVals x.fmt x.rows x.cols x.bdir x.data) else tileVals x.fmt x.rows x.cols x.bdir x.data)).1 } := by
  have hc : ¬ (decide (cf = x.fmt) && (!(hxOf cf).isSome || x.bdir == bcol)) = true := by
    intro hc
    simp only [Bool.and_eq_true, Bool.or_eq_true, decide_eq_true_eq, Bool.not_eq_true', beq_iff_eq] at hc
    exact h ⟨hc.1, fun hx => hc.2.resolve_left (by simp [hx])⟩
  rw [convertedTile, if_neg hc]
  exact ⟨_, rfl⟩

theorem convertedTile_shape (x : Tile) (cf rm : Nat) (bcol : Bool) : let b := (convertedTile x cf rm bcol).1
    b.state = .resident ∧ b.fmt = cf ∧ b.rows = x.rows ∧ b.cols = x.cols ∧ b.bdir = ((hxOf cf).isSome && bcol) := by
  by_cases h : x.keepsElements cf bcol
  · rw [convertedTile_kept h]
    exact ⟨rfl, h.1.symm, rfl, rfl, rfl⟩
  · obtain ⟨bad, hb⟩ := convertedTile_made h rm
    rw [hb]
    exact ⟨rfl, rfl, rfl, rfl, rfl⟩

/-- The bytes of a converted tile (R176). -/
theorem convertedTile_data {x : Tile} {cf : Nat} {bcol down : Bool} (hw : Whole x x.fmt down) (hc : cf ∈ [7, 8, 9, 10, 11, 12])
    (h16 : (hxOf cf).isSome = true → (if bcol then x.rows else x.cols) % 16 = 0) (rm : Nat) :
    let data := (convertedTile x cf rm bcol).1.data
    if cf = x.fmt ∧ ((hxOf cf).isSome = true → bcol = down) then data = x.data
    else if (hxOf cf).isSome = true ∧ bcol = true
      then ConvertedTo data cf (RM.ofCode rm) x.cols x.rows (fun l i => elemVal (x, i, l)) (fun l i => i * x.cols + l)
      else ConvertedTo data cf (RM.ofCode rm) x.rows x.cols (fun l i => elemVal (x, l, i)) (fun l i => l * x.cols + i) := by
  obtain ⟨-, -, -, -, hdir⟩ := hw
  have hvals := tileVals_grid x fun hx => by
    obtain ⟨hb, hd⟩ := hdir hx
    rwa [hb]
  dsimp only
  split
  case isTrue hkeep =>
    obtain ⟨rfl, hb⟩ := hkeep
    rw [convertedTile_kept ⟨rfl, fun hx => (hdir hx).1.trans (hb hx).symm⟩]
  case isFalse hnew =>
    obtain ⟨bad, hmade⟩ := convertedTile_made (x := x) (cf := cf) (bcol := bcol)
      (fun h => hnew ⟨h.1, fun hx => (h.2 hx).symm.trans (hdir (h.1 ▸ hx)).1⟩) rm
    rw [hmade, hvals]
    split
    case isTrue hcol =>
      obtain ⟨hx, hb⟩ := hcol
      obtain ⟨f, hf⟩ := Option.isSome_iff_exists.mp hx
      rw [if_pos (by simp [hx, hb]), transposeRows_grid]
      have h := convertLines_grid hc (RM.ofCode rm) (lines := x.cols) (fun hx => by simpa [hb] using h16 hx) fun l i => elemVal (x, i, l)
      simp only [ConvertedTo, hf] at h ⊢
      exact h
    case isFalse hrow =>
      rw [if_neg (by simpa using hrow)]
      refine convertLines_grid hc (RM.ofCode rm) (fun hx => ?_) fun l i => elemVal (x, l, i)
      have hb : bcol = false := by simpa [hx] using hrow
      simpa [hb] using h16 hx

end Sys2Proof.Machine
end


section
/-! The completion of operations of tf: loads (O47). -/
-- One proof after the other: elaborated side by side, the whole text's proofs need more memory than the check has.
set_option Elab.async false
namespace Sys2Proof.Machine
open Sys2Proof.Claims Sys2Proof.Laws

/-! ### Loads (R171, R172) -/

/-- The entry of a load or a bind with its status, which has arrived. -/
def LoadEntry.withStatus (e : LoadEntry) (w : Word) (poisoned : Bool) : LoadEntry :=
  { e with arrived := true, value := .s w, mark := if poisoned then some .eccUncorrectable else none }

/-- The status of a load of tile `n` (R172). -/
def loadStatus (d : Shape) (n : Nat) (err : Bool) : Word :=
  tileStatus d.tileDims.1 d.tileDims.2 n (d.zpack && !err) (if err then 1 else 0)

theorem loadStatus_good (d : Shape) (n : Nat) : loadStatus d n false =
    BitVec.ofNat 64 (d.tileDims.1 + d.tileDims.2 * 2 ^ 8 + n * 2 ^ 16 + if d.zpack then 2 ^ 20 else 0) := by
  simp [loadStatus, tileStatus]

theorem loadStatus_broken (d : Shape) (n : Nat) : loadStatus d n true =
    BitVec.ofNat 64 (d.tileDims.1 + d.tileDims.2 * 2 ^ 8 + n * 2 ^ 16 + 2 ^ 21) := by
  simp [loadStatus, tileStatus]

/-- The loaded tile in its register, its bytes fresh ones where the load has no good source. -/
def State.placeLoaded (s : State) (c n : Nat) (x : Tile) (bad : Bool) : State :=
  if bad then (s.freshBytes (tileBytes x.fmt x.rows x.cols)).2.putTile c n { x with data := (s.freshBytes (tileBytes x.fmt x.rows x.cols)).1 }
  else s.putTile c n x

theorem State.core_placeLoaded (s : State) (c n : Nat) (op : TileOp) (x : Tile) (bad : Bool) : ∃ data,
    ((s.dropTf c op).placeLoaded c n x bad).core c = (s.core c).tfDone op n { x with data := data } ∧ (bad = false → data = x.data) := by
  cases bad with
  | false => exact ⟨x.data, State.core_putTile_dropTf s c n op x, fun _ => rfl⟩
  | true =>
    refine ⟨((s.dropTf c op).freshBytes (tileBytes x.fmt x.rows x.cols)).1, ?_, by simp⟩
    rw [State.placeLoaded, if_pos rfl, State.putTile, State.core_modCore]
    change (((s.dropTf c op).core c).setTile n _).setTileReady n true = _
    rw [State.dropTf, State.core_modCore]
    rfl

theorem completeTf_load_eq {s : State} {c : Nat} {op : TileOp} {n cf : Nat} {d : Shape} (hk : op.kind = .load n cf d) (hr : op.ready = true) :
    let src := sourceBytes d op.got
    let r := loadedTile d cf op.rm src.1
    s.completeTf c op = (((s.dropTf c op).placeLoaded c n r.1 (op.poisoned || (src.2 && !op.poisoned))).orFlagsOf c op.q r.2).finishEntry
      c op.q op.order fun e => e.withStatus (loadStatus d n (src.2 && !op.poisoned)) op.poisoned := by
  simp only [State.completeTf, hk, hr, Bool.not_true, Bool.false_eq_true, if_false]
  rfl

theorem State.finishEntry_loads {s : State} {c q n : Nat} {f : LoadEntry → LoadEntry} {e : LoadEntry}
    (he : e ∈ ((s.finishEntry c q n f).seq c q).loads) (ho : e.order = n) : ∃ e', e = f e' := by
  rw [State.finishEntry, State.seq_modSeq] at he
  obtain ⟨e', -, rfl⟩ := List.mem_map.mp he
  by_cases h : e'.order = n
  · exact ⟨e', if_pos h⟩
  · rw [if_neg h] at ho
    contradiction

/-- What the completion of a load leaves: the loaded tile, and its entry with the status. -/
theorem completeTf_load {s : State} {c : Nat} {op : TileOp} {n cf : Nat} {d : Shape} (hk : op.kind = .load n cf d) (hr : op.ready = true) :
    let src := sourceBytes d op.got
    let x := (loadedTile d cf op.rm src.1).1
    let t := s.completeTf c op
    ∃ data, AfterTf (s.core c) (t.core c) op n { x with data := data } ∧ (op.poisoned = false → src.2 = false → data = x.data) ∧
      ∀ e ∈ (t.seq c op.q).loads, e.order = op.order → ∃ e' : LoadEntry, e = e'.withStatus (loadStatus d n (src.2 && !op.poisoned)) op.poisoned := by
  obtain ⟨data, hcore, hdata⟩ := s.core_placeLoaded c n op (loadedTile d cf op.rm (sourceBytes d op.got).1).1
    (op.poisoned || ((sourceBytes d op.got).2 && !op.poisoned))
  dsimp only
  rw [completeTf_load_eq hk hr]
  refine ⟨data, .of_rest ?_, fun hp he => hdata (by simp [hp, he]), fun e he ho => ?_⟩
  · rw [State.finishEntry, State.rest_modSeq, State.orFlagsOf, State.rest_modSeq, hcore]
  · exact State.finishEntry_loads he ho

theorem loadedTile_shape (d : Shape) (cf rm : Nat) (bs : List Byte) : let b := (loadedTile d cf rm bs).1
    b.state = .resident ∧ b.fmt = (if cf = 0 then d.fmt else cf) ∧ b.rows = d.tileDims.1 ∧ b.cols = d.tileDims.2 := by
  by_cases h : (decide (cf = 0) || decide (cf = d.fmt)) = true
  · rw [loadedTile, if_pos h]
    refine ⟨rfl, ?_, rfl, rfl⟩
    simp only [Bool.or_eq_true, decide_eq_true_eq] at h
    split <;> simp_all
  · rw [loadedTile, if_neg h]
    refine ⟨rfl, ?_, rfl, rfl⟩
    simp only [Bool.or_eq_true, decide_eq_true_eq, not_or] at h
    exact (if_neg h.1).symm

theorem loadedTile_kept {d : Shape} {cf : Nat} (h : cf = 0 ∨ cf = d.fmt) (rm : Nat) (bs : List Byte) :
    (loadedTile d cf rm bs).1.data = arrange d.fmt d.rows d.cols d.trans bs := by
  rw [loadedTile, if_pos (by simpa using h)]

/-- The source of a load, as a tile that is not turned. -/
def sourceTile (d : Shape) (bs : List Byte) : Tile := { Tile.init with fmt := d.fmt, rows := d.rows, cols := d.cols, data := bs }

/-- The bytes of a converted load, in the order of its tile (R168, R171). -/
theorem loadedTile_converted {d : Shape} {cf : Nat} (h0 : cf ≠ d.fmt) (hc : cf ∈ [7, 8, 9, 10, 11, 12])
    (h16 : (hxOf cf).isSome = true ∨ (hxOf d.fmt).isSome = true → d.cols % 16 = 0) (rm : Nat) (bs : List Byte) :
    ConvertedTo (loadedTile d cf rm bs).1.data cf (RM.ofCode rm) d.rows d.cols (fun l i => elemVal (sourceTile d bs, l, i))
      (fun l i => if d.trans then i * d.rows + l else l * d.cols + i) := by
  have hne : cf ≠ 0 := by
    rintro rfl
    simp at hc
  have hvals : tileVals d.fmt d.rows d.cols false bs = grid d.rows d.cols fun l i => elemVal (sourceTile d bs, l, i) :=
    tileVals_grid (sourceTile d bs) fun hx => h16 (.inr hx)
  have hdata : (loadedTile d cf rm bs).1.data = arrange cf d.rows d.cols d.trans
      (convertLines cf (RM.ofCode rm) (grid d.rows d.cols fun l i => elemVal (sourceTile d bs, l, i))).1 := by
    rw [loadedTile, if_neg (by simp [hne, h0]), hvals]
  have hconv := convertLines_grid hc (RM.ofCode rm) (lines := d.rows) (n := d.cols) (fun hx => h16 (.inl hx)) fun l i => elemVal (sourceTile d bs, l, i)
  rw [hdata]
  cases hx : hxOf cf with
  | some f =>
    rw [arrange_straight (.inr (by simp [hx]))]
    simp only [ConvertedTo, hx] at hconv ⊢
    exact hconv
  | none =>
    cases ht : d.trans with
    | false =>
      rw [arrange_straight (.inl rfl)]
      simpa using hconv
    | true =>
      have hlen : (convertLines cf (RM.ofCode rm) (grid d.rows d.cols fun l i => elemVal (sourceTile d bs, l, i))).1.length =
          elemBytes cf * (d.rows * d.cols) := by
        rw [convertLines_plain hx, length_grid_bytes fun _ _ => length_natBytes ..]
      simp only [ConvertedTo, hx, if_true] at hconv ⊢
      intro l hl i hi
      rw [arrange_turned hx hlen hi hl]
      exact hconv l hl i hi

end Sys2Proof.Machine
end


section
/-! The completion of operations of tf: bindings and stores (O47). -/
-- One proof after the other: elaborated side by side, the whole text's proofs need more memory than the check has.
set_option Elab.async false
namespace Sys2Proof.Machine
open Sys2Proof.Claims Sys2Proof.Laws

/-! ### Bindings (R173, R174) -/

theorem loadReady_of {x : Seq} {e : LoadEntry} {p : LoadEntry → Bool} (h : NextLoad x e) (hp : p e = true) : x.loadReady p = some e := by
  have hgo : x.loadMayGo e = true := by
    simpa [Seq.loadMayGo] using h.2
  simp only [Seq.loadReady, nextLoad_eq h, hgo, hp, Bool.and_self, if_true]

theorem mem_unpinned {op : TileOp} {n : Nat} {d : Shape} {src lines : List Nat} (hk : op.kind = .bind n d src lines) (l : Nat) :
    l ∈ op.unpinned ↔ l ∈ lines ∧ ∀ b ∈ op.pinned, b.1 ≠ l := by
  simp [TileOp.unpinned, hk]

theorem bindReady {x : Seq} {e : LoadEntry} (h : NextLoad x e) (hb : e.kind = .bind) : x.loadReady isBind = some e :=
  loadReady_of h (by simp only [isBind, hb])

section
variable {s : State} {c q : Nat} {e : LoadEntry} {op : TileOp} {rest : List TileOp}
variable (hops : (s.core c).tfOps = op :: rest) (hnext : NextLoad (s.seq c q) e) (hbind : e.kind = .bind) (hq : op.q = q)
  (ho : op.order = e.order)
include hops hnext hbind hq ho

theorem bindable_eq : s.bindable c q = op.unpinned.filter (s.pinnable (dieOf c)) := by
  simp only [State.bindable, bindReady hnext hbind, hops, hq, ho, BEq.rfl, Bool.and_self, if_true]

omit hq ho in
theorem tbindPinned_waits {n : Nat} {d : Shape} {src lines : List Nat} (hk : op.kind = .bind n d src lines)
    (h : ∃ l ∈ lines, ∀ b ∈ op.pinned, b.1 ≠ l) : exec (.tbindPinned c q) s = .next s := by
  obtain ⟨l, hl, hnot⟩ := h
  have hleft : op.unpinned.isEmpty = false := by
    rw [List.isEmpty_eq_false_iff_exists_mem]
    exact ⟨l, (mem_unpinned hk l).mpr ⟨hl, hnot⟩⟩
  change execTbindPinned c q s = _
  simp only [execTbindPinned, bindReady hnext hbind, hops, hleft, Bool.and_false, Bool.false_eq_true, if_false]

theorem tbindPinned_done {n : Nat} {d : Shape} {src lines : List Nat} (hk : op.kind = .bind n d src lines)
    (h : ∀ l ∈ lines, ∃ b ∈ op.pinned, b.1 = l) :
    exec (.tbindPinned c q) s = .next ((s.finishBind c n d src lines op).editLoad c q e.order id) := by
  have hnone : op.unpinned.isEmpty = true := by
    rw [List.isEmpty_iff, List.eq_nil_iff_forall_not_mem]
    intro l hl
    obtain ⟨hin, hnot⟩ := (mem_unpinned hk l).mp hl
    obtain ⟨b, hb, he⟩ := h l hin
    exact hnot b hb he
  change execTbindPinned c q s = _
  simp only [execTbindPinned, bindReady hnext hbind, hops, hq, ho, hnone, BEq.rfl, Bool.and_self, if_true, hk]

end

/-- A tile as a binding leaves it. -/
def boundTile (d : Shape) (src lines : List Nat) (op : TileOp) : Tile :=
  { state := .bound, fmt := d.fmt, rows := d.tileDims.1, cols := d.tileDims.2, bdir := (hxOf d.fmt).isSome && d.trans,
    data := [], src := src, lines := lines, copies := op.pinned, granules := 0, bad := [] }

theorem finishBind_leaves (s : State) (c q n m : Nat) (d : Shape) (src lines : List Nat) (op : TileOp) :
    let t := (s.finishBind c n d src lines op).editLoad c q m id
    AfterTf (s.core c) (t.core c) op n (boundTile d src lines op) ∧ t.mem = s.mem := by
  refine ⟨.of_rest ?_, rfl⟩
  rw [State.editLoad, State.rest_modSeq, State.finishBind, State.finishEntry, State.rest_modSeq, State.core_putTile_dropTf]
  rfl

/-- A line of another die is pinned in one of the die's ways. -/
theorem State.pinLine_pins {s : State} {d line : Nat} (hh : homeDie (line * 256) ≠ d) (hp : s.pinnable d line = true) :
    ∃ m ∈ ((s.pinLine d line).die d).remote, m.line = line ∧ 1 ≤ m.pins := by
  have huse : (s.homeUse (line * 256)).die d = s.die d := by
    unfold State.homeUse
    split
    · rfl
    · exact State.die_modDie_ne s _ (Ne.symm hh)
  simp only [State.pinLine, huse]
  cases hf : (s.die d).remote.find? (fun l => l.line == line) with
  | some l =>
    have hline : l.line = line := by simpa using List.find?_some hf
    simp only [State.die_modDie, huse]
    refine ⟨_, List.mem_map_of_mem (List.mem_of_find?_eq_some hf), ?_⟩
    rw [if_pos (by simpa using hline)]
    exact ⟨hline, Nat.le_add_left ..⟩
  | none =>
    have hany : (s.die d).remote.any (·.line == line) = false := by
      simpa using hf
    have hv : ((s.die d).remoteVictim line).isSome = true := by
      simpa [State.pinnable, hh, hany] using hp
    obtain ⟨⟨old, w⟩, hv⟩ := Option.isSome_iff_exists.mp hv
    simp only [hv, State.die_modDie]
    exact ⟨_, List.mem_cons_self, rfl, Nat.le_refl 1⟩

/-- A line is pinned where it is of another die, and read (R173, R174). -/
def State.pinWhere (s : State) (c line : Nat) : State :=
  if homeDie (line * 256) = dieOf c then s.homeUse (line * 256) else s.pinLine (dieOf c) line

theorem State.pinLine_mem (s : State) (d line : Nat) : (s.pinLine d line).mem = s.mem := by
  have huse : (s.homeUse (line * 256)).mem = s.mem := State.homeUse_mem ..
  unfold State.pinLine
  dsimp only
  split
  · exact huse
  · split <;> exact huse

theorem State.pinWhere_keeps (s : State) (c line d : Nat) : (s.pinWhere c line).mem = s.mem ∧ (s.pinWhere c line).core d = s.core d := by
  unfold State.pinWhere
  split
  · exact ⟨State.homeUse_mem .., State.homeUse_core ..⟩
  · exact ⟨State.pinLine_mem .., State.pinLine_core ..⟩

theorem bindLine_reads {s : State} {c l : Nat} {op : TileOp} {rest : List TileOp} (hops : (s.core c).tfOps = op :: rest)
    (hp : s.pinnable (dieOf c) l = true) : let t := s.bindLine c l
    t.mem = s.mem ∧ ∃ b, (t.core c).tfOps = { op with pinned := op.pinned ++ [(l, b)] } :: rest ∧
      (homeDie (l * 256) ≠ dieOf c → ∃ m ∈ (t.die (dieOf c)).remote, m.line = l ∧ 1 ≤ m.pins) := by
  obtain ⟨hmem, hcore⟩ := s.pinWhere_keeps c l c
  refine ⟨hmem, (s.pinWhere c l).pinnedLine (dieOf c) l, ?_, fun hh => ?_⟩
  · change (((s.pinWhere c l).modCore c _).core c).tfOps = _
    rw [State.core_modCore, hcore, hops]
    rfl
  · have hpin : s.pinWhere c l = s.pinLine (dieOf c) l := if_neg hh
    change ∃ m ∈ (((s.pinWhere c l).modCore c _).die (dieOf c)).remote, _
    rw [State.die_modCore, hpin]
    exact State.pinLine_pins hh hp

/-! ### Stores and cleared tiles (R175, R187) -/

theorem completeTf_store {s : State} {c n : Nat} {op : TileOp} (hk : op.kind = .store n) :
    (s.completeTf c op).core c = { (s.core c).unclaim op.reads with tfOps := (s.core c).tfOps.tail } := by
  simp only [State.completeTf, hk, State.dropTf, State.core_modCore]

theorem Core.tile_setTileReady (k : Core) (d t : Nat) (b : Bool) : (k.setTileReady d b).tile t = k.tile t := rfl

theorem completeMx_zero {s : State} {c d rows cols fmt : Nat} {op : TileOp} (hk : op.kind = .zero d rows cols fmt) :
    (s.completeMx c op).core c = (({ s.core c with mxOps := (s.core c).mxOps.tail } : Core).setTile d { Tile.init with
      state := .resident, fmt := fmt, rows := rows, cols := cols, data := List.replicate (tileBytes fmt rows cols) 0,
      granules := granulesOf fmt rows cols }).setTileReady d true := by
  simp only [State.completeMx, hk, State.putTile, State.core_modCore]

end Sys2Proof.Machine
end


section
/-! Operands and sums in classical order (O47). -/
-- One proof after the other: elaborated side by side, the whole text's proofs need more memory than the check has.
set_option Elab.async false
namespace Sys2Proof.Machine
open Sys2Proof.Claims Sys2Proof.Laws

/-! ### Operands (R174, R179) -/

/-- A whole tile as an operand. -/
def Operand.of (x : Tile) : Operand := { fmt := x.fmt, rows := x.rows, cols := x.cols, bdir := x.bdir, data := x.data }

/-- What an operation reads as an operand is the tile, without poison. -/
theorem operand_of {k : Core} {op : TileOp} {t fmt : Nat} {x : Tile} {down : Bool} (hr : OperandRead k op t x) (hw : Whole x fmt down) :
    k.operand op t = (Operand.of x, false) := by
  obtain ⟨hstate, -, hbad, -, -⟩ := hw
  unfold OperandRead at hr
  cases hl : op.bound.lookup t with
  | none =>
    rw [hl] at hr
    obtain rfl := hr
    simp only [Core.operand, Core.operandTile, hl, Option.getD_none, Tile.contents, hstate, hbad]
    rfl
  | some b =>
    rw [hl] at hr
    obtain ⟨hb, line, hline, hclean, rfl⟩ := hr
    have hcopy : ∀ l, b.copy l = line l := fun l => (hline l).symm
    have hgood : (b.src.any fun pa => (line (pa / 256)).2.contains (pa % 256 / 32)) = false := by
      simpa using hclean
    simp only [Core.operand, Core.operandTile, hl, Option.getD_some, Tile.contents, hb, hcopy, hgood]
    rfl

theorem operandTile_fmt {k : Core} {op : TileOp} {t fmt : Nat} {x : Tile} {down : Bool} (hr : OperandRead k op t x) (hw : Whole x fmt down) :
    (k.operandTile op t).fmt = fmt := by
  have h := congrArg (fun o => o.1.fmt) (operand_of hr hw)
  exact h.trans hw.2.1

theorem Operand.vals_of {x : Tile} {fmt : Nat} {down : Bool} (hw : Whole x fmt down) :
    (Operand.of x).vals = grid x.rows x.cols fun r c => elemVal (x, r, c) := by
  obtain ⟨-, hfmt, -, -, hdir⟩ := hw
  refine tileVals_grid x fun hx => ?_
  rw [hfmt] at hx
  obtain ⟨hb, h16⟩ := hdir hx
  rwa [hb]

theorem Operand.ints_of {x : Tile} {down : Bool} (hw : Whole x 2 down) : (Operand.of x).ints = grid x.rows x.cols fun r c => i8At (x, r, c) := by
  obtain ⟨-, -, -, hlen, -⟩ := hw
  have hlen : x.data.length = x.rows * x.cols := hlen.trans (Nat.mul_one _)
  change cutList x.cols x.rows (x.data.map fun b => b.toInt) = _
  rw [cutList_grid 0 (by rw [List.length_map, hlen])]
  refine grid_congr fun i hi j hj => ?_
  have hlt : i * x.cols + j < x.data.length := hlen ▸ index_lt hi hj
  simp [i8At, hlt]

/-! ### Rows of A and columns of B (R179) -/

theorem besides_cons {α : Type} (x y : List (List α)) (l : List (List (List α))) :
    besides (x :: y :: l) = (x.zip (besides (y :: l))).map fun r => r.1 ++ r.2 := rfl

theorem besides_map {α : Type} (m : Nat) (row : Nat → Nat → List α) {l : List Nat} (hl : l ≠ []) :
    besides (l.map fun i => (List.range m).map (row i)) = (List.range m).map fun r => (l.map fun i => row i r).flatten := by
  induction l with
  | nil => contradiction
  | cons i l ih =>
    cases l with
    | nil => simp [besides]
    | cons j l =>
      have hrest := ih (by simp)
      simp only [List.map_cons] at hrest ⊢
      rw [besides_cons, hrest, List.zip_map', List.map_map]
      rfl

/-- The rows of tiles below one another: the tile and the row of each. -/
def rowPlaces (n : Nat) (y : Nat → Tile) : List (Nat × Nat) := ((List.range n).map fun i => (List.range (y i).rows).map fun k => (i, k)).flatten

theorem colOf_eq (n : Nat) (y : Nat → Tile) (j : Nat) : colOf n y j = (rowPlaces n y).map fun p => (y p.1, p.2, j) := by
  simp [colOf, rowPlaces, List.map_flatten, Function.comp_def]

section
variable {α : Type} (v : Place → α) {n m : Nat}

theorem map_rowOf (x : Nat → Tile) (r : Nat) :
    (rowOf n x r).map v = ((List.range n).map fun i => (List.range (x i).cols).map fun k => v (x i, r, k)).flatten := by
  simp [rowOf, List.map_flatten, Function.comp_def]

/-- Tiles of one height side by side. -/
theorem besides_rows (hn : 1 ≤ n) (x : Nat → Tile) : besides ((List.range n).map fun i => grid m (x i).cols fun r c => v (x i, r, c)) =
    (List.range m).map fun r => (rowOf n x r).map v := by
  have hne : List.range n ≠ [] := by
    intro h
    rw [List.range_eq_nil] at h
    omega
  rw [show (fun i => grid m (x i).cols fun r c => v (x i, r, c)) = fun i => (List.range m).map fun r => (List.range (x i).cols).map fun c => v (x i, r, c) from rfl,
    besides_map m (fun i r => (List.range (x i).cols).map fun c => v (x i, r, c)) hne]
  simp only [map_rowOf]

/-- Tiles of one width below one another. -/
theorem rows_below (w : Nat) (y : Nat → Tile) : ((List.range n).map fun i => grid (y i).rows w fun r c => v (y i, r, c)).flatten =
    (rowPlaces n y).map fun p => (List.range w).map fun j => v (y p.1, p.2, j) := by
  simp [grid, rowPlaces, List.map_flatten, Function.comp_def]

/-- Their columns. -/
theorem columns_below (w : Nat) (y : Nat → Tile) : transposeRows w ((List.range n).map fun i => grid (y i).rows w fun r c => v (y i, r, c)).flatten =
    (List.range w).map fun j => (colOf n y j).map v := by
  rw [rows_below, transposeRows_map]
  simp only [colOf_eq, List.map_map, Function.comp_def]

end

theorem length_rowOf (n : Nat) (x : Nat → Tile) (r : Nat) : (rowOf n x r).length = ((List.range n).map fun i => (x i).cols).sum := by
  simp [rowOf, List.length_flatten, Function.comp_def]

theorem length_colOf (n : Nat) (y : Nat → Tile) (j : Nat) : (colOf n y j).length = ((List.range n).map fun i => (y i).rows).sum := by
  simp [colOf, List.length_flatten, Function.comp_def]

/-! ### An element in classical order (R139, R180) -/

/-- The first chunk is taken into the accumulator before the others. -/
theorem afterChunks_succ (n : Nat) (rm : RM) (rnd : FVal → FVal) (acc : FVal) (ps : List (FVal × FVal)) (k : Nat) :
    afterChunks n rm rnd acc ps (k + 1) = afterChunks n rm rnd (afterChunks n rm rnd acc ps 1) (ps.drop n) k := by
  induction k with
  | zero => rfl
  | succ k ih =>
    rw [afterChunks, ih, afterChunks.eq_2 n rm rnd (afterChunks n rm rnd acc ps 1), List.drop_drop, Nat.mul_succ, Nat.add_comm n]

theorem chunked_eq {n : Nat} (hn : 1 ≤ n) (rm : RM) (rnd : Rounder) {fuel : Nat} {acc : FVal} {ps : List (FVal × FVal)} (hf : ps.length ≤ n * fuel) :
    (chunked n rm rnd fuel acc (ps.map (·.1)) (ps.map (·.2))).1 = afterChunks n rm (fun x => (rnd x).1) acc ps ((ps.length + n - 1) / n) := by
  induction fuel generalizing acc ps with
  | zero =>
    obtain rfl := List.length_eq_zero_iff.mp (Nat.le_zero.mp hf)
    rw [List.length_nil, Nat.zero_add, Nat.div_eq_of_lt (by omega)]
    rfl
  | succ fuel ih =>
    by_cases he : ps = []
    · subst he
      rw [List.length_nil, Nat.zero_add, Nat.div_eq_of_lt (by omega)]
      rfl
    · have hpos : 0 < ps.length := List.length_pos_iff.mpr he
      have hcount : (ps.length + n - 1) / n = ((ps.drop n).length + n - 1) / n + 1 := by
        rw [List.length_drop]
        by_cases hlt : ps.length < n
        · rw [Nat.sub_eq_zero_of_le hlt.le, Nat.zero_add, Nat.div_eq_of_lt (show n - 1 < n by omega),
            show ps.length + n - 1 = ps.length - 1 + n by omega, Nat.add_div_right _ (by omega), Nat.div_eq_of_lt (by omega)]
        · rw [← Nat.add_div_right _ (by omega : 0 < n)]
          congr 1
          omega
      have hempty : (ps.map (·.1)).isEmpty = false := by simp [he]
      have hproducts : (products ((ps.map (·.1)).take n) ((ps.map (·.2)).take n)).1 = (ps.take n).map fun p => (fMul p.1 p.2).1 := by
        simp only [products, ← List.map_take, List.zip_map', List.map_map, Function.comp_def]
      have hrest := ih (acc := (rnd (sumOf rm (acc :: (ps.take n).map fun p => (fMul p.1 p.2).1)).1).1) (ps := ps.drop n)
        (by rw [List.length_drop, Nat.mul_succ] at *; omega)
      rw [chunked, hempty, hcount, afterChunks_succ]
      simp only [Bool.false_eq_true, if_false, hproducts, ← List.map_drop]
      rw [hrest]
      rfl

theorem classicalElem_pairs {fmt n : Nat} (hfmt : fmt ≠ 2) (hn : 1 ≤ n) (rm : RM) (c0 : Lane) (ps : List (Place × Place)) :
    (classicalElem n rm c0 (ps.map fun p => elemVal p.1) (ps.map fun p => elemVal p.2)).1 = classicalSum fmt n rm c0 ps := by
  rw [classicalSum, if_neg hfmt]
  by_cases he : ps = []
  · rw [if_pos he, he]
    rfl
  · have hempty : (ps.map fun p => elemVal p.1).isEmpty = false := by simp [he]
    have hlen : (ps.map fun p => (elemVal p.1, elemVal p.2)).length = ps.length := List.length_map ..
    have h := chunked_eq hn rm (roundF32 rm) (fuel := ps.length / n + 1) (acc := f32Of c0) (ps := ps.map fun p => (elemVal p.1, elemVal p.2))
      (by rw [hlen, Nat.mul_succ]; have := Nat.div_add_mod ps.length n; have := Nat.mod_lt ps.length (show 0 < n by omega); omega)
    rw [if_neg he]
    simp only [List.map_map, Function.comp_def, hlen] at h
    simp only [classicalElem, hempty, Bool.false_eq_true, if_false, List.length_map, h]

theorem intElem_pairs (n : Nat) (rm : RM) (c0 : Lane) (ps : List (Place × Place)) :
    intElem c0 (ps.map fun p => i8At p.1) (ps.map fun p => i8At p.2) = classicalSum 2 n rm c0 ps := by
  have hsum : ∀ (l : List (Place × Place)) (a : Int), (l.foldl (fun n p => n + i8At p.1 * i8At p.2) a) = a + (l.map fun p => i8At p.1 * i8At p.2).sum := by
    intro l
    induction l with
    | nil => simp
    | cons p l ih => intro a; rw [List.foldl_cons, ih, List.map_cons, List.sum_cons, Int.add_assoc]
  rw [classicalSum, if_pos rfl, intElem, List.zip_map', List.foldl_map, hsum, Int.zero_add, BitVec.ofInt_add, BitVec.ofInt_toInt]

/-- The pairs of a row and a column of one length. -/
theorem map_zip_fst {α β γ : Type} (f : α → γ) {a : List α} {b : List β} (h : a.length = b.length) : (a.zip b).map (fun p => f p.1) = a.map f := by
  rw [← List.map_fst_zip h.le, List.map_map, List.map_fst_zip h.le]
  rfl

theorem map_zip_snd {α β γ : Type} (f : β → γ) {a : List α} {b : List β} (h : a.length = b.length) : (a.zip b).map (fun p => f p.2) = b.map f := by
  rw [← List.map_snd_zip h.ge, List.map_map, List.map_snd_zip h.ge]
  rfl

end Sys2Proof.Machine
end


section
/-! Products in classical order, and the metadata of sparse ones (O47). -/
-- One proof after the other: elaborated side by side, the whole text's proofs need more memory than the check has.
set_option Elab.async false
namespace Sys2Proof.Machine
open Sys2Proof.Claims Sys2Proof.Laws

/-! ### The words of a product's result (R180) -/

/-- D holds the words of a grid. -/
theorem resultIs_grid {fmt m n : Nat} {i8 : Bool} (h8 : i8 = (fmt == 2)) (w : Nat → Nat → Lane) :
    ResultIs (resultTile (if i8 then 6 else 7) m n (grid m n w)) fmt m n w := by
  subst h8
  refine ⟨rfl, ?_, rfl, rfl, rfl, fun r hr j hj => ?_⟩
  · change (if (fmt == 2) = true then 6 else 7) = _
    simp only [beq_iff_eq]
  · have hdata : (resultTile (if (fmt == 2) = true then 6 else 7) m n (grid m n w)).data =
        ((grid m n fun r j => natBytes 4 (w r j).toNat).map List.flatten).flatten := by
      rw [← map_grid m n w fun x => natBytes 4 x.toNat, List.map_map]
      rfl
    rw [hdata, take_drop_grid_bytes _ (fun _ _ => length_natBytes ..) hr hj, leNat_natBytes]
    exact Nat.mod_eq_of_lt (w r j).isLt

theorem tileLanes_words {x : Tile} {fmt : Nat} (hw : Whole x (if fmt = 2 then 6 else 7) false) :
    tileLanes x.fmt x.rows x.cols x.bdir x.data =
      grid x.rows x.cols fun r j => BitVec.ofNat 32 (leNat ((x.data.drop (4 * (r * x.cols + j))).take 4)) := by
  obtain ⟨-, hfmt, -⟩ := hw
  rw [hfmt]
  by_cases h : fmt = 2
  · rw [if_pos h]
    change (rawRows 6 x.rows x.cols x.data).map (fun r => r.map (widenElem 6)) = _
    rw [rawRows_grid, map_grid]
    rfl
  · rw [if_neg h]
    change (rawRows 7 x.rows x.cols x.data).map (fun r => r.map (widenElem 7)) = _
    rw [rawRows_grid, map_grid]
    rfl

/-- The accumulator values of a product, D or +0. -/
theorem accumulator_grid {x : Tile} {acc : Bool} {fmt m n : Nat} (h : MayAccumulate x acc fmt m n) :
    accumulator x acc m n = grid m n (startAt x acc) := by
  cases acc with
  | false =>
    rw [show startAt x false = fun _ _ => 0 from rfl]
    simp [accumulator, grid]
  | true =>
    obtain ⟨hw, rfl, rfl⟩ := h rfl
    exact tileLanes_words hw

theorem mayAccumulate_good {x : Tile} {acc : Bool} {fmt m n : Nat} (h : MayAccumulate x acc fmt m n) : (acc && !x.bad.isEmpty) = false := by
  cases acc with
  | false => rfl
  | true => simp [(h rfl).1.2.2.1]

/-! ### The operands of a product together (R179, R185) -/

section
variable {α : Type} {f : Operand → List (List α)} {v : Place → α} {n : Nat} {x : Nat → Tile}
variable (hf : ∀ i < n, f (Operand.of (x i)) = grid (x i).rows (x i).cols fun r c => v (x i, r, c))
include hf

theorem rows_beside {m : Nat} (hn : 1 ≤ n) (hrows : ∀ i < n, (x i).rows = m) :
    besides (((List.range n).map fun i => Operand.of (x i)).map f) = (List.range m).map fun r => (rowOf n x r).map v := by
  rw [← besides_rows v hn x, List.map_map]
  congr 1
  refine List.map_congr_left fun i hi => ?_
  have hi : i < n := List.mem_range.mp hi
  rw [Function.comp_apply, hf i hi, hrows i hi]

theorem columns_stacked {w : Nat} (hcols : ∀ i < n, (x i).cols = w) :
    transposeRows w (((List.range n).map fun i => Operand.of (x i)).map f).flatten = (List.range w).map fun j => (colOf n x j).map v := by
  rw [← columns_below v w x, List.map_map]
  congr 2
  refine List.map_congr_left fun i hi => ?_
  have hi : i < n := List.mem_range.mp hi
  rw [Function.comp_apply, hf i hi, hcols i hi]

end

theorem headD_map_range {β : Type} (f : Nat → β) {n : Nat} (hn : 1 ≤ n) (d : β) : ((List.range n).map f).headD d = f 0 := by
  obtain ⟨k, rfl⟩ := Nat.exists_eq_add_of_le' hn
  rw [List.range_succ_eq_map]
  rfl

/-- Each element from its row, its column and its accumulator value. -/
theorem eachElem_grid {α : Type} (m w : Nat) (a b : Nat → List α) (c0 : Nat → Nat → Lane) (f : Lane → List α → List α → Flagged Lane) :
    (eachElem ((List.range m).map a) ((List.range w).map b) (grid m w c0) f).1 = grid m w fun r j => (f (c0 r j) (a r) (b j)).1 := by
  simp [eachElem, gather, grid, List.zip_map', Function.comp_def]

/-- The shapes that the pairs of a product must have (R179). -/
structure PairsFit (n fmt m w : Nat) (x y : Nat → Tile) : Prop where
  some : 1 ≤ n
  a : ∀ i < n, Whole (x i) fmt false ∧ (x i).rows = m
  b : ∀ i < n, Whole (y i) fmt true ∧ (y i).cols = w

/-! ### `mma` in classical order (R180) -/

section
variable {n fmt m w : Nat} {x y : Nat → Tile} (hp : PairsFit n fmt m w x y)
include hp

theorem vals_rows : besides (((List.range n).map fun i => Operand.of (x i)).map Operand.vals) =
    (List.range m).map fun r => (rowOf n x r).map elemVal :=
  rows_beside (fun i hi => Operand.vals_of (hp.a i hi).1) hp.some fun i hi => (hp.a i hi).2

theorem vals_columns : transposeRows w (((List.range n).map fun i => Operand.of (y i)).map Operand.vals).flatten =
    (List.range w).map fun j => (colOf n y j).map elemVal :=
  columns_stacked (fun i hi => Operand.vals_of (hp.b i hi).1) fun i hi => (hp.b i hi).2

theorem ints_rows (h2 : fmt = 2) : besides (((List.range n).map fun i => Operand.of (x i)).map Operand.ints) =
    (List.range m).map fun r => (rowOf n x r).map i8At :=
  rows_beside (fun i hi => Operand.ints_of (h2 ▸ (hp.a i hi).1)) hp.some fun i hi => (hp.a i hi).2

theorem ints_columns (h2 : fmt = 2) : transposeRows w (((List.range n).map fun i => Operand.of (y i)).map Operand.ints).flatten =
    (List.range w).map fun j => (colOf n y j).map i8At :=
  columns_stacked (fun i hi => Operand.ints_of (h2 ▸ (hp.b i hi).1)) fun i hi => (hp.b i hi).2

theorem operands_fmt (d : Nat) : ((((List.range n).map fun i => Operand.of (x i)).map (·.fmt)).headD d) = fmt := by
  rw [List.map_map, headD_map_range _ hp.some]
  exact (hp.a 0 hp.some).1.2.1

theorem operands_rows (d : Operand) : (((List.range n).map fun i => Operand.of (x i)).headD d).rows = m := by
  rw [headD_map_range _ hp.some]
  exact (hp.a 0 hp.some).2

theorem operands_cols (d : Operand) : (((List.range n).map fun i => Operand.of (y i)).headD d).cols = w := by
  rw [headD_map_range _ hp.some]
  exact (hp.b 0 hp.some).2

end

theorem foldl_add_sum (l : List Nat) (a : Nat) : l.foldl (· + ·) a = a + l.sum := by
  induction l generalizing a with
  | nil => rfl
  | cons b l ih => rw [List.foldl_cons, ih, List.sum_cons, Nat.add_assoc]

/-- The products of one element's sum. -/
def innerSize (n : Nat) (x : Nat → Tile) : Nat := ((List.range n).map fun i => (x i).cols).sum

theorem operands_inner (n : Nat) (x : Nat → Tile) : (((List.range n).map fun i => Operand.of (x i)).map (·.cols)).foldl (· + ·) 0 = innerSize n x := by
  rw [foldl_add_sum, Nat.zero_add, List.map_map]
  rfl

theorem length_row_col {n : Nat} {x y : Nat → Tile} (h : ∀ i < n, (x i).cols = (y i).rows) (r j : Nat) :
    (rowOf n x r).length = (colOf n y j).length := by
  rw [length_rowOf, length_colOf, List.map_congr_left fun i hi => h i (List.mem_range.mp hi)]

/-- An element of a row and a column of one length, in classical order. -/
theorem classicalElem_zip {fmt n : Nat} (hfmt : fmt ≠ 2) (hn : 1 ≤ n) (rm : RM) (c0 : Lane) {a b : List Place} (h : a.length = b.length) :
    (classicalElem n rm c0 (a.map elemVal) (b.map elemVal)).1 = classicalSum fmt n rm c0 (a.zip b) := by
  rw [← classicalElem_pairs hfmt hn, map_zip_fst elemVal h, map_zip_snd elemVal h]

theorem intElem_zip (n : Nat) (rm : RM) (c0 : Lane) {a b : List Place} (h : a.length = b.length) :
    intElem c0 (a.map i8At) (b.map i8At) = classicalSum 2 n rm c0 (a.zip b) := by
  rw [← intElem_pairs, map_zip_fst i8At h, map_zip_snd i8At h]

theorem mmaResult_classical {n fmt m w : Nat} {x y : Nat → Tile} (hp : PairsFit n fmt m w x y) (hin : ∀ i < n, (x i).cols = (y i).rows)
    {cl : Bool} (hc : fmt = 2 ∨ recombinedTaken m w (innerSize n x) cl = false) (rm : RM) (c0 : Nat → Nat → Lane) :
    (mmaResult rm cl ((List.range n).map fun i => Operand.of (x i)) ((List.range n).map fun i => Operand.of (y i)) (grid m w c0)).1 =
      grid m w fun r j => classicalSum fmt 16 rm (c0 r j) ((rowOf n x r).zip (colOf n y j)) := by
  simp only [mmaResult, operands_rows hp, operands_cols hp, operands_fmt hp, operands_inner, beq_iff_eq]
  by_cases h2 : fmt = 2
  · rw [if_pos h2, ints_rows hp h2, ints_columns hp h2, eachElem_grid]
    exact grid_congr fun r _ j _ => by rw [intElem_zip 16 rm _ (length_row_col hin r j), h2]
  · rw [if_neg h2, hc.resolve_left h2, if_neg (by simp), vals_rows hp, vals_columns hp, eachElem_grid]
    exact grid_congr fun r _ j _ => classicalElem_zip h2 (by omega) rm _ (length_row_col hin r j)

/-! ### `mmas` (R185) -/

/-- A byte of the metadata: groups 2g and 2g + 1 of row `r`. -/
def metaByte (mt : Tile) (r g : Nat) : Nat := (mt.data.getD (r * mt.cols + g) 0).toNat

theorem metas_grid {mt : Tile} (hw : Whole mt 1 false) : cutList (Operand.of mt).cols (Operand.of mt).rows ((Operand.of mt).data.map (·.toNat)) =
    grid mt.rows mt.cols (metaByte mt) := by
  obtain ⟨-, -, -, hlen, -⟩ := hw
  have hlen : mt.data.length = mt.rows * mt.cols := hlen.trans (Nat.mul_one _)
  change cutList mt.cols mt.rows (mt.data.map (·.toNat)) = _
  rw [cutList_grid 0 (by rw [List.length_map, hlen])]
  refine grid_congr fun i hi j hj => ?_
  have hlt : i * mt.cols + j < mt.data.length := hlen ▸ index_lt hi hj
  simp [metaByte, hlt]

/-- The values that the metadata names, group by group. -/
theorem named_eq {α : Type} (v : Place → α) (ms : List Nat) (col : List Place) (k g : Nat) (h : 4 * (g + k) ≤ col.length) :
    named ms (col.map v) k g = (((List.range k).map fun i =>
      let nib := ms.getD ((g + i) / 2) 0 / 2 ^ (4 * ((g + i) % 2)) % 16
      [v (col.getD (4 * (g + i) + nib % 4) (Tile.init, 0, 0)), v (col.getD (4 * (g + i) + nib / 4) (Tile.init, 0, 0))])).flatten := by
  induction k generalizing g with
  | zero => rfl
  | succ k ih =>
    have hpick : ∀ i < 4, (col.map v)[4 * g + i]? = some (v (col.getD (4 * g + i) (Tile.init, 0, 0))) := by
      intro i hi
      have hlt : 4 * g + i < col.length := by omega
      simp [hlt]
    rw [named, List.range_succ_eq_map, List.map_cons, List.map_map, List.flatten_cons, ih (g + 1) (by omega)]
    dsimp only
    rw [hpick _ (Nat.mod_lt _ (by omega)), hpick _ (by omega)]
    simp only [List.reduceOption, List.filterMap, id, Nat.add_zero, Function.comp_def, Nat.succ_eq_add_one, Nat.add_assoc, Nat.add_comm 1]

theorem sparsePairs_row {mt : Tile} {r : Nat} {row : List Place} (h : row.length % 2 = 0) (col : List Place) :
    (sparsePairs mt r row col).map (·.1) = row := by
  have hruns := flatten_runs 2 (row.length / 2) row
  rw [List.take_of_length_le (by omega)] at hruns
  refine Eq.trans ?_ hruns
  rw [sparsePairs, List.map_flatten, List.map_map]
  congr 1
  refine List.map_congr_left fun g hg => ?_
  have hg : g < row.length / 2 := List.mem_range.mp hg
  rw [take_drop_getD (Tile.init, 0, 0) (by omega)]
  rfl

theorem sparsePairs_col {α : Type} (v : Place → α) {mt : Tile} {r : Nat} (row : List Place) {col : List Place} (h : row.length * 2 ≤ col.length)
    {ms : List Nat} (hm : ∀ g < row.length / 2, ms.getD (g / 2) 0 = metaByte mt r (g / 2)) :
    (sparsePairs mt r row col).map (fun p => v p.2) = named ms (col.map v) (row.length / 2) 0 := by
  rw [named_eq v ms col _ 0 (by omega), sparsePairs, List.map_flatten, List.map_map]
  congr 1
  refine List.map_congr_left fun g hg => ?_
  have hg : g < row.length / 2 := List.mem_range.mp hg
  simp only [Nat.zero_add, hm g hg]
  rfl

end Sys2Proof.Machine
end


section
/-! Sparse and grouped products, and what a product leaves (O47). -/
-- One proof after the other: elaborated side by side, the whole text's proofs need more memory than the check has.
set_option Elab.async false
namespace Sys2Proof.Machine
open Sys2Proof.Claims Sys2Proof.Laws

/-! ### The words of `mmas` (R185) -/

theorem mmasResult_grid {n fmt m w : Nat} {x y : Nat → Tile} (hp : PairsFit n fmt m w x y) {mt : Tile} (hmt : Whole mt 1 false)
    (hrows : mt.rows = m) (hcols : 4 * mt.cols = innerSize n x) (hin : ∀ j, (colOf n y j).length = innerSize n x * 2) (rm : RM) (c0 : Nat → Nat → Lane) :
    (mmasResult rm ((List.range n).map fun i => Operand.of (x i)) ((List.range n).map fun i => Operand.of (y i)) (Operand.of mt) (grid m w c0)).1 =
      grid m w fun r j => classicalSum fmt 8 rm (c0 r j) (sparsePairs mt r (rowOf n x r) (colOf n y j)) := by
  have hrow : ∀ r, (rowOf n x r).length = innerSize n x := fun r => length_rowOf n x r
  have heven : ∀ r, (rowOf n x r).length % 2 = 0 := fun r => by rw [hrow]; omega
  have hfst : ∀ {α : Type} (v : Place → α) (r j : Nat), (rowOf n x r).map v = (sparsePairs mt r (rowOf n x r) (colOf n y j)).map fun p => v p.1 := by
    intro α v r j
    rw [← sparsePairs_row (mt := mt) (r := r) (heven r) (colOf n y j), List.map_map, sparsePairs_row (heven r)]
    rfl
  have hsnd : ∀ {α : Type} (v : Place → α) (r j : Nat), named ((List.range mt.cols).map (metaByte mt r)) ((colOf n y j).map v) ((rowOf n x r).length / 2) 0 =
      (sparsePairs mt r (rowOf n x r) (colOf n y j)).map fun p => v p.2 := by
    intro α v r j
    refine (sparsePairs_col v _ (by rw [hrow, hin]) fun g hg => ?_).symm
    rw [hrow] at hg
    exact getD_map_range 0 _ (by omega)
  simp only [mmasResult, operands_cols hp, operands_fmt hp, metas_grid hmt, hrows, beq_iff_eq]
  by_cases h2 : fmt = 2
  · rw [if_pos h2, ints_rows hp h2, ints_columns hp h2]
    simp only [gather, grid, List.zip_map', List.map_map, Function.comp_def, List.length_map, hsnd]
    refine grid_congr fun r _ j _ => ?_
    rw [hfst i8At r j, intElem_pairs 8 rm, h2]
  · rw [if_neg h2, vals_rows hp, vals_columns hp]
    simp only [gather, grid, List.zip_map', List.map_map, Function.comp_def, List.length_map, hsnd]
    refine grid_congr fun r _ j _ => ?_
    rw [hfst elemVal r j, classicalElem_pairs h2 (by omega)]

/-! ### The words of `mmag` (R186) -/

theorem groupOf_eq (off : List Nat) (n r : Nat) :
    groupOf off n r = (List.range n).find? fun i => decide (off.getD i 0 ≤ r ∧ r < off.getD (i + 1) 0) := by
  simp only [groupOf, Bool.decide_and]

theorem getD_grid {α : Type} (m n : Nat) (f : Nat → Nat → α) {r : Nat} (hr : r < m) : (grid m n f).getD r [] = (List.range n).map (f r) :=
  getD_map_range _ _ hr

theorem row_of_one {α : Type} (v : Place → α) (x : Tile) (r : Nat) :
    (rowOf 1 (fun _ => x) r).map v = (List.range x.cols).map fun c => v (x, r, c) := by
  rw [map_rowOf]
  simp

theorem columns_of_one {α : Type} (v : Place → α) (y : Tile) :
    transposeRows y.cols (grid y.rows y.cols fun r c => v (y, r, c)) = (List.range y.cols).map fun j => (colOf 1 (fun _ => y) j).map v := by
  rw [← columns_below v y.cols fun _ => y]
  simp

/-- The element of a row in the group that the row belongs to, or its accumulator value (R186). -/
def groupedSum (fmt : Nat) (rm : RM) (off : List Nat) (n : Nat) (x : Tile) (y : Nat → Tile) (c0 : Lane) (r j : Nat) : Lane :=
  match (List.range n).find? fun i => decide (off.getD i 0 ≤ r ∧ r < off.getD (i + 1) 0) with
  | some i => classicalSum fmt 16 rm c0 ((rowOf 1 (fun _ => x) r).zip (colOf 1 (fun _ => y i) j))
  | none => c0

section
variable {fmt : Nat} {x y : Tile} (hx : Whole x fmt false) (hy : Whole y fmt true) (hin : y.rows = x.cols)
include hx hy hin

omit hx hy in
theorem length_one (r j : Nat) : (rowOf 1 (fun _ => x) r).length = (colOf 1 (fun _ => y) j).length :=
  length_row_col (fun _ _ => hin.symm) r j

/-- A row of a grouped product of floats. -/
theorem groupRow_vals (h2 : fmt ≠ 2) (rm : RM) {r : Nat} (hr : r < x.rows) (c0 : Nat → Lane) :
    ((transposeRows y.cols (Operand.of y).vals).zip ((List.range y.cols).map c0)).map (fun p => (classicalElem 16 rm p.2 ((Operand.of x).vals.getD r []) p.1).1) =
      (List.range y.cols).map fun j => classicalSum fmt 16 rm (c0 j) ((rowOf 1 (fun _ => x) r).zip (colOf 1 (fun _ => y) j)) := by
  rw [Operand.vals_of hy, columns_of_one, List.zip_map', List.map_map, Operand.vals_of hx, getD_grid _ _ _ hr]
  refine List.map_congr_left fun j _ => ?_
  rw [← classicalElem_zip h2 (by omega) rm (c0 j) (length_one hin r j), row_of_one]
  rfl

/-- A row of a grouped product of i8. -/
theorem groupRow_ints (h2 : fmt = 2) (rm : RM) {r : Nat} (hr : r < x.rows) (c0 : Nat → Lane) :
    ((transposeRows y.cols (Operand.of y).ints).zip ((List.range y.cols).map c0)).map (fun p => intElem p.2 ((Operand.of x).ints.getD r []) p.1) =
      (List.range y.cols).map fun j => classicalSum fmt 16 rm (c0 j) ((rowOf 1 (fun _ => x) r).zip (colOf 1 (fun _ => y) j)) := by
  subst h2
  rw [Operand.ints_of hy, columns_of_one, List.zip_map', List.map_map, Operand.ints_of hx, getD_grid _ _ _ hr]
  refine List.map_congr_left fun j _ => ?_
  rw [← intElem_zip 16 rm (c0 j) (length_one hin r j), row_of_one]
  rfl

end

theorem mmagResult_grid {n fmt w : Nat} {x : Tile} {y : Nat → Tile} (hx : Whole x fmt false)
    (hy : ∀ i < n, Whole (y i) fmt true ∧ (y i).cols = w ∧ (y i).rows = x.cols) (rm : RM) (off : List Nat) (c0 : Nat → Nat → Lane) :
    (mmagResult rm (Operand.of x) ((List.range n).map fun i => Operand.of (y i)) off (grid x.rows w c0)).1 =
      grid x.rows w fun r j => groupedSum fmt rm off n x y (c0 r j) r j := by
  simp only [mmagResult, gather, List.map_map, List.length_map, List.length_range, groupOf_eq]
  refine List.map_congr_left fun r hr => ?_
  have hr : r < x.rows := List.mem_range.mp hr
  have hfmt : (Operand.of x).fmt = fmt := hx.2.1
  simp only [Function.comp_apply, getD_grid _ _ _ hr, groupedSum, hfmt, beq_iff_eq]
  cases hg : (List.range n).find? fun i => decide (off.getD i 0 ≤ r ∧ r < off.getD (i + 1) 0) with
  | none => simp [Function.comp_def]
  | some g =>
    have hlt : g < n := List.mem_range.mp (List.mem_of_find?_eq_some hg)
    obtain ⟨hwhole, rfl, hin⟩ := hy g hlt
    simp only [getD_map_range _ _ hlt]
    by_cases h2 : fmt = 2
    · rw [if_pos h2, List.map_map]
      exact groupRow_ints hx hwhole hin h2 rm hr _
    · rw [if_neg h2, List.map_map]
      exact groupRow_vals hx hwhole hin h2 rm hr _

/-! ### What the completion of a product leaves (R167, R173) -/

/-- A bound register is emptied (R173). -/
def Core.release (k : Core) (t : Nat) : Core := if (k.tile t).state = .bound then k.setTile t Tile.init else k

theorem State.core_unpin (s : State) (c d : Nat) (x : Tile) : (s.unpin c x).core d = s.core d := by
  unfold State.unpin
  split <;> rfl

theorem State.core_releaseBound (s : State) (c t : Nat) : (s.releaseBound c t).core c = (s.core c).release t := by
  unfold State.releaseBound Core.release
  dsimp only
  split
  · rw [State.core_modCore, State.core_unpin]
  · rfl

theorem State.core_releaseAll (ts : List Nat) (s : State) (c : Nat) :
    (ts.foldl (fun s t => s.releaseBound c t) s).core c = ts.foldl Core.release (s.core c) := by
  induction ts generalizing s with
  | nil => rfl
  | cons t ts ih => rw [List.foldl_cons, ih, State.core_releaseBound, List.foldl_cons]

theorem Core.tile_setTile_ne (k : Core) {n m : Nat} (x : Tile) (h : m ≠ n) : (k.setTile n x).tile m = k.tile m := mapGet_set_ne _ _ _ h

/-- What the release of a tile does not write. -/
theorem Core.release_keeps (k : Core) (t : Nat) : (k.release t).mxOps = k.mxOps ∧ (k.release t).claims = k.claims := by
  unfold Core.release
  split <;> exact ⟨rfl, rfl⟩

theorem Core.releaseAll_keeps (ts : List Nat) (k : Core) : (ts.foldl Core.release k).mxOps = k.mxOps ∧ (ts.foldl Core.release k).claims = k.claims := by
  induction ts generalizing k with
  | nil => exact ⟨rfl, rfl⟩
  | cons t ts ih => exact ⟨(ih _).1.trans (k.release_keeps t).1, (ih _).2.trans (k.release_keeps t).2⟩

theorem Core.tile_release (k : Core) (t u : Nat) :
    (k.release t).tile u = if u = t ∧ (k.tile u).state = .bound then Tile.init else k.tile u := by
  unfold Core.release
  by_cases hu : u = t
  · subst hu
    split <;> simp [*]
  · rw [if_neg (fun h : u = t ∧ _ => hu h.1)]
    split
    · exact k.tile_setTile_ne _ hu
    · rfl

theorem Core.tile_releaseAll (ts : List Nat) (k : Core) (u : Nat) :
    (ts.foldl Core.release k).tile u = if u ∈ ts ∧ (k.tile u).state = .bound then Tile.init else k.tile u := by
  induction ts generalizing k with
  | nil => simp
  | cons t ts ih =>
    have hfirst := k.tile_release t u
    rw [List.foldl_cons, ih]
    by_cases hb : (k.tile u).state = .bound
    · by_cases hu : u = t
      · rw [if_pos ⟨hu, hb⟩] at hfirst
        rw [hfirst, ite_self, if_pos ⟨List.mem_cons.mpr (.inl hu), hb⟩]
      · rw [if_neg fun h => hu h.1] at hfirst
        simp [hfirst, hb, hu]
    · rw [if_neg fun h => hb h.2] at hfirst
      simp [hfirst, hb]

/-- What the completion of a product leaves of its core. -/
structure AfterMx (k k' : Core) (op : TileOp) (d : Nat) (x : Tile) : Prop where
  ops : k'.mxOps = k.mxOps.tail
  done : OperationDone k k' op d
  left : OperandsLeft k k' op
  tile : k'.tile d = x

/-- The core after the product at the head of mx has left `x` in register `d`. -/
def Core.mxDone (k : Core) (op : TileOp) (d : Nat) (x : Tile) : Core :=
  let k := op.reads.eraseDups.foldl Core.release k
  (({ k.unclaim op.reads with mxOps := k.mxOps.tail } : Core).setTile d x).setTileReady d true

theorem Core.mxDone_after (k : Core) {op : TileOp} {d : Nat} (hd : d ∉ op.reads) (x : Tile) : AfterMx k (k.mxDone op d x) op d x := by
  obtain ⟨hops, hclaims⟩ := k.releaseAll_keeps op.reads.eraseDups
  refine ⟨congrArg List.tail hops, ⟨tileReady_set .., fun y => ?_⟩, fun t ht => ?_, Core.tile_setTile ..⟩
  · refine (claimsOf_unclaim _ op.reads y).trans ?_
    rw [Core.claimsOf, hclaims]
    rfl
  · have hne : t ≠ d := fun h => hd (h ▸ ht)
    refine (Core.tile_setTile_ne _ x hne).trans ?_
    refine (k.tile_releaseAll op.reads.eraseDups t).trans ?_
    simp only [List.mem_eraseDups, ht, true_and]

theorem AfterMx.of_rest {k k' : Core} {op : TileOp} {d : Nat} {x : Tile} (hd : d ∉ op.reads) (h : k'.rest = (k.mxDone op d x).rest) :
    AfterMx k k' op d x := by
  have hkeep : ∀ {β : Type} (p : Core → β), (∀ k, p k.rest = p k) → p k' = p (k.mxDone op d x) := by
    intro β p hp
    rw [← hp, h, hp]
  obtain ⟨hops, ⟨hready, hclaims⟩, hleft, htile⟩ := k.mxDone_after hd x
  refine ⟨(hkeep Core.mxOps fun _ => rfl).trans hops, ⟨?_, fun y => ?_⟩, fun t ht => ?_, ?_⟩
  · exact (hkeep (·.tileReady d) fun _ => rfl).trans hready
  · exact (hkeep (·.claimsOf y) fun _ => rfl).trans (hclaims y)
  · exact (hkeep (·.tile t) fun _ => rfl).trans (hleft t ht)
  · exact (hkeep (·.tile d) fun _ => rfl).trans htile

theorem putResult_after {s : State} {c d m n : Nat} {op : TileOp} (hd : d ∉ op.reads) (r : Result) :
    AfterMx (s.core c) ((s.putResult c op d m n false r).core c) op d
      (resultTile (if ((s.core c).operandTile op (op.reads.headD 0)).fmt == 2 then 6 else 7) m n r.1) := by
  refine .of_rest hd ?_
  simp only [State.putResult, Bool.false_eq_true, if_false]
  rw [State.orFlagsOf, State.rest_modSeq, State.putTile, State.core_modCore, State.core_modCore, State.core_releaseAll]
  rfl

end Sys2Proof.Machine
end


section
/-! Recombined order (O47). -/
-- One proof after the other: elaborated side by side, the whole text's proofs need more memory than the check has.
set_option Elab.async false
namespace Sys2Proof.Machine
open Sys2Proof.Claims Sys2Proof.Laws

/-! ### Blocks as grids (R182) -/

theorem subBlock_grid {m n r0 h c0 w : Nat} (f : Nat → Nat → FVal) (hr : r0 + h ≤ m) (hc : c0 + w ≤ n) :
    subBlock (grid m n f) r0 h c0 w = grid h w fun i j => f (r0 + i) (c0 + j) := by
  rw [subBlock, grid, take_drop_getD [] (by simpa using hr), List.map_map]
  refine List.map_congr_left fun i hi => ?_
  have hi : i < h := List.mem_range.mp hi
  rw [Function.comp_apply, getD_map_range [] _ (by omega), take_drop_getD (.nan false) (by simpa using hc)]
  exact List.map_congr_left fun j hj => getD_map_range _ _ (by have := List.mem_range.mp hj; omega)

theorem preBlock_grid (rm : RM) (neg : Bool) (m n : Nat) (f g : Nat → Nat → FVal) :
    (preBlock rm neg (grid m n f) (grid m n g)).1 = grid m n fun i j => (preAdd rm (f i j) (if neg then (g i j).negate else g i j)).1 := by
  simp only [preBlock, zip_grid, map_grid]

theorem postBlock_grid (rm : RM) (neg : Bool) (m n : Nat) (f g : Nat → Nat → FVal) {x y : Block × Flags} (hx : x.1 = grid m n f) (hy : y.1 = grid m n g) :
    (postBlock rm neg x y).1 = grid m n fun i j => (roundE26 rm (fAdd rm (f i j) (if neg then (g i j).negate else g i j)).1).1 := by
  simp only [postBlock, hx, hy, zip_grid, map_grid]

/-- An element of a block product. -/
def blockElem (rm : RM) (n : Nat) (p q : Nat → Nat → FVal) (i j : Nat) : FVal :=
  afterChunks 16 rm (fun x => (roundE26 rm x).1) (.fin false 0 0) ((List.range n).map fun k => (p i k, q k j)) ((n + 15) / 16)

theorem prodBlock_grid (rm : RM) {m n w : Nat} (hn : 1 ≤ n) (f g : Nat → Nat → FVal) {a b : Block × Flags} (ha : a.1 = grid m n f) (hb : b.1 = grid n w g) :
    (prodBlock rm a b).1 = grid m w (blockElem rm n f g) := by
  have hwidth : ((grid n w g).headD []).length = w := by
    rw [grid, headD_map_range _ hn, List.length_map, List.length_range]
  simp only [prodBlock, ha, hb, hwidth, transposeRows_grid]
  rw [show grid w n (fun j i => g i j) = (List.range w).map fun j => (List.range n).map fun i => g i j from rfl, grid, List.map_map, List.map_map]
  refine List.map_congr_left fun i _ => ?_
  simp only [Function.comp_apply, List.map_map, List.length_map, List.length_range]
  refine List.map_congr_left fun j _ => ?_
  have h := chunked_eq (n := 16) (by omega) rm (roundE26 rm) (fuel := n / 16 + 1) (acc := .fin false 0 0) (ps := (List.range n).map fun k => (f i k, g k j))
    (by rw [List.length_map, List.length_range]; omega)
  simp only [List.map_map, Function.comp_def, List.length_map, List.length_range] at h
  exact h

theorem finishBlock_grid (rm : RM) (m n : Nat) (c0 : Nat → Nat → Lane) (f : Nat → Nat → FVal) {x : Block × Flags} (hx : x.1 = grid m n f) :
    (finishBlock rm (grid m n c0) x).1 = grid m n fun i j => BitVec.ofNat 32 (Fmt.f32.write rm (fAdd rm (f32Of (c0 i j)) (f i j)).1).1 := by
  simp only [finishBlock, hx, zip_grid, map_grid]

/-- Two blocks side by side. -/
theorem grid_beside {α : Type} (m n k : Nat) (f g : Nat → Nat → α) :
    ((grid m n f).zip (grid m k g)).map (fun r => r.1 ++ r.2) = grid m (n + k) fun i j => if j < n then f i j else g i (j - n) := by
  rw [grid, grid, List.zip_map', List.map_map]
  refine List.map_congr_left fun i _ => ?_
  rw [Function.comp_apply, List.range_add, List.map_append, List.map_map]
  congr 1
  · exact List.map_congr_left fun j hj => (if_pos (List.mem_range.mp hj)).symm
  · refine List.map_congr_left fun j _ => ?_
    change g i j = if n + j < n then f i (n + j) else g i (n + j - n)
    rw [if_neg (by omega), Nat.add_sub_cancel_left]

/-- Two blocks one below the other. -/
theorem grid_below {α : Type} (m n k : Nat) (f g : Nat → Nat → α) :
    grid m n f ++ grid k n g = grid (m + k) n fun i j => if i < m then f i j else g (i - m) j := by
  rw [grid, grid, grid, List.range_add, List.map_append, List.map_map]
  congr 1
  · exact List.map_congr_left fun i hi => List.map_congr_left fun j _ => (if_pos (List.mem_range.mp hi)).symm
  · refine List.map_congr_left fun i _ => List.map_congr_left fun j _ => ?_
    change g i j = if m + i < m then f (m + i) j else g (m + i - m) j
    rw [if_neg (by omega), Nat.add_sub_cancel_left]

/-- The element of four blocks of 32 by 32. -/
def fourBlocks {α : Type} (f11 f12 f21 f22 : Nat → Nat → α) (i j : Nat) : α :=
  if i < 32 then if j < 32 then f11 i j else f12 i (j - 32) else if j < 32 then f21 (i - 32) j else f22 (i - 32) (j - 32)

/-- The block, and the place in it. -/
theorem fourBlocks_eq {α : Type} (f11 f12 f21 f22 : Nat → Nat → α) {i j : Nat} (hi : i < 64) (hj : j < 64) : fourBlocks f11 f12 f21 f22 i j =
    (match decide (i < 32), decide (j < 32) with
      | true, true => f11 | true, false => f12 | false, true => f21 | false, false => f22) (i % 32) (j % 32) := by
  have hi32 : i % 32 = if i < 32 then i else i - 32 := by split <;> omega
  have hj32 : j % 32 = if j < 32 then j else j - 32 := by split <;> omega
  rw [hi32, hj32, fourBlocks]
  by_cases h : i < 32 <;> by_cases h' : j < 32 <;> simp [h, h']

theorem grid_fourBlocks {α : Type} (f11 f12 f21 f22 : Nat → Nat → α) :
    ((grid 32 32 f11).zip (grid 32 32 f12)).map (fun r => r.1 ++ r.2) ++ ((grid 32 32 f21).zip (grid 32 32 f22)).map (fun r => r.1 ++ r.2) =
      grid 64 64 (fourBlocks f11 f12 f21 f22) := by
  rw [grid_beside, grid_beside, grid_below]
  rfl

/-! ### The sums of recombined order (R182) -/

section
variable (rm : RM) (n : Nat) (a b : Nat → Nat → FVal)

/-- A block of an operand. -/
def shifted (f : Nat → Nat → FVal) (r c : Nat) : Nat → Nat → FVal := fun i j => f (r + i) (c + j)

/-- A pre-addition, or a difference, of two blocks. -/
def preSum (f g : Nat → Nat → FVal) : Nat → Nat → FVal := fun i j => (preAdd rm (f i j) (g i j)).1
def preDiff (f g : Nat → Nat → FVal) : Nat → Nat → FVal := fun i j => (preAdd rm (f i j) (g i j).negate).1

/-- A post-addition, or a difference, of two blocks. -/
def postSum (f g : Nat → Nat → FVal) : Nat → Nat → FVal := fun i j => (roundE26 rm (fAdd rm (f i j) (g i j)).1).1
def postDiff (f g : Nat → Nat → FVal) : Nat → Nat → FVal := fun i j => (roundE26 rm (fAdd rm (f i j) (g i j).negate).1).1

/-- The seven block products. -/
def recM1 := blockElem rm n (preSum rm (shifted a 0 0) (shifted a 32 n)) (preSum rm (shifted b 0 0) (shifted b n 32))
def recM2 := blockElem rm n (preSum rm (shifted a 32 0) (shifted a 32 n)) (shifted b 0 0)
def recM3 := blockElem rm n (shifted a 0 0) (preDiff rm (shifted b 0 32) (shifted b n 32))
def recM4 := blockElem rm n (shifted a 32 n) (preDiff rm (shifted b n 0) (shifted b 0 0))
def recM5 := blockElem rm n (preSum rm (shifted a 0 0) (shifted a 0 n)) (shifted b n 32)
def recM6 := blockElem rm n (preDiff rm (shifted a 32 0) (shifted a 0 0)) (preSum rm (shifted b 0 0) (shifted b 0 32))
def recM7 := blockElem rm n (preDiff rm (shifted a 0 n) (shifted a 32 n)) (preSum rm (shifted b n 0) (shifted b n 32))

/-- The four blocks of sums. -/
def recX : Nat → Nat → FVal := fourBlocks
  (postSum rm (postDiff rm (postSum rm (recM1 rm n a b) (recM4 rm n a b)) (recM5 rm n a b)) (recM7 rm n a b))
  (postSum rm (recM3 rm n a b) (recM5 rm n a b))
  (postSum rm (recM2 rm n a b) (recM4 rm n a b))
  (postSum rm (postSum rm (postDiff rm (recM1 rm n a b) (recM2 rm n a b)) (recM3 rm n a b)) (recM6 rm n a b))

theorem recombine_grid (hn : 1 ≤ n) : (recombine rm (grid 64 (n + n) a) (grid (n + n) 64 b)).1 = grid 64 64 (recX rm n a b) := by
  have hhalf : ((grid 64 (n + n) a).headD []).length / 2 = n := by
    rw [grid, headD_map_range _ (by omega), List.length_map, List.length_range]
    omega
  have hsum : ∀ (m w : Nat) (f g : Nat → Nat → FVal), (preBlock rm false (grid m w f) (grid m w g)).1 = grid m w (preSum rm f g) :=
    fun m w f g => preBlock_grid rm false m w f g
  have hdiff : ∀ (m w : Nat) (f g : Nat → Nat → FVal), (preBlock rm true (grid m w f) (grid m w g)).1 = grid m w (preDiff rm f g) :=
    fun m w f g => preBlock_grid rm true m w f g
  have hplus : ∀ {f g : Nat → Nat → FVal} {x y : Block × Flags}, x.1 = grid 32 32 f → y.1 = grid 32 32 g → (postBlock rm false x y).1 = grid 32 32 (postSum rm f g) :=
    fun hx hy => postBlock_grid rm false 32 32 _ _ hx hy
  have hminus : ∀ {f g : Nat → Nat → FVal} {x y : Block × Flags}, x.1 = grid 32 32 f → y.1 = grid 32 32 g → (postBlock rm true x y).1 = grid 32 32 (postDiff rm f g) :=
    fun hx hy => postBlock_grid rm true 32 32 _ _ hx hy
  have hprod : ∀ {f g : Nat → Nat → FVal} {x y : Block × Flags}, x.1 = grid 32 n f → y.1 = grid n 32 g → (prodBlock rm x y).1 = grid 32 32 (blockElem rm n f g) :=
    fun hx hy => prodBlock_grid rm hn _ _ hx hy
  have ha : ∀ r c, r + 32 ≤ 64 → c + n ≤ n + n → subBlock (grid 64 (n + n) a) r 32 c n = grid 32 n (shifted a r c) :=
    fun r c hr hc => subBlock_grid a hr hc
  have hb : ∀ r c, r + n ≤ n + n → c + 32 ≤ 64 → subBlock (grid (n + n) 64 b) r n c 32 = grid n 32 (shifted b r c) :=
    fun r c hr hc => subBlock_grid b hr hc
  have h1 := hprod (hsum 32 n (shifted a 0 0) (shifted a 32 n)) (hsum n 32 (shifted b 0 0) (shifted b n 32))
  have h2 := hprod (hsum 32 n (shifted a 32 0) (shifted a 32 n)) (y := (grid n 32 (shifted b 0 0), 0)) rfl
  have h3 := hprod (x := (grid 32 n (shifted a 0 0), 0)) rfl (hdiff n 32 (shifted b 0 32) (shifted b n 32))
  have h4 := hprod (x := (grid 32 n (shifted a 32 n), 0)) rfl (hdiff n 32 (shifted b n 0) (shifted b 0 0))
  have h5 := hprod (hsum 32 n (shifted a 0 0) (shifted a 0 n)) (y := (grid n 32 (shifted b n 32), 0)) rfl
  have h6 := hprod (hdiff 32 n (shifted a 32 0) (shifted a 0 0)) (hsum n 32 (shifted b 0 0) (shifted b 0 32))
  have h7 := hprod (hdiff 32 n (shifted a 0 n) (shifted a 32 n)) (hsum n 32 (shifted b n 0) (shifted b n 32))
  have hx11 := hplus (hminus (hplus h1 h4) h5) h7
  have hx12 := hplus h3 h5
  have hx21 := hplus h2 h4
  have hx22 := hplus (hplus (hminus h1 h2) h3) h6
  simp only [recombine, hhalf]
  rw [ha 0 0 (by omega) (by omega), ha 0 n (by omega) (by omega), ha 32 0 (by omega) (by omega), ha 32 n (by omega) (by omega),
    hb 0 0 (by omega) (by omega), hb 0 32 (by omega) (by omega), hb n 0 (by omega) (by omega), hb n 32 (by omega) (by omega),
    hx11, hx12, hx21, hx22, grid_fourBlocks]
  rfl

/-- Each sum is rounded once with the accumulator value. -/
theorem recombinedSum_eq (c0 : Lane) {r j : Nat} (hr : r < 64) (hj : j < 64) :
    recombinedSum n rm c0 a b r j = BitVec.ofNat 32 (Fmt.f32.write rm (fAdd rm (f32Of c0) (recX rm n a b r j)).1).1 := by
  rw [recX, fourBlocks_eq _ _ _ _ hr hj]
  unfold recombinedSum
  cases decide (r < 32) <;> cases decide (j < 32) <;>
    simp only [recM1, recM2, recM3, recM4, recM5, recM6, recM7, blockElem, preSum, preDiff, postSum, postDiff, shifted, Nat.zero_add]

end

/-! ### `mma` in recombined order (R181, R182) -/

/-- Where a row or a column has no place. -/
def noPlace : Place := (Tile.init, 0, 0)

theorem rows_as_grid {l m : Nat} (place : Nat → List Place) (hl : ∀ r, (place r).length = l) :
    ((List.range m).map fun r => (place r).map elemVal) = grid m l fun r k => elemVal ((place r).getD k noPlace) := by
  refine List.map_congr_left fun r _ => ?_
  refine List.ext_getElem (by simp [hl]) fun k h₁ h₂ => ?_
  have hk : k < (place r).length := by simpa using h₁
  simp [hk]

theorem stacked_as_grid {n fmt m w l : Nat} {x y : Nat → Tile} (hp : PairsFit n fmt m w x y) (hl : ∀ j, (colOf n y j).length = l) :
    (((List.range n).map fun i => Operand.of (y i)).map Operand.vals).flatten = grid l w fun k j => elemVal ((colOf n y j).getD k noPlace) := by
  have hplaces : (rowPlaces n y).length = l := by rw [← hl 0, colOf_eq, List.length_map]
  have hvals : ((List.range n).map fun i => Operand.of (y i)).map Operand.vals = (List.range n).map fun i => grid (y i).rows w fun r c => elemVal (y i, r, c) := by
    rw [List.map_map]
    refine List.map_congr_left fun i hi => ?_
    obtain ⟨hw, hc⟩ := hp.b i (List.mem_range.mp hi)
    rw [Function.comp_apply, Operand.vals_of hw, hc]
  rw [hvals, rows_below]
  refine List.ext_getElem (by simp [hplaces, grid]) fun k h₁ h₂ => ?_
  have hk : k < (rowPlaces n y).length := by simpa using h₁
  simp [grid, colOf_eq, hk]

theorem mmaResult_recombined {n fmt m w : Nat} {x y : Nat → Tile} (hp : PairsFit n fmt m w x y) (hin : ∀ i < n, (x i).cols = (y i).rows)
    {cl : Bool} (h2 : fmt ≠ 2) (ht : recombinedTaken m w (innerSize n x) cl = true) (hpos : 1 ≤ innerSize n x) (rm : RM) (c0 : Nat → Nat → Lane) :
    (mmaResult rm cl ((List.range n).map fun i => Operand.of (x i)) ((List.range n).map fun i => Operand.of (y i)) (grid m w c0)).1 =
      grid m w fun r j => recombinedSum (innerSize n x / 2) rm (c0 r j) (fun i l => elemVal ((rowOf n x i).getD l noPlace))
        (fun l i => elemVal ((colOf n y i).getD l noPlace)) r j := by
  have hrow : ∀ r, (rowOf n x r).length = innerSize n x := fun r => length_rowOf n x r
  have hcol : ∀ j, (colOf n y j).length = innerSize n x := fun j => (length_row_col hin 0 j).symm.trans (hrow 0)
  simp only [mmaResult, operands_rows hp, operands_cols hp, operands_fmt hp, operands_inner, beq_iff_eq, if_neg h2, ht, if_true]
  simp only [recombinedTaken, Bool.and_eq_true, beq_iff_eq] at ht
  obtain ⟨⟨⟨-, rfl⟩, rfl⟩, h32⟩ := ht
  have hhalf : innerSize n x = innerSize n x / 2 + innerSize n x / 2 := by omega
  rw [vals_rows hp, stacked_as_grid hp hcol, rows_as_grid _ hrow]
  generalize innerSize n x = kk at *
  rw [hhalf, finishBlock_grid rm 64 64 c0 _ (recombine_grid rm (kk / 2) _ _ (by omega)), ← hhalf]
  exact grid_congr fun r hr j hj => (recombinedSum_eq rm (kk / 2) _ _ (c0 r j) hr hj).symm

end Sys2Proof.Machine
end


section
/-! What the units bring about (O47). -/
-- One proof after the other: elaborated side by side, the whole text's proofs need more memory than the check has.
set_option Elab.async false
namespace Sys2Proof.Machine
open Sys2Proof.Claims Sys2Proof.Laws

/-! ### The operands of an operation of mx, as it reads them (R174, R179) -/

theorem operands_read {k : Core} {op : TileOp} {a n fmt : Nat} {down : Bool} {x : Nat → Tile} (hr : ∀ i < n, OperandRead k op (a + i) (x i))
    (hw : ∀ i < n, Whole (x i) fmt down) : (tilesFrom a n).map (k.operand op) = (List.range n).map fun i => (Operand.of (x i), false) := by
  rw [tilesFrom, List.map_map]
  exact List.map_congr_left fun i hi => operand_of (hr i (List.mem_range.mp hi)) (hw i (List.mem_range.mp hi))

theorem operands_clean (n : Nat) (x : Nat → Tile) : ((List.range n).map fun i => (Operand.of (x i), false)).any (·.2) = false := by
  simp

theorem operands_fst (n : Nat) (x : Nat → Tile) : ((List.range n).map fun i => (Operand.of (x i), false)).map (·.1) = (List.range n).map fun i => Operand.of (x i) := by
  rw [List.map_map]
  rfl

/-- The operands of the product at the head of mx, and its accumulator (R180). -/
structure ProductReads (k : Core) (op : TileOp) (d a b n fmt m w : Nat) (acc : Bool) (x y : Nat → Tile) : Prop where
  fit : PairsFit n fmt m w x y
  readsA : ∀ i < n, OperandRead k op (a + i) (x i)
  readsB : ∀ i < n, OperandRead k op (b + i) (y i)
  first : op.reads.headD 0 = a
  apart : d ∉ op.reads
  acc : MayAccumulate (k.tile d) acc fmt m w

section
variable {s : State} {c d a b n fmt m w : Nat} {acc : Bool} {op : TileOp} {x y : Nat → Tile}
variable (h : ProductReads (s.core c) op d a b n fmt m w acc x y)
include h

theorem ProductReads.as_eq : (tilesFrom a n).map ((s.core c).operand op) = (List.range n).map fun i => (Operand.of (x i), false) :=
  operands_read h.readsA fun i hi => (h.fit.a i hi).1

theorem ProductReads.bs_eq : (tilesFrom b n).map ((s.core c).operand op) = (List.range n).map fun i => (Operand.of (y i), false) :=
  operands_read h.readsB fun i hi => (h.fit.b i hi).1

theorem ProductReads.fmt_eq : ((s.core c).operandTile op (op.reads.headD 0)).fmt = fmt := by
  rw [h.first]
  exact operandTile_fmt (h.readsA 0 h.fit.some) (h.fit.a 0 h.fit.some).1

theorem ProductReads.rows_eq : (((List.range n).map fun i => (Operand.of (x i), false)).map fun o => o.1.rows).headD 0 = m := by
  rw [List.map_map, headD_map_range _ h.fit.some]
  exact (h.fit.a 0 h.fit.some).2

theorem ProductReads.cols_eq : (((List.range n).map fun i => (Operand.of (y i), false)).map fun o => o.1.cols).headD 0 = w := by
  rw [List.map_map, headD_map_range _ h.fit.some]
  exact (h.fit.b 0 h.fit.some).2

/-- The completion of `mma` (R180). -/
theorem completeMx_product {cl : Bool} (hk : op.kind = .product d a b n acc cl) :
    AfterMx (s.core c) ((s.completeMx c op).core c) op d (resultTile (if fmt == 2 then 6 else 7) m w
      (mmaResult (RM.ofCode op.rm) cl ((List.range n).map fun i => Operand.of (x i)) ((List.range n).map fun i => Operand.of (y i))
        (grid m w (startAt ((s.core c).tile d) acc))).1) := by
  have he := putResult_after (s := s) (c := c) (d := d) (m := m) (n := w) h.apart
    (mmaResult (RM.ofCode op.rm) cl ((List.range n).map fun i => Operand.of (x i)) ((List.range n).map fun i => Operand.of (y i))
      (grid m w (startAt ((s.core c).tile d) acc)))
  rw [h.fmt_eq] at he
  simp only [State.completeMx, hk, h.as_eq, h.bs_eq, h.rows_eq, h.cols_eq, operands_fst, List.any_append, operands_clean, Bool.or_self,
    mayAccumulate_good h.acc, accumulator_grid h.acc]
  exact he

/-- The completion of `mmas` (R185). -/
theorem completeMx_sparse {mt : Nat} (hk : op.kind = .sparse d a b n mt acc) (hfree : op.bound.lookup mt = none)
    (hmt : Whole ((s.core c).tile mt) 1 false) :
    AfterMx (s.core c) ((s.completeMx c op).core c) op d (resultTile (if fmt == 2 then 6 else 7) m w
      (mmasResult (RM.ofCode op.rm) ((List.range n).map fun i => Operand.of (x i)) ((List.range n).map fun i => Operand.of (y i))
        (Operand.of ((s.core c).tile mt)) (grid m w (startAt ((s.core c).tile d) acc))).1) := by
  have he := putResult_after (s := s) (c := c) (d := d) (m := m) (n := w) h.apart
    (mmasResult (RM.ofCode op.rm) ((List.range n).map fun i => Operand.of (x i)) ((List.range n).map fun i => Operand.of (y i))
      (Operand.of ((s.core c).tile mt)) (grid m w (startAt ((s.core c).tile d) acc)))
  have hread : OperandRead (s.core c) op mt ((s.core c).tile mt) := by
    unfold OperandRead
    rw [hfree]
  rw [h.fmt_eq] at he
  simp only [State.completeMx, hk, h.as_eq, h.bs_eq, h.rows_eq, h.cols_eq, operands_fst, operand_of hread hmt, List.any_append, operands_clean,
    List.any_cons, List.any_nil, Bool.or_self, mayAccumulate_good h.acc, accumulator_grid h.acc]
  exact he

end

/-- The completion of `mmag` (R186). -/
theorem completeMx_grouped {s : State} {c d a b n fmt w : Nat} {acc : Bool} {op : TileOp} {x : Tile} {y : Nat → Tile} {off : List Nat}
    (hk : op.kind = .grouped d a b n acc off) (hn : 1 ≤ n) (hfirst : op.reads.headD 0 = a) (hd : d ∉ op.reads)
    (hra : OperandRead (s.core c) op a x) (hrb : ∀ i < n, OperandRead (s.core c) op (b + i) (y i)) (hx : Whole x fmt false)
    (hy : ∀ i < n, Whole (y i) fmt true ∧ (y i).cols = w) (hacc : MayAccumulate ((s.core c).tile d) acc fmt x.rows w) :
    AfterMx (s.core c) ((s.completeMx c op).core c) op d (resultTile (if fmt == 2 then 6 else 7) x.rows w
      (mmagResult (RM.ofCode op.rm) (Operand.of x) ((List.range n).map fun i => Operand.of (y i)) off (grid x.rows w (startAt ((s.core c).tile d) acc))).1) := by
  have he := putResult_after (s := s) (c := c) (d := d) (m := x.rows) (n := w) hd
    (mmagResult (RM.ofCode op.rm) (Operand.of x) ((List.range n).map fun i => Operand.of (y i)) off (grid x.rows w (startAt ((s.core c).tile d) acc)))
  rw [hfirst, operandTile_fmt hra hx] at he
  have hrows : (Operand.of x).rows = x.rows := rfl
  have hcols : (((List.range n).map fun i => (Operand.of (y i), false)).map fun o => o.1.cols).headD 0 = w := by
    rw [List.map_map, headD_map_range _ hn]
    exact (hy 0 hn).2
  simp only [State.completeMx, hk, operand_of hra hx, operands_read hrb fun i hi => (hy i hi).1, hrows, hcols, operands_fst, List.any_cons, operands_clean,
    Bool.or_self, mayAccumulate_good hacc, accumulator_grid hacc]
  exact he

/-! ### What the products leave, in words (R179 to R186) -/

theorem headD_reads {a n : Nat} (hn : 1 ≤ n) (l : List Nat) : ((List.range n).map (a + ·) ++ l).headD 0 = a := by
  obtain ⟨k, rfl⟩ := Nat.exists_eq_add_of_le' hn
  rw [List.range_succ_eq_map]
  rfl

theorem innerSize_pos {n : Nat} {x : Nat → Tile} (hn : 1 ≤ n) (h : ∀ i < n, 1 ≤ (x i).cols) : 1 ≤ innerSize n x := by
  have hmem : (x 0).cols ∈ (List.range n).map fun i => (x i).cols := List.mem_map_of_mem (List.mem_range.mpr hn)
  exact (h 0 hn).trans (List.single_le_sum (fun _ _ => Nat.zero_le _) _ hmem)

/-- The product's words, in the order that is taken (R180 to R182). -/
theorem mmaResult_words {n fmt m w : Nat} {x y : Nat → Tile} (hp : PairsFit n fmt m w x y) (hin : ∀ i < n, (x i).cols = (y i).rows)
    (hcols : ∀ i < n, 1 ≤ (x i).cols) (cl : Bool) (rm : RM) (c0 : Nat → Nat → Lane) :
    (mmaResult rm cl ((List.range n).map fun i => Operand.of (x i)) ((List.range n).map fun i => Operand.of (y i)) (grid m w c0)).1 =
      grid m w fun r j => if fmt ≠ 2 ∧ cl = false ∧ m = 64 ∧ w = 64 ∧ innerSize n x % 32 = 0 then
          recombinedSum (innerSize n x / 2) rm (c0 r j) (fun i l => elemVal ((rowOf n x i).getD l noPlace))
            (fun l i => elemVal ((colOf n y i).getD l noPlace)) r j
        else classicalSum fmt 16 rm (c0 r j) ((rowOf n x r).zip (colOf n y j)) := by
  by_cases h : fmt ≠ 2 ∧ cl = false ∧ m = 64 ∧ w = 64 ∧ innerSize n x % 32 = 0
  · simp only [if_pos h]
    obtain ⟨h2, rfl, hm, hw, h32⟩ := h
    exact mmaResult_recombined hp hin h2 (by simp [recombinedTaken, hm, hw, h32]) (innerSize_pos hp.some hcols) rm c0
  · simp only [if_neg h]
    refine mmaResult_classical hp hin ?_ rm c0
    by_cases h2 : fmt = 2
    · exact .inl h2
    · refine .inr (Bool.eq_false_iff.mpr fun ht => h ?_)
      simp only [recombinedTaken, Bool.and_eq_true, Bool.not_eq_true', beq_iff_eq] at ht
      obtain ⟨⟨⟨hcl, hm⟩, hw⟩, h32⟩ := ht
      exact ⟨h2, hcl, hm, hw, h32⟩

theorem resultIs_of {k k' : Core} {op : TileOp} {d fmt m w : Nat} {rows : List (List Lane)} {f : Nat → Nat → Lane}
    (ha : AfterMx k k' op d (resultTile (if fmt == 2 then 6 else 7) m w rows)) (hr : rows = grid m w f) : ResultIs (k'.tile d) fmt m w f := by
  rw [ha.tile, hr]
  exact resultIs_grid rfl f

end Sys2Proof.Machine

namespace Sys2Proof.Proofs
open Sys2Proof Sys2Proof.Machine Sys2Proof.Claims Sys2Proof.Laws

/-- Settles O47: each port presents by the fold over its visible results, the completion of an operation of tf or mx is read off as
what it leaves of its core, tiles are grids of their elements, so that conversions and products agree element by element, and a
`stopk` writes the records of its keys sorted by rank. -/
theorem unitsComplete : Obligations.UnitsComplete := by
  unfold Obligations.UnitsComplete
  refine ⟨fun e he c q s => ?ports, fun e he c q s ho => ?vports, fun c s op rest hops => ⟨fun d x cf bcol hk => ?convert, fun n cf d hk hr => ?load,
      fun n hk => ?store, fun q e n d src lines hk hnext hbind hq ho => ?bind⟩,
    fun c s op rest hops => ⟨fun d rows cols fmt hk => ?zero, ?product, ?sparse, ?grouped⟩,
    fun rm ts hf => sumOf_exact rm hf, fun c s o ho hover hle => ?stopk, fun c s d hd h => mdrainRow_over hd h,
    fun c q s hr hs hl hu hk hv => ?units⟩
  case ports =>
    obtain ⟨f, hexec, hf⟩ := ownPort_presents he s c q
    obtain ⟨hres, hsregs, hports⟩ := results_modSeq s c q f
    refine ⟨_, hexec, ?_, fun g hg hne => ?_, rfl, hsregs, hports⟩
    · rw [hres, (hf _).1]
      exact presented_present _ _
    · rw [hres, (hf _).2 g hg hne]
  case vports =>
    obtain ⟨f, hexec, hf⟩ := vectorPort_presents he s ho
    refine ⟨_, hexec, ?_, fun g hg hne => ?_, ?_, rfl⟩
    · rw [State.core_modCore, (hf _).1]
      exact presented_present _ _
    · rw [State.core_modCore, (hf _).2.2 g hg hne]
    · rw [State.seq, State.core_modCore, Core.seq, (hf _).2.1]
      rfl
  case convert =>
    obtain ⟨hops', hdone, htile⟩ := completeTf_convert (s := s) (c := c) hk
    obtain ⟨hstate, hfmt, hrows, hcols, hdir⟩ := convertedTile_shape ((s.core c).tile x) cf op.rm bcol
    refine ⟨_, execTf_eq hops, ?_⟩
    dsimp only
    rw [htile]
    exact ⟨hops'.trans (congrArg List.tail hops), hdone, hstate, hfmt, hrows, hcols, hdir,
      fun down hw hc _ h16 => convertedTile_data hw hc h16 op.rm⟩
  case load =>
    obtain ⟨data, ⟨hops', hdone, htile⟩, hdata, hentry⟩ := completeTf_load (s := s) (c := c) hk hr
    obtain ⟨hstate, hfmt, hrows, hcols⟩ := loadedTile_shape d cf op.rm (sourceBytes d op.got).1
    refine ⟨_, execTf_eq hops, hops'.trans (congrArg List.tail hops), ?_⟩
    dsimp only
    rw [htile]
    refine ⟨hdone, hstate, hfmt, hrows, hcols, fun bytes hp hs => ?_, fun hp hb e he ho => ?_, fun hp e he ho => ?_⟩
    · have hsrc := sourceBytes_of hs
      rw [hsrc] at hdata hentry
      rw [hdata hp rfl]
      refine ⟨fun h => loadedTile_kept h op.rm bytes, fun hne hc _ _ h16 => loadedTile_converted hne hc h16 op.rm bytes, fun e he ho => ?_⟩
      obtain ⟨e', rfl⟩ := hentry e he ho
      rw [hp]
      exact ⟨rfl, rfl, congrArg Value.s (loadStatus_good d n)⟩
    · obtain ⟨e', rfl⟩ := hentry e he ho
      rw [hp, sourceBytes_broken hb.1 hb.2]
      exact ⟨rfl, rfl, congrArg Value.s (loadStatus_broken d n)⟩
    · obtain ⟨e', rfl⟩ := hentry e he ho
      rw [hp]
      exact ⟨rfl, rfl⟩
  case store =>
    refine ⟨_, execTf_eq hops, ?_⟩
    rw [completeTf_store hk, hops]
    exact ⟨rfl, fun x => claimsOf_unclaim .., rfl⟩
  case bind =>
    refine ⟨fun l => ?_, fun l hl => ?_, tbindPinned_waits hops hnext hbind hk, fun hall => ?_⟩
    · rw [bindable_eq hops hnext hbind hq ho, List.mem_filter, mem_unpinned hk, and_assoc]
    · rw [bindable_eq hops hnext hbind hq ho, List.mem_filter] at hl
      exact bindLine_reads hops hl.2
    · obtain ⟨⟨hops', hdone, htile⟩, hmem⟩ := finishBind_leaves s c q n e.order d src lines op
      refine ⟨_, tbindPinned_done hops hnext hbind hq ho hk hall, hops'.trans (congrArg List.tail hops), hdone, ?_⟩
      rw [htile]
      exact ⟨rfl, rfl, rfl, rfl, rfl, hmem⟩
  case zero =>
    refine ⟨_, execMx_eq hops, ?_⟩
    rw [completeMx_zero hk, hops]
    refine ⟨rfl, tileReady_set .., ?_⟩
    rw [Core.tile_setTileReady, Core.tile_setTile]
    exact ⟨rfl, rfl, rfl, rfl, rfl⟩
  case product =>
    intro d a b n acc cl fmt x y hk hn _ hreads hd hrd
    dsimp only
    intro hshape hacc
    simp only [forall_and] at hrd hshape
    obtain ⟨hreadA, hreadB⟩ := hrd
    obtain ⟨hwholeA, hwholeB, hrow, hcol, hin, hpos⟩ := hshape
    have hp : PairsFit n fmt (x 0).rows (y 0).cols x y := ⟨hn, fun i hi => ⟨hwholeA i hi, hrow i hi⟩, fun i hi => ⟨hwholeB i hi, hcol i hi⟩⟩
    have h : ProductReads (s.core c) op d a b n fmt _ _ acc x y := ⟨hp, hreadA, hreadB, by rw [hreads, headD_reads hn], hd, hacc⟩
    have ha := completeMx_product h hk
    refine ⟨_, execMx_eq hops, ha.ops.trans (congrArg List.tail hops), ha.done, ha.left, resultIs_of ha ?_⟩
    exact mmaResult_words hp hin hpos cl _ _
  case sparse =>
    intro d a b n mt acc fmt x y hk hn _ hreads hd hrd hfree
    dsimp only
    intro hshape hmt hrows hcols hacc
    simp only [forall_and] at hrd hshape
    obtain ⟨hreadA, hreadB⟩ := hrd
    obtain ⟨hwholeA, hwholeB, hrow, hcol, hin, -, -⟩ := hshape
    have hp : PairsFit n fmt (x 0).rows (y 0).cols x y := ⟨hn, fun i hi => ⟨hwholeA i hi, hrow i hi⟩, fun i hi => ⟨hwholeB i hi, hcol i hi⟩⟩
    have h : ProductReads (s.core c) op d a b n fmt _ _ acc x y := ⟨hp, hreadA, hreadB, by rw [hreads, List.append_assoc, headD_reads hn], hd, hacc⟩
    have hdense : ((List.range n).map fun i => (y i).rows).sum = innerSize n x * 2 := by
      rw [innerSize, ← List.sum_map_mul_right]
      exact congrArg List.sum (List.map_congr_left fun i hi => by rw [← hin i (List.mem_range.mp hi), Nat.mul_comm])
    have ha := completeMx_sparse h hk hfree hmt
    refine ⟨_, execMx_eq hops, ha.ops.trans (congrArg List.tail hops), ha.done, ha.left, resultIs_of ha ?_⟩
    exact mmasResult_grid hp hmt hrows (by omega) (fun j => (length_colOf n y j).trans hdense) _ _
  case grouped =>
    intro d a b n acc off fmt x y hk hn _ hreads hd _ hra hrb
    dsimp only
    intro hx _ hshape hacc
    simp only [forall_and] at hshape
    obtain ⟨hwhole, hcol, hrow, -⟩ := hshape
    have ha := completeMx_grouped hk hn (by rw [hreads]; rfl) hd hra hrb hx (fun i hi => ⟨hwhole i hi, hcol i hi⟩) hacc
    refine ⟨_, execMx_eq hops, ha.ops.trans (congrArg List.tail hops), ha.done, ha.left, resultIs_of ha ?_⟩
    exact mmagResult_grid hx (fun i hi => ⟨hwhole i hi, hcol i hi, hrow i hi⟩) _ off _
  case stopk =>
    have hgo := stopkGoes_of hover
    obtain ⟨bs, u, hexec, hmem, hcore, hbs⟩ := execStopkComplete_eq ho hgo
    obtain ⟨hnone, hready⟩ := stopkDone_ready (s.core c) o bs
    refine ⟨fun i hi hs hw => ?_, _, hexec, ?_⟩
    · dsimp only
      rw [stopkWrite_eq ho hgo hi hs hw, State.core_setCore]
      exact ⟨rfl, _, rfl, rfl, readSpad_recordWritten hi, fun a ha => spad_recordWritten_outside _ o ha⟩
    · rw [State.core_modCore, hcore]
      refine ⟨hnone, hready, hmem, fun bs' hs hout hlen n hn => ?_, fun hs hout hw => ?_⟩
      · rw [hbs hs, Stopk.output, hout]
        exact readSpad_stopkDone hlen hn
      · refine ⟨stopkChosen (s.core c) o, length_stopkChosen hle, fun i hi => stopkChosen_lt hi, stopkChosen_pairwise _ o,
          fun i hi j hj hn => stopkChosen_before hi hj hn, fun n hn => ?_⟩
        rw [hbs hs, Stopk.output, hout, Option.getD_none, readSpad_stopkDone (length_stopkRecords hle) hn, hw, if_neg List.not_mem_nil,
          take_drop_stopkRecords hle hn]
        rfl
  case units =>
    have hdone := State.unitDone_of hr hs hl hu hk hv
    have hexec : exec (.unitComplete c q) s = .next (s.endUnit c q) := if_pos hdone
    refine ⟨fun hfree => hexec.trans (congrArg _ (endUnit_free hfree)), fun id l hc hlaunch hn hre => ⟨_, hexec, ?_⟩⟩
    obtain ⟨hidle, hmem, hcount⟩ := endUnit_counts hc hlaunch hn hre
    exact ⟨hidle, hmem, hcount⟩

end Sys2Proof.Proofs
end
